-- ==== Sys2Proof/Word.lean ====
section
/-! DEFINITION. Word.lean: the word types of the Ulivia W1 and the small enumerations that its commands and its
state share. Bit ranges are [msb:lsb] with bit 0 the least significant (00 R9). -/

namespace Sys2Proof

/-- A byte. -/
abbrev Byte := BitVec 8

/-- A 64-bit word: task registers, descriptor words, raw registers. -/
abbrev W64 := BitVec 64

/-- A bit pattern of 32 bits, binary32 in most places (05 R132: never stored under a format code). -/
abbrev W32 := BitVec 32

/-- A bit pattern of 16 bits: FP16, BF16, G16 mantissas and headers. -/
abbrev W16 := BitVec 16

/-- Physical skillet identifier, PID = 8 × py + px (03 R71). -/
abbrev Pid := Fin 64

/-- Module-wide slice, stack or port number, 8 × side + index (00 R4). -/
abbrev Slice := Fin 32

/-- The four traffic classes of the mesh (00 R5, 09 R257), in priority order. -/
inductive TClass where
  | vermilion | amber | slate | ash
  deriving DecidableEq, Repr

/-- The four event classes (15 R446). -/
inductive EvClass where
  | notice | corrected | contained | fatal
  deriving DecidableEq, Repr

/-- The lifecycle states (17 R498). -/
inductive Life where
  | off | stewardBoot | selfTest | awaitAddress | linkUp | joined | ready | running | paused
  | recovering | service | quarantined
  deriving DecidableEq, Repr

/-- The access classes of the dictionary (17 R492). -/
inductive Access where
  | observer | operator | scheduler | service
  deriving DecidableEq, Repr

/-- How a dictionary operation reaches the server: an Ethernet port or the rack chain (17 R497, R503). -/
inductive Via where
  | eth0 | eth1 | chain
  deriving DecidableEq, Repr

/-- What an access finds in a protected granule: nothing, a corrected single-bit error, or a double-bit error
(06 R180). -/
inductive Ecc where
  | clean | single | double
  deriving DecidableEq, Repr

end Sys2Proof
end

