-- ==== Sys2Proof/Machine/Frames.lean ====
section
/-! DEFINITION. Machine/Frames.lean: what travels: dictionary operations, mesh flits, cobalt messages, link frames,
rack-chain frames, event records, manifests, and the measurements that commands bring from outside. Plain data;
no meaning stands here. -/

namespace Sys2Proof

/-- One operation of a Shupo REQUEST (17 R507-R509). `session` is the SESSION number, 0 on the chain; `src` the
chain frame's SRC; `seq` the frame's SEQ; `op` the operation's place in the body, 0-31; `tagOk` whether the frame's
tag verifies under the session's key; `typ` the TYPE code and `value` the value's bytes as sent;
`rsv` the operation's byte 5, `opRsv` that its byte 0 holds a reserved OP. -/
structure Req where
  via : Via
  session : Nat
  src : Nat
  seq : Nat
  op : Nat
  tagOk : Bool
  typ : Nat
  value : List Byte
  rsv : Nat := 0
  opRsv : Bool := false
  deriving DecidableEq, Repr

/-- The kind of a mesh flit (09 R253) with the MEM operation of 10 R299. -/
inductive FlitKind where
  | write | mcastWrite | merge | rimWrite | rimAdd | memRead | memWrite | memData | memDone | ack | cancel
  deriving DecidableEq, Repr

/-- A mesh flit: the sideband of 09 R253 and 10 R299, and its payload bytes (at most 256). `src` and `dest` are the
ports of 09 R250. `tag` names the ladle portion the flit belongs to and `part` the
byte offset of its data in the portion; `poison` lists the poisoned 8-byte granules of the payload. -/
structure Flit where
  cls : TClass
  kind : FlitKind
  vc : Nat
  epoch : Nat
  src : Nat
  dest : Nat
  addr : Nat
  chk : Bool
  slot : Nat
  fin : Bool
  ladle : Nat
  mask : BitVec 64
  sumTag : Nat
  fanin : Nat
  bf16 : Bool
  cnt : Nat
  positions : Nat
  sources : List Nat
  block : Nat
  headers : List W16
  status : Nat
  loc : Nat
  len : Nat
  tag : Nat
  part : Nat
  last : Bool
  poison : List Nat
  payload : List Byte
  deriving DecidableEq, Repr

/-- The type of a cobalt message that waits in flight (09 R277). Messages of the other types act in the command
that carries them. -/
inductive CobaltKind where
  | signal | remoteComplete | remoteRelease | event | fuse | reply
  deriving DecidableEq, Repr

/-- An event record (15 R449) with its class. -/
structure EventRec where
  event : Nat
  cls : EvClass
  valid : Bool
  frac : Nat
  ploc : Nat
  logical : Nat
  count : Nat
  step : Nat
  data : Nat
  deriving DecidableEq, Repr

/-- A cobalt message in flight (09 R276): source and destination node, type, epoch, ARG and payload beats. Where `bcast`
is set the message goes to the skillet nodes of `mask`, and DEST says nothing; what is left of the mask are the nodes that
it has still to reach. Only the steward sends URGENT messages, and those act in the command that carries them (R277). -/
structure CobaltMsg where
  kind : CobaltKind
  src : Nat
  dest : Nat
  epoch : Nat
  arg : Nat
  beats : List Nat
  record : Option EventRec
  bcast : Bool := false
  mask : Nat := 0
  deriving DecidableEq, Repr

/-- The content of a link frame (12 R366-R368): its kind and fields. `tagKind` is KIND of a REDUCE or ROUTED frame
or NTYPE of a NEIGHBOUR frame. -/
inductive FrameType where
  | idle | reduce | routed | neighbour | reservedType
  deriving DecidableEq, Repr

/-- The credit classes of a link (12 R367). -/
inductive LClass where
  | vermilion | ash | control | reservedClass
  deriving DecidableEq, Repr

/-- The content of a link frame: the reduction tag (11 R337), the routed header (12 R380) or the neighbour header
(12 R384), the four G16 headers of the sideband and the 256 flit bytes. -/
structure Content where
  ftype : FrameType
  cls : LClass
  kind : Nat
  repoch : Nat
  step : Nat
  hop : Nat
  origin : Nat
  count : Nat
  block : Nat
  sub : Nat
  destX : Nat
  destY : Nat
  srcX : Nat
  srcY : Nat
  hops : Nat
  len : Nat
  region : Nat
  addr : Nat
  rkind : Nat
  nport : Nat
  headers : List W16
  bytes : List Byte
  deriving DecidableEq, Repr

/-- A link frame as it arrives on a lane (12 R366, R367): link word and content. -/
structure Frame where
  seq : Nat
  ack : Nat
  nak : Bool
  cclass : LClass
  credit : Nat
  content : Content
  deriving DecidableEq, Repr

/-- A rack-chain frame (17 R501). -/
structure ChainFrame where
  dest : Nat
  src : Nat
  ctype : Nat
  hops : Nat
  body : List Byte
  deriving DecidableEq, Repr

/-- The manifest of an image (16 R471), its fields as bytes or numbers; `image` is the image itself. -/
structure Image where
  format : Nat
  kind : Nat
  reservedZero : Bool
  version : Nat
  svn : Nat
  revoke : BitVec 64
  binding : List Byte
  length : Nat
  digest : List Byte
  keyCert : List Byte
  rootKey : List Byte
  signature : List Byte
  head : List Byte
  image : List Byte
  deriving DecidableEq, Repr, Inhabited

/-- A defect that a test found: the colander record's KIND, PID, A and B (03 R83). -/
structure Defect where
  kind : Nat
  pid : Pid
  a : Nat
  b : Nat
  deriving DecidableEq, Repr

/-- What SELF_TEST found (03 R88, 10 R283, 14 R441): new defects in order, the spares that fail their adoption
check with the reason code of the failed check (03 R78), stacks that failed training, measured Fmax per skillet. -/
structure SelfTest where
  defects : List Defect
  adoptFails : List (Pid × Nat)
  failedStacks : List (Slice × Nat)
  fmaxMhz : List (Pid × Nat)
  linksDown : List (Pid × Nat)
  deriving DecidableEq, Repr

/-- The carrier sensor's reading (18 R531) and the conditions of 18 R523 and R533 at that reading. -/
structure Sensor where
  vinA : Nat
  vinB : Nat
  iinA : Nat
  iinB : Nat
  pin : Nat
  tInlet : Int
  tOutlet : Int
  flow : Nat
  leak : Bool
  deriving DecidableEq, Repr

/-- A busbar pair's voltage in units of 10 mV, and for how many µs it has stood there (18 R521-R524). `b` is pair B. -/
structure PairReading where
  b : Bool
  v10mV : Nat
  us : Nat
  deriving DecidableEq, Repr

/-- What a region's trip comparator reads at its hottest sensor, in °C (14 R436). -/
structure RegionReading where
  p : Pid
  tempC : Nat
  deriving DecidableEq, Repr

/-- A STATE frame in a port's landing store (15 R456): its place `k`, and whether the sender's plan and job seed are this
module's (15 R461), which no byte of the frame tells. -/
structure StateFrame where
  k : Nat
  sameJob : Bool
  deriving DecidableEq, Repr

end Sys2Proof
end

