-- ==== Sys2Proof/Syntax.lean ====
section
/-! DEFINITION. Syntax.lean: the commands of the Ulivia W1, one constructor for each row of
spec/opcode_table.json, in the table's order but for those with which nothing arrives, which stand last. The table gives no operands; each constructor carries what the rule
of its row says arrives with the happening: which unit it concerns, what a frame or a write carries, and the
physical quantities (times, temperatures, error bits) that the module measures.

The plan-word rows name only the skillet: the word itself is the one at the running task's PC in pantry (08 R222).
The frame rows name a port and a place in its landing store, which holds the accepted frames (12 R371). -/

namespace Sys2Proof

/-- The commands of spec/opcode_table.json. -/
inductive Instr where
  -- 02: cluster time
  | syncInRise (ps : Nat) (sinceBeat : Nat)
  | syncInFall (highNs : Nat)
  | slewingEntry (edgeOffset : Int)
  | stampReceived (port : Slice) (k : Nat)
  | beatSymbolReceived (port : Slice) (ps : Nat) (sinceBeat : Nat)
  | cbcLoad (r : Req)
  | beatSourceWrite (r : Req)
  | beatLinkPortWrite (r : Req)
  | schedEntryWrite (i : Fin 64) (r : Req)
  | schedEntryFire (i : Fin 64)
  | windowClose (i : Fin 64)
  | markerReceived (port : Slice) (k : Nat)
  | markSend (r : Req)
  -- 01, 10, 11: gate, update, flip, all-gather
  | ueGComplete (sl : Slice)
  | agReceived (port : Slice) (k : Nat)
  | buddyReceived (port : Slice) (k : Nat)
  | buddyAck (port : Slice) (k : Nat)
  | readyTaskStart (b : Nat)
  -- 03: colander
  | selfTestDone (t : SelfTest)
  | holeRequest (r : Req)
  -- 04: griddles
  | passIssue (p : Pid)
  | passFlush (p : Pid)
  | stationaryLoadStart (p : Pid) (g : Fin 4) (errs : List (Nat × Bool))
  | passIssueBegin (p : Pid) (g : Fin 4) (errs : List (Nat × Bool)) (accCorrected : Nat)
  | passBoundary (p : Pid) (g : Fin 4) (skipped : Nat)
  | passDrainEnd (p : Pid) (g : Fin 4)
  | passEmitEnd (p : Pid) (g : Fin 4)
  | griddleFault (p : Pid) (g : Fin 4) (cause : Nat) (col : Fin 256)
  -- 06: pantry
  | memop (p : Pid)
  | memopDone (p : Pid) (k : Nat)
  | slotSet (p : Pid)
  | slotReset (p : Pid)
  | slotResetAll (p : Pid)
  | slotComplete (p : Pid)
  | slotRelease (p : Pid)
  | slotDrainDone (p : Pid) (slot : Fin 4096)
  | shelfOpen (p : Pid) (steward : Option Nat)
  | shelfClose (p : Pid) (steward : Option Nat)
  | shelfWakeDone (p : Pid) (shelf : Fin 15)
  | shelfCloseDone (p : Pid) (shelf : Fin 15)
  | slotLoad (p : Pid) (errs : List (Nat × Bool))
  | slotStore (p : Pid)
  | correctionWriteback (p : Pid) (granule : Nat)
  | scrubAccess (node : Fin 68) (word : Nat) (granule : Fin 64) (e : Ecc) (passDone : Bool)
  | scrubForce (p : Pid) (bank : Fin 256)
  -- 07: ladles
  | ladleArm (p : Pid)
  | ladleStop (p : Pid)
  | ladleStopDone (p : Pid) (l : Fin 8)
  | ladleBlockStart (p : Pid) (l : Fin 8)
  | ladlePortionIssue (p : Pid) (l : Fin 8)
  | ladlePortionComplete (p : Pid) (l : Fin 8) (tag : Nat) (cycles : Nat)
  | memTimeout (p : Pid) (l : Fin 8) (tag : Nat)
  | ladleFault (p : Pid) (l : Fin 8) (cause : Nat)
  -- 08: sequencer
  | taskStart (p : Pid) (task : Fin 16) (pc : BitVec 25) (arg : W64)
  | haltAll (p : Pid)
  | clearLoss (p : Pid)
  | sliceExpired (p : Pid)
  | taskWake (p : Pid) (t : Fin 16) (frac : Fin 1024)
  | waitSlotFull (p : Pid)
  | waitSlotEmpty (p : Pid)
  | waitCounter (p : Pid)
  | waitSignal (p : Pid)
  | signalSend (p : Pid)
  | signalReceived (p : Pid) (src : Pid)
  | remoteComplete (p : Pid)
  | remoteRelease (p : Pid)
  | remoteCompleteReceived (p : Pid) (src : Pid)
  | remoteReleaseReceived (p : Pid) (src : Pid)
  | loopFor (p : Pid)
  | loopNext (p : Pid)
  | jump (p : Pid)
  | jumpIf (p : Pid)
  | loadi (p : Pid)
  | addi (p : Pid)
  | readreg (p : Pid)
  | spawn (p : Pid)
  | endTask (p : Pid)
  | yieldTask (p : Pid)
  | timeatAbs (p : Pid) (frac : Fin 1024)
  | timeatRel (p : Pid) (frac : Fin 1024)
  | planEvent (p : Pid)
  | whiskRun (p : Pid)
  | whiskOpStart (p : Pid) (errs : List (Nat × Bool))
  | whiskOpEnd (p : Pid)
  | whiskFault (p : Pid) (cause : Nat)
  | tapSwitch (p : Pid)
  | tapClearIdle (p : Pid)
  | tapClearActive (p : Pid)
  -- 09: mesh and cobalt
  | flitHop (node : Fin 68) (out : Fin 16) (cls : TClass) (vc : Fin 3) (fails : Nat)
  | routerParity (node : Fin 68) (cobalt : Bool)
  | flitLanding (p : Pid) (cls : TClass)
  | mergeLanding (p : Pid)
  | orderedMerge (p : Pid)
  | cancelReceived (p : Pid) (cls : TClass)
  | mcastBranchRelease (node : Fin 68) (out : Fin 16)
  | mcastLag (p : Pid) (l : Fin 8) (receiver : Pid)
  | tableWrite (node : Fin 68) (dest : Fin 128) (entry : W64)
  | regRead (node : Fin 69) (unit : Fin 32) (offset : Nat)
  | regWrite (node : Fin 69) (unit : Fin 32) (offset : Nat) (value : W64)
  | reply (node : Fin 69)
  | eventRecord (node : Fin 69)
  -- 10: rim memory
  | stackTempRead (sl : Slice) (temp : Nat)
  | ecsRead (sl : Slice) (corrected : Nat)
  | stackScrub (sl : Slice) (burst : Nat) (e : Ecc)
  | stackFailed (sl : Slice) (channels : BitVec 32)
  | memRead (sl : Fin 36) (errs : List (Nat × Bool))
  | memWrite (sl : Fin 36)
  | rimWrite (sl : Slice)
  | rimAdd (sl : Slice)
  | raBlockOp (sl : Slice) (block : Nat)
  | raFault (sl : Slice) (block : Nat)
  | ueFault (sl : Slice) (cause : Nat) (block : Nat)
  | optimizerWrite (sub : Nat) (r : Req)
  | applyStep (r : Req)
  | classRangeWrite (i : Fin 64) (r : Req)
  -- 11: reduction
  | bucketLaunch (sl : Slice) (b : Nat)
  | bucketReduced (sl : Slice) (b : Nat)
  | rsReceived (port : Slice) (k : Nat)
  | linkAdd (sl : Slice) (k : Nat)
  | linkAdderParity (port : Slice)
  | checkReceived (port : Slice) (k : Nat)
  | checkCompare (sl : Slice) (block : Nat)
  | traceReceived (port : Slice) (k : Nat)
  | fuse (side : Fin 4)
  | fusedReceived (port : Slice) (k : Nat)
  | watchdogStall (point : Fin 6)
  | clipNormWrite (r : Req)
  | skipLimitWrite (r : Req)
  | orderedWrite (r : Req)
  | checkDivisorWrite (r : Req)
  | reduceEpochWrite (r : Req)
  -- 12: links and torus
  | linkFrameReceived (port : Slice) (lane : Fin 32) (frame : Frame) (corrected : Bool) (crcOk : Bool)
  | nakReceived (port : Slice) (lane : Fin 32)
  | replayTimeout (port : Slice) (lane : Fin 32)
  | laneLockLost (port : Slice) (lane : Fin 32)
  | laneBerWindow (port : Slice) (lane : Fin 32) (ber : W32)
  | portFailedTimeout (port : Slice)
  | codewordLock (port : Slice)
  | trainingDone (port : Slice) (rttNs : Nat)
  | trainingTimeout (port : Slice)
  | linkHello (port : Slice) (k : Nat)
  | helloPeriod (port : Slice)
  | join (port : Slice) (k : Nat)
  | quiesce (port : Slice) (k : Nat)
  | last (port : Slice) (k : Nat)
  | portEnableWrite (port : Slice) (r : Req)
  | cartridgePrepare (bay : Fin 16) (r : Req)
  | cartridgeReady (bay : Fin 16)
  | cartridgeInserted (bay : Fin 16) (serial : List Byte)
  | cartridgeLit (bay : Fin 16)
  | cartridgeFailed (bay : Fin 16)
  | cartridgeWear (bay : Fin 16) (bias : Nat)
  | claim (port : Slice) (k : Nat)
  | torusSettingsWrite (sub : Nat) (r : Req)
  | coordConfirm (r : Req)
  | restore (port : Slice) (k : Nat)
  -- 14: power and heat
  | droopDetect (p : Pid)
  | droopEnd (p : Pid) (cycles : Nat)
  | droopWindow (p : Pid) (cycles : Nat) (stretched : Nat)
  | budgetEstimate (p : Pid) (counts : List Nat) (tempC : Nat)
  | levelRampDone (p : Pid)
  | modulePowerPeriod (rimMw : Nat) (vinMin10mV : Nat) (busbarMw : Nat)
  | powerSet (p : Pid) (budget : Nat) (limit : Nat) (thermal : Nat) (measured : Bool) (force : Nat) (rsv : Nat)
  | computeOff (p : Pid)
  | computeOn (p : Pid)
  | powerCoeff (p : Pid) (first : Nat) (coeffs : List W16)
  | checkWindow (scope : Option Pid) (estimate : Nat) (measuredMw : Nat)
  | measuredPeriod (p : Pid) (powerMw : Nat)
  | marginMeasure (p : Pid) (mhz : Nat)
  | thermalDownPeriod (temps : List Nat)
  | thermalUpPeriod (temps : List Nat)
  | regionTrip (x : RegionReading)
  | heatIsolation (p : Pid)
  | meshHeatEmergency (east : Bool) (tempC : Nat)
  | baseCapWrite (r : Req)
  | capProfileWrite (i : Fin 16) (r : Req)
  | maxPointWrite (r : Req)
  -- 18, 16: input, boot, reset
  | pwrEnAssert (vinA10mV : Nat) (vinB10mV : Nat)
  | inputPairLost (x : PairReading)
  | inputPairReturn (x : PairReading)
  | coolantRead (x : Sensor)
  | stewardFault (canLog : Bool)
  | regionShort (p : Pid)
  -- 15: recovery
  | rollback (port : Slice) (k : Nat)
  | state (port : Slice) (x : StateFrame)
  | restoreReq (port : Slice) (k : Nat)
  | alertAck (r : Req)
  -- 16: security
  | nonce (r : Req)
  | reportReady (session : Nat)
  | updateData (r : Req)
  | updateVerify (r : Req)
  | updateDiscard (r : Req)
  | ownerKey (r : Req)
  -- 17: Shupo, chain, lifecycle, plans
  | shupoHello (port : Fin 2) (clientKey : List Byte) (clientEph : List Byte) (clientNonce : List Byte)
  | proof (session : Nat) (signature : List Byte)
  | proofTimeout (session : Nat)
  | close (session : Nat) (tagOk : Bool)
  | sessionTimeout (session : Nat)
  | dictWrite (index : Nat) (sub : Nat) (r : Req)
  | subscribe (r : Req)
  | assign (f : ChainFrame)
  | clearAddress (f : ChainFrame)
  | commandStart (r : Req)
  | commandPause (r : Req)
  | commandStop (r : Req)
  | commandResume (r : Req)
  | enterService (r : Req)
  | commandReset (r : Req)
  | nodeIdWrite (r : Req)
  | ipConfigWrite (port : Fin 2) (r : Req)
  | planData (r : Req)
  | loadPlan (r : Req)
  | unload (r : Req)
  | loadJob (r : Req)
  | planDiscard (r : Req)
  | jobAddressWrite (r : Req)
  | jobData (r : Req)
  | cartridgeRemoved (bay : Fin 16)
  | stepMarkFall (highNs : Nat)
  | taskTableParity (p : Pid) (t : Fin 16)
  | chainFrame (f : ChainFrame) (crcOk : Bool)
  | ipConfigApply (port : Fin 2)
  -- rows with which nothing arrives
  | late
  | wide
  | stuck
  | trainRestart
  | oscillatorBeat
  | holdoverEntry
  | lockingEntry
  | slewEnd
  | holdoverLong
  | stepMarkRise
  | markStuck
  | gateEvaluate
  | updateStart
  | stepFlip
  | buddyCopyComplete
  | ceWindowEnd
  | meshHold
  | meshRelease
  | westFullClock
  | westHalfClock
  | eastFullClock
  | eastHalfClock
  | eventsSuppressed
  | stackRowWindowEnd
  | fusedRecordForm
  | watchdogStep
  | claimPeriod
  | stackThrottle
  | softStartDone
  | stage2Start
  | pwrEnDeassert
  | inputLockout
  | lockoutClear
  | resetN
  | moduleReset
  | resumeRule
  | rollbackDone
  | spareAdopt
  | updateVerifyDone
  | chainInputLost
  | chainBypassOpen
  | loadPlanDone
  | loadJobDone
  | resetNRelease
  deriving DecidableEq, Repr

end Sys2Proof
end

