-- ==== Sys2Proof/Decode.lean ====
section
/-! DEFINITION. Decode.lean: the command that a word spells by the bits of spec/opcode_table.json. The table lists 266
rows and gives none of them any bits (every row's fields are empty), so no word spells a command: commands are
happenings at the module's pins, links, registers and units, and reach the queue as terms
(notes/assumptions/2). -/

namespace Sys2Proof

/-- The command a word of `nbits` bits spells: none, for every word. -/
def decodeTableWord (_nbits _w : Nat) : Option Instr := none

end Sys2Proof
end

