-- ==== Sys2Proof/Config.lean ====
section
/-! DEFINITION. Config.lean: what an implementation fixes and the spec leaves open. Every constant is opaque: no proof
can see a value, so a statement that holds holds for every value. notes/assumptions names each. -/

namespace Sys2Proof.Config

/-- A free number: the n-th value that the spec leaves open on a run, applied to State's counter `free`. -/
opaque freeNat : Nat → Nat

/-- How far a node's copy of the cluster beat count runs ahead of the slowest, in 1/1,024 bt; taken modulo 9, because all
copies agree within 8/1,024 bt (02 R48). -/
opaque copyAhead : Nat → Nat

/-- The outcome of the adoption check of a spare (03 R78), taken modulo 4: 0 where it passes, otherwise the reason code of
03 R84 that names the failed check. -/
opaque adoptResult : Nat → Nat

/-- DATA of an event whose chapter says what it names but not how the 64 bits hold it. -/
opaque eventData : List Nat → Nat

/-- The output link and VC that a routing-table entry names (09 R255 gives the entry's contents, not its bits). -/
opaque tableEntry : BitVec 64 → Nat × Nat

/-- Where within its bound of 2 ulp a table result of the whisk lies (08 R233): applied to the function's code and the
operand's bits. -/
opaque tableUlp : Nat → Nat → Nat

/-- Which of the orders of its steps a whisk operation takes where its formula leaves several (08 R233, R236): applied to
the operation code. -/
opaque stepOrder : Nat → Nat

/-- The binary32 result of a whisk operation that the spec states nowhere (08 R237: RSQRT of −0): applied to the operation
code, the scalars, the rows it reads and the column. -/
opaque whiskElem : Nat → List Nat → List (List Nat) → Nat → Nat

/-- The value of a dictionary entry (index * 256 + sub-index) before the part has one, where the spec names none. -/
opaque unstated : Nat → Nat

/-- The row of a stack that holds a local offset (10 R288 counts errors by row and leaves the rows' places open). -/
opaque stackRow : Nat → Nat

/-- Whether the bank of a stack's row still has a soft-repair row (10 R288): a property of the part, by stack, row and
entries in force. -/
opaque repairRowLeft : Nat → Nat → Nat → Bool

/-- The firmware's binary64 power (10 R309: BETA^(S+1)), by the base's bits and the exponent. -/
opaque firmwarePow : Nat → Nat → Nat

/-- The firmware's binary64 cosine of π times a number (10 R310), by its bits. -/
opaque firmwareCosPi : Nat → Nat

/-- An estimate in mW as the monitor rounds it (14 R422 gives the exact value), by numerator and denominator. -/
opaque roundMw : Nat → Nat → Nat

/-- The static power of a region in mW (14 R422), a table of the configuration image: by PID, supply voltage in 10 mV and
step of 5 °C of the hottest junction. -/
opaque staticPower : Nat → Nat → Nat → Nat

/-- The energy coefficients of the configuration image (14 R422): by PID and counter. -/
opaque coefficient : Nat → Nat → W16

/-- The status of a service operation on an entry of 9000-9FFF (17 R493: from Beyhel's data), and what a served read holds:
by whether it is a write, index, sub-index and value. -/
opaque serviceStatus : Bool → Nat → Nat → List Byte → Nat

/-- The value of an entry of 9000-9FFF that is read in SERVICE (17 R493). -/
opaque serviceValue : Nat → Nat → List Byte

/-- The firmware set of a bank as the module ships (16 R470). -/
opaque factoryBank : Nat → List Image

/-- The configuration image as the module ships (16 R470). -/
opaque factoryConfig : Image

/-- The records of the base colander in a configuration image (16 R477, 03 R83), as 128-bit numbers. -/
opaque baseColander : List Byte → List Nat

/-- The guard tables in a guard image (16 R481): rows of numbers, whose coding the spec leaves open. -/
opaque guardRows : List Byte → List (List Nat)

/-- The widths of the student's logits and, where the plan has a teacher, of the teacher's (01 R40): no section of the
bundle (17 R513) is said to hold them. -/
opaque logitWidths : List Byte → Nat × Option Nat

/-- The bytes of the job configuration as M7 takes them (16 R484 names what is measured, not its coding), from its
numbers. -/
opaque jobBytes : List Nat → List Byte

/-- SHA-512 (FIPS 180-4), as R473, R476 and R484 use it. -/
opaque sha512 : List Byte → List Byte

/-- Ed25519 verification (RFC 8032): key, message, signature. -/
opaque ed25519 : List Byte → List Byte → List Byte → Bool

/-- SHA-512 of the root public key that the ROM holds (16 R473). -/
opaque romRoot : List Byte

/-- The device's identity public key (16 R474, R476). -/
opaque identityKey : List Byte

/-- The signature by the identity key (16 R478, R485, 17 R506). -/
opaque identitySign : List Byte → List Byte

/-- Whether the flash answers at a power-on (16 R479), by the counter of free values. -/
opaque flashOk : Nat → Bool

/-- The firmware set that a recovery image writes into bank 0 (16 R479). -/
opaque recoverySet : List Byte → List Image

/-- Whether the PUF reconstructs the keys at a power-on (16 R474, R475), by the counter of free values. -/
opaque pufOk : Nat → Bool

/-- The module's ephemeral key, nonce and session number of a CHALLENGE (17 R506), by the counter of free values. -/
opaque challenge : Nat → List Byte × List Byte × Nat

/-- The session keys of R506 from the transcript and the module's ephemeral secret, by the counter of free values. -/
opaque sessionKeys : Nat → List Byte → List Byte

/-- A string or a blob of the part that the manual calls cfg (17 R511, 16 R489): by index * 256 + sub-index. -/
opaque partData : Nat → List Byte

end Sys2Proof.Config
end

