-- ==== Sys2Proof/Machine/Tab.lean ====
section
/-! DEFINITION. Machine/Tab.lean: the containers that State is built from: a sparse table of records by number, a
sparse memory of bytes in one canonical form, and reading and replacing one element of a fixed array. Every
operation is structurally recursive on a list. -/

namespace Sys2Proof

/-- A table of records by number, keys strictly rising; an unlisted number has the record the reader names. -/
abbrev Tab (α : Type) := List (Nat × α)

/-- The record listed under `k`, if any. -/
def Tab.find {α : Type} (t : Tab α) (k : Nat) : Option α :=
  match t with
  | [] => none
  | (j, a) :: r => if j = k then some a else if k < j then none else Tab.find r k

/-- The record under `k`, `d` where nothing is listed. -/
def Tab.at {α : Type} (t : Tab α) (k : Nat) (d : α) : α := (Tab.find t k).getD d

/-- `t` with `a` listed under `k`, keys kept rising. -/
def Tab.put {α : Type} (t : Tab α) (k : Nat) (a : α) : Tab α :=
  match t with
  | [] => [(k, a)]
  | (j, b) :: r => if k < j then (k, a) :: (j, b) :: r else if j = k then (k, a) :: r else (j, b) :: Tab.put r k a

/-- `t` without the record under `k`. -/
def Tab.del {α : Type} (t : Tab α) (k : Nat) : Tab α := t.filter (fun e => e.1 != k)

/-- Sparse memory: the bytes that differ from zero, addresses strictly rising. -/
abbrev Mem := List Host.Cell

/-- The canonical form: addresses strictly rising and no entry equal to what an unlisted address reads as. -/
abbrev Mem.wf (m : Mem) : Prop := m.Pairwise (fun x y => x.1 < y.1) ∧ ∀ c ∈ m, c.2 ≠ 0#8

/-- What an address that is not listed reads as (06 R183 zero-fills pantry; for stacks and rim buffers the log
says so). -/
def Mem.unlisted : Byte := 0#8

/-- One byte of memory. -/
def Mem.get (m : Mem) (a : Nat) : Byte :=
  match m with
  | [] => Mem.unlisted
  | (j, b) :: r => if j = a then b else Mem.get r a

/-- Memory with the entry of address `a` replaced by `b`, or put in its place. -/
def Mem.put (m : Mem) (a : Nat) (b : Byte) : Mem :=
  match m with
  | [] => [(a, b)]
  | (j, c) :: r => if a < j then (a, b) :: (j, c) :: r else if j = a then (a, b) :: r else (j, c) :: Mem.put r a b

/-- Memory with byte `a` replaced by `b`, in canonical form: what an unlisted address reads as is not listed. -/
def Mem.set (m : Mem) (a : Nat) (b : Byte) : Mem :=
  if b = Mem.unlisted then m.filter (fun c => c.1 != a) else Mem.put m a b

/-- The `n` bytes from `a` up. -/
def Mem.bytes (m : Mem) (a : Nat) : Nat → List Byte
  | 0 => []
  | n + 1 => Mem.get m a :: Mem.bytes m (a + 1) n

/-- Memory with the bytes `bs` stored from `a` up. -/
def Mem.store (m : Mem) (a : Nat) : List Byte → Mem
  | [] => m
  | b :: bs => Mem.store (Mem.set m a b) (a + 1) bs

/-- Memory with the `n` bytes from `lo` zeroed. -/
def Mem.zero (m : Mem) (lo n : Nat) : Mem := m.filter (fun c => c.1 < lo || lo + n ≤ c.1)

/-- Memory with the `n` bytes from `lo` set to `b`. -/
def Mem.fill (m : Mem) (lo : Nat) (b : Byte) (n : Nat) : Mem :=
  if b = Mem.unlisted then Mem.zero m lo n else Mem.store m lo (List.replicate n b)

/-- Element `i` of a fixed array. -/
def vget {α : Type} {n : Nat} (v : Vector α n) (i : Fin n) : α := v[i]

/-- A fixed array with element `i` replaced. -/
def vset {α : Type} {n : Nat} (v : Vector α n) (i : Fin n) (a : α) : Vector α n := v.set i a

/-- A fixed array with element `i` changed by `f`. -/
def vmod {α : Type} {n : Nat} (v : Vector α n) (i : Fin n) (f : α → α) : Vector α n := vset v i (f (vget v i))

end Sys2Proof
end

