-- ==== Sys2Proof/Machine/Numbers.lean ====
section
/-! DEFINITION. Machine/Numbers.lean: the number formats of 05 and their arithmetic, computed exactly and rounded
once: FP16, BF16, binary32 and binary64, the block-scaled formats, the weight pair, stochastic rounding and the
Philox generator. -/

namespace Sys2Proof.Machine

/-- A number as the formats of 05 carry it: a NaN, an infinity, or ± m × 2^e (zeros keep their sign). -/
inductive Num where
  | nan
  | inf (neg : Bool)
  | fin (neg : Bool) (m : Nat) (e : Int)
  deriving DecidableEq, Repr

/-- A binary floating-point format: mantissa bits (without the hidden one) and exponent bits. -/
structure FFmt where
  mbits : Nat
  ebits : Nat
  deriving DecidableEq, Repr

/-- FP16 (05 R134). -/
def fp16 : FFmt := ⟨10, 5⟩
/-- BF16 (05 R134). -/
def bf16 : FFmt := ⟨7, 8⟩
/-- IEEE 754 binary32. -/
def b32 : FFmt := ⟨23, 8⟩
/-- IEEE 754 binary64. -/
def b64 : FFmt := ⟨52, 11⟩
/-- FP8 E5M2 as a plain float (05 R138). -/
def e5m2 : FFmt := ⟨2, 5⟩

/-- The exponent bias. -/
def FFmt.bias (f : FFmt) : Nat := 2 ^ (f.ebits - 1) - 1
/-- The all-ones exponent. -/
def FFmt.emax (f : FFmt) : Nat := 2 ^ f.ebits - 1
/-- The canonical NaN (05 R134, R136). -/
def FFmt.qnan (f : FFmt) : Nat := f.emax * 2 ^ f.mbits + 2 ^ (f.mbits - 1)
/-- The bit pattern of an infinity. -/
def FFmt.infBits (f : FFmt) (neg : Bool) : Nat :=
  (if neg then 2 ^ (f.mbits + f.ebits) else 0) + f.emax * 2 ^ f.mbits

/-- The value of a bit pattern (05 R134). -/
def FFmt.decode (f : FFmt) (bits : Nat) : Num :=
  let fr := bits % 2 ^ f.mbits
  let e := bits / 2 ^ f.mbits % 2 ^ f.ebits
  let neg := bits / 2 ^ (f.mbits + f.ebits) % 2 == 1
  if e = f.emax then (if fr = 0 then .inf neg else .nan)
  else if e = 0 then .fin neg fr (1 - (f.bias : Int) - f.mbits)
  else .fin neg (fr + 2 ^ f.mbits) ((e : Int) - f.bias - f.mbits)

/-- m / 2^k rounded to the nearest integer, ties to even (05 R149). -/
def rneShift (m k : Nat) : Nat :=
  let q := m / 2 ^ k
  let r := m % 2 ^ k
  if 2 * r > 2 ^ k then q + 1 else if 2 * r < 2 ^ k then q else if k = 0 then q else q + q % 2

/-- m × 2^s as a natural number, rounded to nearest even where s is negative. -/
def rneScale (m : Nat) (s : Int) : Nat := if 0 ≤ s then m * 2 ^ s.toNat else rneShift m (-s).toNat

/-- The bit pattern nearest to a number, ties to even, overflowing to infinity (05 R150). -/
def FFmt.encode (f : FFmt) (x : Num) : Nat :=
  match x with
  | .nan => f.qnan
  | .inf neg => f.infBits neg
  | .fin neg m e =>
    let sgn := if neg then 2 ^ (f.mbits + f.ebits) else 0
    if m = 0 then sgn
    else
      let top : Int := e + Nat.log2 m
      let q : Int := max (top - f.mbits) (1 - (f.bias : Int) - f.mbits)
      let k := rneScale m (e - q)
      let b := (q + f.mbits + f.bias - 1).toNat * 2 ^ f.mbits + k
      if f.emax * 2 ^ f.mbits ≤ b then f.infBits neg else sgn + b

/-- A number rounded to a format. -/
def FFmt.rnd (f : FFmt) (x : Num) : Num := f.decode (f.encode x)

/-- Negation. -/
def Num.neg : Num → Num
  | .nan => .nan
  | .inf s => .inf (!s)
  | .fin s m e => .fin (!s) m e

/-- Magnitude. -/
def Num.abs : Num → Num
  | .nan => .nan
  | .inf _ => .inf false
  | .fin _ m e => .fin false m e

/-- ± m as an integer. -/
def signed (neg : Bool) (m : Nat) : Int := if neg then -(m : Int) else m

/-- The exact sum. An exact sum of opposite values is +0, a sum of two −0 is −0 (05 R136). -/
def Num.add : Num → Num → Num
  | .nan, _ => .nan
  | _, .nan => .nan
  | .inf a, .inf b => if a = b then .inf a else .nan
  | .inf a, _ => .inf a
  | _, .inf b => .inf b
  | .fin sa ma ea, .fin sb mb eb =>
    let e := min ea eb
    let v := signed sa (ma * 2 ^ (ea - e).toNat) + signed sb (mb * 2 ^ (eb - e).toNat)
    if v = 0 then .fin (sa && sb) 0 0 else .fin (decide (v < 0)) v.natAbs e

/-- The exact product. -/
def Num.mul : Num → Num → Num
  | .nan, _ => .nan
  | _, .nan => .nan
  | .inf a, .inf b => .inf (a != b)
  | .inf a, .fin b m _ => if m = 0 then .nan else .inf (a != b)
  | .fin a m _, .inf b => if m = 0 then .nan else .inf (a != b)
  | .fin sa ma ea, .fin sb mb eb => .fin (sa != sb) (ma * mb) (ea + eb)

/-- The quotient to 130 bits with a sticky bit below them, so that one rounding to any format here is exact. -/
def Num.div : Num → Num → Num
  | .nan, _ => .nan
  | _, .nan => .nan
  | .inf _, .inf _ => .nan
  | .inf a, .fin b _ _ => .inf (a != b)
  | .fin a _ _, .inf b => .fin (a != b) 0 0
  | .fin sa ma ea, .fin sb mb eb =>
    if mb = 0 then (if ma = 0 then .nan else .inf (sa != sb))
    else
      let sh := 130 + Nat.log2 mb
      let n := ma * 2 ^ sh
      .fin (sa != sb) (2 * (n / mb) + (if n % mb = 0 then 0 else 1)) (ea - eb - sh - 1)

/-- The integer square root by bisection from the top bit down. -/
def isqrt (n : Nat) : Nat :=
  (List.range (Nat.log2 n / 2 + 1)).reverse.foldl (fun r i => if (r + 2 ^ i) * (r + 2 ^ i) ≤ n then r + 2 ^ i else r) 0

/-- The square root to at least 130 bits with a sticky bit. -/
def Num.sqrt : Num → Num
  | .nan => .nan
  | .inf neg => if neg then .nan else .inf false
  | .fin neg m e =>
    if m = 0 then .fin neg 0 0
    else if neg then .nan
    else
      let e' : Int := e - (if e % 2 = 0 then 0 else 1) - 260
      let n := m * 2 ^ (e - e').toNat
      let r := isqrt n
      .fin false (2 * r + (if r * r = n then 0 else 1)) (e' / 2 - 1)

/-- a < b; false where either is a NaN. -/
def Num.lt : Num → Num → Bool
  | .nan, _ => false
  | _, .nan => false
  | .inf a, .inf b => a && !b
  | .inf a, _ => a
  | _, .inf b => !b
  | .fin sa ma ea, .fin sb mb eb =>
    let e := min ea eb
    decide (signed sa (ma * 2 ^ (ea - e).toNat) < signed sb (mb * 2 ^ (eb - e).toNat))

/-- Whether a number is a NaN. -/
def Num.isNan : Num → Bool
  | .nan => true
  | _ => false

/-- Whether a number is finite. -/
def Num.isFin : Num → Bool
  | .fin _ _ _ => true
  | _ => false

/-- Whether a number is ±0. -/
def Num.isZero : Num → Bool
  | .fin _ m _ => m == 0
  | _ => false

/-- The number of an integer. -/
def Num.ofInt (i : Int) : Num := .fin (decide (i < 0)) i.natAbs 0

/-- floor(log2 |x|) of a finite non-zero number. -/
def Num.exponent : Num → Int
  | .fin _ m e => e + Nat.log2 m
  | _ => 0

/-- binary32 addition, multiplication, division and square root, each rounded once. -/
def f32add (a b : W32) : W32 := BitVec.ofNat 32 (b32.encode (Num.add (b32.decode a.toNat) (b32.decode b.toNat)))
/-- binary32 subtraction. -/
def f32sub (a b : W32) : W32 :=
  BitVec.ofNat 32 (b32.encode (Num.add (b32.decode a.toNat) (Num.neg (b32.decode b.toNat))))
/-- binary32 multiplication. -/
def f32mul (a b : W32) : W32 := BitVec.ofNat 32 (b32.encode (Num.mul (b32.decode a.toNat) (b32.decode b.toNat)))
/-- binary32 division. -/
def f32div (a b : W32) : W32 := BitVec.ofNat 32 (b32.encode (Num.div (b32.decode a.toNat) (b32.decode b.toNat)))
/-- binary32 square root. -/
def f32sqrt (a : W32) : W32 := BitVec.ofNat 32 (b32.encode (Num.sqrt (b32.decode a.toNat)))
/-- The number that a binary32 pattern is. -/
def f32num (a : W32) : Num := b32.decode a.toNat
/-- A number rounded to binary32. -/
def f32of (x : Num) : W32 := BitVec.ofNat 32 (b32.encode x)
/-- The number that a binary64 pattern is. -/
def f64num (a : W64) : Num := b64.decode a.toNat
/-- A number rounded to binary64. -/
def f64of (x : Num) : W64 := BitVec.ofNat 64 (b64.encode x)
/-- binary64 addition. -/
def f64add (a b : W64) : W64 := f64of (Num.add (f64num a) (f64num b))

/-- The FP16 or BF16 format by its code (05 R132). -/
def fmt16 (code : Nat) : FFmt := if code = 0 then fp16 else bf16

/-- The largest finite pattern of a format with a sign. -/
def FFmt.maxBits (f : FFmt) (neg : Bool) : Nat := f.infBits neg - 1

/-- binary32 to FP16 or BF16 (05 R150), saturating where `sat` says so. -/
def toFmt16 (code : Nat) (sat : Bool) (x : Num) : Nat :=
  let f := fmt16 code
  match x with
  | .nan => f.qnan
  | .inf neg => if sat then f.maxBits neg else f.infBits neg
  | .fin neg _ _ =>
    let b := f.encode x
    if sat && b == f.infBits neg then f.maxBits neg else b

/-- Bits per element of a format code (05 R132). -/
def fmtWidth (code : Nat) : Nat :=
  if code ≤ 1 then 16 else if code ≤ 3 then 8 else if code ≤ 5 then 6 else if code = 6 then 4
  else if code = 7 then 8 else if code = 8 then 4 else 16

/-- Whether a format code is block-scaled (05 R132). -/
def fmtScaled (code : Nat) : Bool := 2 ≤ code && code ≤ 8

/-- Bytes that n packed elements of a format take (05 R139). -/
def rowBytes (code n : Nat) : Nat :=
  if fmtWidth code = 6 then (n + 3) / 4 * 3 else (n * fmtWidth code + 7) / 8

/-- The little-endian number of a list of bytes (00 R15). -/
def leNat : List Byte → Nat
  | [] => 0
  | b :: bs => b.toNat + 256 * leNat bs

/-- The big-endian number of a list of bytes. -/
def beNat (bs : List Byte) : Nat := bs.foldl (fun a b => 256 * a + b.toNat) 0

/-- n bytes of a number, least significant first. -/
def leBytes : Nat → Nat → List Byte
  | 0, _ => []
  | n + 1, v => BitVec.ofNat 8 v :: leBytes n (v / 256)

/-- Element j of a packed row (05 R139). -/
def rowElem (code : Nat) (row : List Byte) (j : Nat) : Nat :=
  let at' (i : Nat) := ((row[i]?).getD 0#8).toNat
  match fmtWidth code with
  | 16 => at' (2 * j) + 256 * at' (2 * j + 1)
  | 8 => at' j
  | 6 =>
    let q := j / 4
    (at' (3 * q) + 256 * at' (3 * q + 1) + 65536 * at' (3 * q + 2)) / 2 ^ (6 * (j % 4)) % 64
  | _ => at' (j / 2) / 2 ^ (4 * (j % 2)) % 16

/-- A mini-float of the block-scaled formats without infinities: sign, exponent and mantissa widths and bias. -/
def miniDecode (ebits mbits : Nat) (bias : Int) (v : Nat) : Num :=
  let m := v % 2 ^ mbits
  let e := v / 2 ^ mbits % 2 ^ ebits
  let neg := v / 2 ^ (mbits + ebits) % 2 == 1
  if e = 0 then .fin neg m (1 - bias - mbits) else .fin neg (m + 2 ^ mbits) ((e : Int) - bias - mbits)

/-- The two's-complement value of an n-bit pattern. -/
def sval (n v : Nat) : Int := if 2 ^ (n - 1) ≤ v then (v : Int) - 2 ^ n else v

/-- The element value of a format code before its scale (05 R138, R140). -/
def elemNum (code v : Nat) : Num :=
  match code with
  | 0 => fp16.decode v
  | 1 => bf16.decode v
  | 2 => if v % 128 = 127 then .nan else miniDecode 4 3 7 v
  | 3 => e5m2.decode v
  | 4 => miniDecode 3 2 3 v
  | 5 => miniDecode 2 3 1 v
  | 6 => miniDecode 2 1 1 v
  | 7 => .fin (decide (sval 8 v < 0)) (sval 8 v).natAbs (-6)
  | _ => .fin (decide (sval 4 v < 0)) (sval 4 v).natAbs (-2)

/-- A number times a power of two, exactly. -/
def Num.scale (x : Num) (k : Int) : Num :=
  match x with
  | .fin s m e => .fin s m (e + k)
  | y => y

/-- A block-scaled element with its scale byte (05 R137, R140). -/
def scaledNum (code v x : Nat) : Num :=
  if !fmtScaled code then elemNum code v else if x = 255 then .nan else Num.scale (elemNum code v) ((x : Int) - 127)

/-- emax of a block-scaled format (05 R138). -/
def fmtEmax (code : Nat) : Int :=
  match code with
  | 2 => 8 | 3 => 15 | 4 => 4 | 5 => 2 | 6 => 2 | _ => 0

/-- The element of a mini-float format nearest to a finite number, ties to even, held to the largest finite element
(05 R141): sign bit, then the rounded magnitude in units of the grid. -/
def miniEncode (ebits mbits : Nat) (bias : Int) (maxMag : Nat) (x : Num) : Nat :=
  match x with
  | .fin neg m e =>
    let sgn := if neg then 2 ^ (mbits + ebits) else 0
    if m = 0 then sgn
    else
      let q : Int := max (e + Nat.log2 m - mbits) (1 - bias - mbits)
      let b := (q + mbits + bias - 1).toNat * 2 ^ mbits + rneScale m (e - q)
      sgn + min b maxMag
  | _ => 0

/-- A finite number as an integer element of n bits with unit 2^u, saturating (05 R141). -/
def intEncode (n : Nat) (u : Int) (x : Num) : Nat :=
  match x with
  | .fin neg m e =>
    let k := min (rneScale m (e - u)) (2 ^ (n - 1) - 1)
    if neg && k != 0 then 2 ^ n - k else k
  | _ => 0

/-- One element of a block-scaled format (05 R141). -/
def elemEncode (code : Nat) (x : Num) : Nat :=
  match code with
  | 2 => miniEncode 4 3 7 0x7E x
  | 3 => miniEncode 5 2 15 0x7B x
  | 4 => miniEncode 3 2 3 0x1F x
  | 5 => miniEncode 2 3 1 0x1F x
  | 6 => miniEncode 2 1 1 0x7 x
  | 7 => intEncode 8 (-6) x
  | _ => intEncode 4 (-2) x

/-- The largest magnitude of a list of finite numbers. -/
def amax (xs : List Num) : Num := xs.foldl (fun a x => if Num.lt a (Num.abs x) then Num.abs x else a) (.fin false 0 0)

/-- Conversion of a block into a block-scaled format: the scale byte and the elements (05 R141). -/
def blockEncode (code : Nat) (xs : List Num) : Nat × List Nat :=
  if xs.any (fun x => !Num.isFin x) then (255, xs.map (fun _ => 0))
  else
    let a := amax xs
    let x : Nat := if Num.isZero a then 0 else (min 254 (max 0 (Num.exponent a - fmtEmax code + 127))).toNat
    (x, xs.map (fun v => elemEncode code (Num.scale v (127 - (x : Int)))))

/-- Elements of one width packed into bytes (05 R139). -/
def packRow (code : Nat) (vs : List Nat) : List Byte :=
  match fmtWidth code with
  | 16 => vs.flatMap (fun v => leBytes 2 v)
  | 8 => vs.map (fun v => BitVec.ofNat 8 v)
  | w => leBytes (rowBytes code vs.length) ((vs.zipIdx).foldl (fun a p => a + p.1 % 2 ^ w * 2 ^ (w * p.2)) 0)

/-! ### The weight pair and the stochastic roundings (05 R147-R153) -/

/-- The exponent of ulp(w) of a BF16 value (05 R147): ulp(w) = 2^(max(e, −126) − 7). -/
def ulpExp (w : Nat) : Int :=
  match bf16.decode w with
  | .fin _ m e => if m = 0 then -133 else max (e + Nat.log2 m) (-126) - 7
  | _ => -133

/-- The value of a weight pair (05 R148). -/
def pairNum (w r : Nat) : Num :=
  Num.add (bf16.decode w) (Num.scale (Num.ofInt (sval 8 r)) (ulpExp w - 8))

/-- A BF16 pattern as a signed place on the line: adding 1 gives the next value towards +∞ (both zeros at 0). -/
def bfIndex (w : Nat) : Int := if 0x8000 ≤ w then -((w - 0x8000 : Nat) : Int) else w

/-- The BF16 pattern at a place on the line. -/
def bfAt (i : Int) : Nat := if i < 0 then 0x8000 + (-i).toNat else i.toNat

/-- The largest BF16 place whose value is not above a finite x of BF16 range. -/
def bfFloor (x : Num) : Int :=
  let i := bfIndex (bf16.encode x)
  if Num.lt x (bf16.decode (bfAt i)) then i - 1 else i

/-- floor(m × 2^k) of a signed number. -/
def floorScale (v : Int) (k : Int) : Int := if 0 ≤ k then v * 2 ^ k.toNat else v / 2 ^ (-k).toNat

/-- floor(x × 2^k) of a finite number. -/
def Num.floorAt (x : Num) (k : Int) : Int :=
  match x with
  | .fin s m e => floorScale (signed s m) (e + k)
  | _ => 0

/-- A zero weight or moment is written as +0 (05 R136, R152). -/
def plusZero (w : Nat) : Nat := if w = 0x8000 then 0 else w

/-- The largest finite BF16 magnitude. -/
def bfMax : Num := bf16.decode 0x7F7F

/-- What an update engine writes for a quantity and whether it clamped: the pattern (and remainder), the clamp flag
and the NaN flag. -/
structure Written where
  w : Nat
  r : Nat
  clamped : Bool
  nanIn : Bool
  deriving DecidableEq, Repr

/-- The nearest BF16 place, ties towards +∞ (05 R151). -/
def bfNearestUp (x : Num) : Int :=
  let a := bfFloor x
  let lo := bf16.decode (bfAt a)
  let hi := bf16.decode (bfAt (a + 1))
  -- x − lo < hi − x goes down; a tie or more goes up
  if a = 0x7F7F then a
  else if Num.lt (Num.add x (Num.neg lo)) (Num.add hi (Num.neg x)) then a else a + 1

/-- The stochastic write of a weight pair (05 R151) with the cases of R152; `aw` and `ar` are the slot-A pair. -/
def writePair (x : Num) (u aw ar : Nat) : Written :=
  match x with
  | .nan => ⟨plusZero aw, ar, true, true⟩
  | .inf neg => ⟨if neg then 0xFF7F else 0x7F7F, 0, true, false⟩
  | .fin neg _ _ =>
    if Num.lt bfMax (Num.abs x) then ⟨if neg then 0xFF7F else 0x7F7F, 0, true, false⟩
    else
      let i := bfNearestUp x
      let w0 := bfAt i
      let g := ulpExp w0 - 8
      let t := Num.floorAt (Num.add x (Num.neg (bf16.decode w0))) (16 - g)
      let r := (t + u) / 65536
      if r = 128 then
        if w0 = 0x7F7F then ⟨w0, 127, false, false⟩
        else
          let w1 := bfAt (i + 1)
          let d := Num.add (Num.add (bf16.decode w0) (Num.scale (Num.ofInt 1) (ulpExp w0 - 1))) (Num.neg (bf16.decode w1))
          let r1 := Num.floorAt d (8 - ulpExp w1)
          ⟨plusZero w1, ((r1 + 256) % 256).toNat, false, false⟩
      else ⟨plusZero w0, ((r + 256) % 256).toNat, false, false⟩

/-- The stochastic write of a moment (05 R152); `am` is the slot-A moment. -/
def writeMoment (x : Num) (u am : Nat) : Written :=
  match x with
  | .nan => ⟨plusZero am, 0, true, true⟩
  | .inf neg => ⟨if neg then 0xFF7F else 0x7F7F, 0, true, false⟩
  | .fin neg _ _ =>
    if Num.lt bfMax (Num.abs x) then ⟨if neg then 0xFF7F else 0x7F7F, 0, true, false⟩
    else
      let a := bfFloor x
      let lo := bf16.decode (bfAt a)
      let step : Int := match Num.add (bf16.decode (bfAt (a + 1))) (Num.neg lo) with
        | .fin _ m e => e + Nat.log2 m
        | _ => 0
      let t := Num.floorAt (Num.add x (Num.neg lo)) (16 - step)
      ⟨plusZero (bfAt (if t + u ≥ 65536 then a + 1 else a)), 0, false, false⟩

/-- One round of Philox4x32 on the counter (05 R153). -/
def philoxRound (k0 k1 c0 c1 c2 c3 : Nat) : Nat × Nat × Nat × Nat :=
  let p0 := 0xD2511F53 * c0
  let p1 := 0xCD9E8D57 * c2
  let hi (p : Nat) := p / 2 ^ 32 % 2 ^ 32
  let lo (p : Nat) := p % 2 ^ 32
  ((hi p1 ^^^ c1) ^^^ k0, lo p1, (hi p0 ^^^ c3) ^^^ k1, lo p0)

/-- n rounds of Philox4x32. -/
def philoxRounds : Nat → Nat → Nat → Nat × Nat × Nat × Nat → Nat × Nat × Nat × Nat
  | 0, _, _, c => c
  | n + 1, k0, k1, c =>
    philoxRounds n ((k0 + 0x9E3779B9) % 2 ^ 32) ((k1 + 0xBB67AE85) % 2 ^ 32) (philoxRound k0 k1 c.1 c.2.1 c.2.2.1 c.2.2.2)

/-- The random integers u_w, u_m1, u_m2 of parameter P in step S under seed J (05 R153). -/
def philox (j p s : Nat) : Nat × Nat × Nat :=
  let c := philoxRounds 10 (j % 2 ^ 32) (j / 2 ^ 32 % 2 ^ 32)
    (p % 2 ^ 32, p / 2 ^ 32 % 2 ^ 32, s % 2 ^ 32, s / 2 ^ 32 % 2 ^ 32)
  (c.1 % 65536, c.1 / 65536, c.2.1 % 65536)

end Sys2Proof.Machine
end

