-- ==== Sys2Proof/Machine/Flags.lean ====
section
/-! DEFINITION. Machine/Flags.lean: the G16 gradient block with its three sticky flags and its raise rule (05
R142-R146, 11 R324-R326), and the status codes that commands and words return. -/

namespace Sys2Proof.Machine

/-- A G16 block: exponent, raise count, the three flags and the 32 mantissas (05 R142, R143). -/
structure G16 where
  exp : Nat
  raises : Nat
  nonfinite : Bool
  sat : Bool
  sovf : Bool
  m : List Int
  deriving DecidableEq, Repr

/-- The header bits of a block (05 R143). -/
def G16.header (g : G16) : W16 :=
  BitVec.ofNat 16 (g.exp * 256 + g.raises * 16 + (if g.nonfinite then 8 else 0) + (if g.sat then 4 else 0)
    + (if g.sovf then 2 else 0))

/-- The 64 mantissa bytes (05 R142). -/
def G16.bytes (g : G16) : List Byte := g.m.flatMap (fun x => leBytes 2 ((x + 65536) % 65536).toNat)

/-- n mantissas from a byte list. -/
def mantissas : Nat → List Byte → List Int
  | 0, _ => []
  | n + 1, bs => sval 16 (leNat (bs.take 2)) :: mantissas n (bs.drop 2)

/-- A block from its header and bytes; a received EXP 0xFF is taken as 0xFE with NONFINITE set (05 R144). -/
def G16.ofBytes (h : W16) (bs : List Byte) : G16 :=
  let v := h.toNat
  let e := v / 256
  ⟨min e 0xFE, v / 16 % 16, v / 8 % 2 == 1 || e == 0xFF, v / 4 % 2 == 1, v / 2 % 2 == 1, mantissas 32 bs⟩

/-- The value of mantissa i (05 R144). -/
def G16.num (g : G16) (i : Nat) : Num :=
  if g.nonfinite then .nan else Num.scale (Num.ofInt (g.m.getD i 0)) ((g.exp : Int) - 142)

/-- An exact integer over 2^k rounded to nearest even, with its sign. -/
def rneInt (s : Int) (k : Nat) : Int := signed (decide (s < 0)) (rneShift s.natAbs k)

/-- A mantissa held to ±32,767. -/
def clampM (x : Int) : Int := max (-32767) (min 32767 x)

/-- Whether every mantissa is in range (11 R325). -/
def inRange (xs : List Int) : Bool := xs.all (fun x => decide (-32767 ≤ x) && decide (x ≤ 32767))

/-- The emit of 32 binary32 values as a fresh block (11 R324, 05 R145). -/
def G16.emit (xs : List Num) : G16 :=
  let fin := xs.filter Num.isFin
  let a := amax fin
  let nf := xs.any (fun x => !Num.isFin x)
  if Num.isZero a then ⟨0, 0, nf, false, false, xs.map (fun _ => 0)⟩
  else
    let e : Nat := (max 0 (min 254 (Num.exponent a + 130))).toNat
    let raw := xs.map (fun x => match x with
      | .fin s m k => signed s (rneScale m (k + 142 - e))
      | _ => 0)
    ⟨e, 0, nf, false, !inRange raw, raw.map clampM⟩

/-- The sum of two blocks with at most one raise (11 R325). -/
def G16.add (a b : G16) : G16 :=
  let e := max a.exp b.exp
  let lo := min a.exp b.exp
  let k := e - lo
  let raises := max a.raises b.raises
  let s := (List.zip a.m b.m).map (fun p => p.1 * 2 ^ (a.exp - lo) + p.2 * 2 ^ (b.exp - lo))
  let m := s.map (fun x => rneInt x k)
  let nf := a.nonfinite || b.nonfinite
  let sat := a.sat || b.sat
  let sovf := a.sovf || b.sovf
  if inRange m then ⟨e, raises, nf, sat, sovf, m⟩
  else if raises = 15 then ⟨e, raises, nf, true, sovf, m.map clampM⟩
  else if e = 0xFE then ⟨e, raises, nf, sat, true, m.map clampM⟩
  else ⟨e + 1, raises + 1, nf, sat, sovf, s.map (fun x => rneInt x (k + 1))⟩

/-- Whether an addition raised the exponent, for RA_RAISES and LINK_RAISES (11 R326). -/
def G16.raised (a b : G16) : Bool := max a.raises b.raises < (G16.add a b).raises

/-- Whether SAT or SOVF is newly set by an addition, for the saturation counters (11 R326). -/
def G16.newlySat (a b : G16) : Bool :=
  let c := G16.add a b
  (c.sat && !(a.sat || b.sat)) || (c.sovf && !(a.sovf || b.sovf))

/-- The zero block with header 0x0000. -/
def G16.zero : G16 := ⟨0, 0, false, false, false, List.replicate 32 0⟩

/-! ### Status codes (17, and the tables of each unit's chapter) -/

/-- OK. -/
def stOk : Nat := 0x0000
/-- A value of a reserved kind (00 R16). -/
def stReserved : Nat := 0x0305
/-- A value below its range. -/
def stBelow : Nat := 0x0303
/-- A value above its range. -/
def stAbove : Nat := 0x0304
/-- An inconsistent descriptor or write. -/
def stInconsistent : Nat := 0x0306
/-- Not in this state. -/
def stWrongState : Nat := 0x0401
/-- Busy. -/
def stBusy : Nat := 0x0402
/-- Accepted and pending. -/
def stPending : Nat := 0x0403
/-- No resource. -/
def stNoResource : Nat := 0x0601
/-- A descriptor out of place. -/
def stDescFormat : Nat := 0x0701
/-- A descriptor out of range. -/
def stDescRange : Nat := 0x0702
/-- A shelf that is not open. -/
def stBankClosed : Nat := 0x0703
/-- A slot access out of order. -/
def stSlotOrder : Nat := 0x0704
/-- An arm is pending already. -/
def stRearmPending : Nat := 0x0705

end Sys2Proof.Machine
end

