-- ==== Sys2Proof/Machine/ColTypes.lean ====
section
/-! DEFINITION. Machine/ColTypes.lean: the state of the colander (03). -/

namespace Sys2Proof.Machine

/-- A colander record (03 R83). -/
structure ColRec where
  kind : Nat
  origin : Nat
  pid : Pid
  a : Nat
  b : Nat
  count : Nat
  cause : Nat
  check : W16
  deriving DecidableEq, Repr

/-- What is in force for one skillet (03 R79, R81, R84, R85): the reason code where it is a hole, its bad physical
columns by griddle, its retired physical banks and its Fmax code. -/
structure SkCol where
  hole : Option Nat := none
  cols : Vector (List Nat) 4 := Vector.replicate 4 []
  banks : List Nat := []
  fmax : Nat := 0
  deriving DecidableEq, Repr

/-- The effective colander: what is in force for each skillet and the logical map (03 R76, R77). -/
structure Effective where
  sk : Vector SkCol 64 := Vector.replicate 64 {}
  map : Vector Pid 56 := Vector.ofFn (fun i => ⟨i.val, by omega⟩)
  deriving DecidableEq, Repr

/-- The colander (03). `due` holds the records written and not yet in force (R89), `isolated` the regions whose supply
is isolated, `shown` what reads return during RECOVERING (R96). -/
structure ColSt where
  base : List ColRec := []
  journal : List ColRec := []
  eff : Effective := {}
  due : List ColRec := []
  isolated : Vector Bool 64 := Vector.replicate 64 false
  shown : Option Effective := none
  sparesLowLevel : Nat := 1
  holeRequest : Nat := 0xFF
  deriving DecidableEq, Repr

end Sys2Proof.Machine
end

