-- ==== Sys2Proof/Machine/DictTypes.lean ====
section
/-! DEFINITION. Machine/DictTypes.lean: the state of the dictionary server (17): sessions with their per-session entries,
addressing, counters, and plans and jobs as they are written and loaded. -/

namespace Sys2Proof.Machine

/-- A Shupo session (17 R506-R510) with the entries held for it (R508). `open_` says that ACCEPT has been sent;
`transcript` is T of R506, `keys` the session keys; `answers` holds the status of each operation of the last executed request, by its place;
`subNext` is the log sequence number from which a subscription goes on. -/
structure Session where
  num : Nat := 0
  key : List Byte := []
  open_ : Bool := false
  cls : Access := .observer
  transcript : List Byte := []
  keys : List Byte := []
  lastSeq : Nat := 0
  answers : List (Nat × Nat) := []
  evSeq : Nat := 0
  subMask : Nat := 0
  subNext : Nat := 0
  journalIndex : Nat := 0
  planOffset : Nat := 0
  jobAddress : Nat := 0
  slotPid : Nat := 0
  slotIndex : Nat := 0
  watchIndex : Nat := 0
  bucketIndex : Nat := 0
  logIndex : Nat := 0
  plogIndex : Nat := 0
  nonce : List Byte := []
  reportDue : Bool := false
  report : Option (List Byte) := none
  updateOffset : Nat := 0
  deriving DecidableEq, Repr

/-- A PANTRY_IMAGE section (17 R513). -/
structure PlanImage where
  arg : Nat
  offset : Nat
  bytes : List Byte
  deriving DecidableEq, Repr

/-- A START_TABLE entry (17 R513). -/
structure StartEntry where
  task : Nat
  logical : Nat
  pc : Nat
  arg : Nat
  deriving DecidableEq, Repr

/-- An evaluation plan of the slice (17 R513). -/
structure EvalPlan where
  num : Nat
  images : List PlanImage
  starts : List StartEntry
  deriving DecidableEq, Repr

/-- A loaded plan (17 R513): its digest, images, start table, the mask of the evaluation slice and its plans. -/
structure Plan where
  digest : List Byte
  images : List PlanImage
  starts : List StartEntry
  slice : Nat
  training : Nat
  evals : List EvalPlan
  deriving DecidableEq, Repr

/-- The dictionary server's own state (17). `command` is a command accepted with 0x0403 that has not ended;
`chainSent` the frame last begun on CHAIN_OUT and `refused` the REFUSE last sent. `planChunks` holds the chunks written
through PLAN_DATA, `planLength` where they end, `planTaken` the bundle that a LOAD_PLAN has taken. -/
structure DictSt where
  sessions : List Session := []
  chain : Session := {}
  framesReceived : Nat := 0
  framesDiscarded : Nat := 0
  handshakesFailed : Nat := 0
  opsRejected : Nat := 0
  chainDiscarded : Nat := 0
  chainFrames : Nat := 0
  nodeId : Nat := 0xFFFF
  chainState : Nat := 0
  chainSent : Option ChainFrame := none
  refused : Option Nat := none
  ipConfig : Vector (List Byte) 2 := Vector.replicate 2 (List.replicate 40 0)
  ipNext : Vector (Option (List Byte)) 2 := Vector.replicate 2 none
  planChunks : Mem := []
  planLength : Nat := 0
  planTaken : List Byte := []
  planCommand : Nat := 0
  planStatus : Nat := 0
  plan : Option Plan := none
  jobSeed : Nat := 0
  jobStart : Nat := 0
  jobWritten : Nat := 0
  deriving DecidableEq, Repr

end Sys2Proof.Machine
end

