-- ==== Sys2Proof/Machine/Events.lean ====
section
/-! DEFINITION. Machine/Events.lean: the events of the manual with their numbers and classes, from the event tables
of R69, R94, R131, R185, R215, R249, R281, R321, R359, R398, R414, R444, R468, R488, R516 and R537, and the physical
locations of R450. The class of STACK_UNCORRECTABLE and PORT_FAILED is CONTAINED or NOTICE; their rules (10 R286,
12 R387) name it where they raise them. -/

namespace Sys2Proof

/-- The events with a fixed number. PLAN_EVENT (0xE300 to 0xE3FF) carries its number in the plan word (08 R249). -/
inductive Ev where
  | passRejected | accCorrected | passRetried | passFault | columnSuspect | pantryCorrected
  | pantryUncorrectable | poisonRead | bankRetireRequest | slotOrderFault | shelfWriteRejected | shelfOffRead
  | ladleArmRejected | ladleFault | ladlePoisonForwarded | ladlePendingDiscarded | ladleLate | meshLinkRetry
  | meshLinkDown | routerParity | mergeMismatch | mergeTableWait | mcastLag | meshClockChanged
  | meshDiscard | routesRebuilt | routeUnreachable | stackCorrected | stackUncorrectable | stackRowRepaired
  | stackRepairExhausted | stackFailed | stackHot | raFault | ueFault | ueClamp
  | bucketOverrun | reduceMismatch | reduceAdderSuspect | reduceAdderFailed | linkAdderRetired | checkStoreFull
  | watchdogStall | watchdogStep | gateSkip | gateHalt | policyDiffers | readyStartRejected
  | linkAdderParity | portUp | portFailed | portHeld | linkRetry | linkDegraded
  | linkLong | bundleDown | cartridgeFailed | cartridgeWear | cartridgeReady | neighbourChanged
  | coordConflict | discoveryDone | routeDropped | portRetired | quietLayer | scaleLowered
  | scaleRaised | scaleAtLimit | nonfiniteObserved | watchUndeclared | capChanged | capUnreachable
  | estimatorDistrusted | estimatorTrusted | recalibrationFailed | droopFrequent | marginLow | regionShort
  | inputLimited | inputPairLost | throttleStart | throttleEnd | regionOffHeat | regionTrip
  | regionRestored | heatIsolation | stackThrottle | coolantMargin | coolantLimited | coolantFailed
  | leakDetected | beatLost | beatRelocked | timeSplit | holdoverLong | beatSkew
  | boundaryLate | boundaryMerged | buddyLate | imageRejected | bankFallback | configRejected
  | updateCommitted | guardDefaults | guardRefused | ownerEnrolled | stewardFault | chainInputLost
  | addressAssigned | sessionRefused | stateChanged | skilletRelocated | columnBypassed | bankRetired
  | sparesLow | colanderExhausted | journalTruncated | fmaxLowered | taskFault | whiskRejected
  | whiskFault | counterOverflow | tapTableFull | rollbackBegin | rollbackDone | stepReverted
  | spareAdopted | rollbackLoop | stateLost | eventsSuppressed
  deriving DecidableEq, Repr

/-- The event number (15 R451), from the event table of each chapter (02 R69, 03 R94, 04 R131, 06 R185, 07 R215, 08 R249,
09 R281, 10 R321, 11 R359, 12 R398, 13 R414, 14 R444, 15 R468, 16 R488, 17 R516, 18 R537). -/
def Ev.code : Ev → Nat
  | .passRejected => 0x1001
  | .accCorrected => 0x1002
  | .passRetried => 0x1003
  | .passFault => 0x1004
  | .columnSuspect => 0x1005
  | .pantryCorrected => 0x2001
  | .pantryUncorrectable => 0x2002
  | .poisonRead => 0x2003
  | .bankRetireRequest => 0x2004
  | .slotOrderFault => 0x2005
  | .shelfWriteRejected => 0x2006
  | .shelfOffRead => 0x2007
  | .ladleArmRejected => 0x3001
  | .ladleFault => 0x3002
  | .ladlePoisonForwarded => 0x3003
  | .ladlePendingDiscarded => 0x3004
  | .ladleLate => 0x3005
  | .meshLinkRetry => 0x4001
  | .meshLinkDown => 0x4002
  | .routerParity => 0x4003
  | .mergeMismatch => 0x4004
  | .mergeTableWait => 0x4005
  | .mcastLag => 0x4006
  | .meshClockChanged => 0x4007
  | .meshDiscard => 0x4008
  | .routesRebuilt => 0x4009
  | .routeUnreachable => 0x400A
  | .stackCorrected => 0x5001
  | .stackUncorrectable => 0x5002
  | .stackRowRepaired => 0x5003
  | .stackRepairExhausted => 0x5004
  | .stackFailed => 0x5005
  | .stackHot => 0x5006
  | .raFault => 0x5007
  | .ueFault => 0x5008
  | .ueClamp => 0x5009
  | .bucketOverrun => 0x6001
  | .reduceMismatch => 0x6002
  | .reduceAdderSuspect => 0x6003
  | .reduceAdderFailed => 0x6004
  | .linkAdderRetired => 0x6005
  | .checkStoreFull => 0x6006
  | .watchdogStall => 0x6007
  | .watchdogStep => 0x6008
  | .gateSkip => 0x6009
  | .gateHalt => 0x600A
  | .policyDiffers => 0x600B
  | .readyStartRejected => 0x600C
  | .linkAdderParity => 0x600D
  | .portUp => 0x7001
  | .portFailed => 0x7002
  | .portHeld => 0x7003
  | .linkRetry => 0x7004
  | .linkDegraded => 0x7005
  | .linkLong => 0x7006
  | .bundleDown => 0x7007
  | .cartridgeFailed => 0x7008
  | .cartridgeWear => 0x7009
  | .cartridgeReady => 0x700A
  | .neighbourChanged => 0x700B
  | .coordConflict => 0x700C
  | .discoveryDone => 0x700D
  | .routeDropped => 0x700E
  | .portRetired => 0x700F
  | .quietLayer => 0x8001
  | .scaleLowered => 0x8002
  | .scaleRaised => 0x8003
  | .scaleAtLimit => 0x8004
  | .nonfiniteObserved => 0x8005
  | .watchUndeclared => 0x8006
  | .capChanged => 0x9001
  | .capUnreachable => 0x9002
  | .estimatorDistrusted => 0x9003
  | .estimatorTrusted => 0x9004
  | .recalibrationFailed => 0x9005
  | .droopFrequent => 0x9006
  | .marginLow => 0x9007
  | .regionShort => 0x9008
  | .inputLimited => 0x9009
  | .inputPairLost => 0x900A
  | .throttleStart => 0xA001
  | .throttleEnd => 0xA002
  | .regionOffHeat => 0xA003
  | .regionTrip => 0xA004
  | .regionRestored => 0xA005
  | .heatIsolation => 0xA006
  | .stackThrottle => 0xA007
  | .coolantMargin => 0xA008
  | .coolantLimited => 0xA009
  | .coolantFailed => 0xA00A
  | .leakDetected => 0xA00B
  | .beatLost => 0xB001
  | .beatRelocked => 0xB002
  | .timeSplit => 0xB003
  | .holdoverLong => 0xB004
  | .beatSkew => 0xB005
  | .boundaryLate => 0xB006
  | .boundaryMerged => 0xB007
  | .buddyLate => 0xB008
  | .imageRejected => 0xC001
  | .bankFallback => 0xC002
  | .configRejected => 0xC003
  | .updateCommitted => 0xC004
  | .guardDefaults => 0xC005
  | .guardRefused => 0xC006
  | .ownerEnrolled => 0xC007
  | .stewardFault => 0xD001
  | .chainInputLost => 0xD002
  | .addressAssigned => 0xD003
  | .sessionRefused => 0xD004
  | .stateChanged => 0xE001
  | .skilletRelocated => 0xE101
  | .columnBypassed => 0xE102
  | .bankRetired => 0xE103
  | .sparesLow => 0xE104
  | .colanderExhausted => 0xE105
  | .journalTruncated => 0xE106
  | .fmaxLowered => 0xE107
  | .taskFault => 0xE201
  | .whiskRejected => 0xE202
  | .whiskFault => 0xE203
  | .counterOverflow => 0xE204
  | .tapTableFull => 0xE205
  | .rollbackBegin => 0xE501
  | .rollbackDone => 0xE502
  | .stepReverted => 0xE503
  | .spareAdopted => 0xE504
  | .rollbackLoop => 0xE505
  | .stateLost => 0xE506
  | .eventsSuppressed => 0xE507

/-- The class that the raising chapter gives the event (15 R446), from the same tables. -/
def Ev.cls : Ev → EvClass
  | .passRejected => .notice
  | .accCorrected => .corrected
  | .passRetried => .corrected
  | .passFault => .contained
  | .columnSuspect => .notice
  | .pantryCorrected => .corrected
  | .pantryUncorrectable => .notice
  | .poisonRead => .contained
  | .bankRetireRequest => .notice
  | .slotOrderFault => .notice
  | .shelfWriteRejected => .notice
  | .shelfOffRead => .contained
  | .ladleArmRejected => .notice
  | .ladleFault => .contained
  | .ladlePoisonForwarded => .notice
  | .ladlePendingDiscarded => .notice
  | .ladleLate => .notice
  | .meshLinkRetry => .corrected
  | .meshLinkDown => .contained
  | .routerParity => .contained
  | .mergeMismatch => .contained
  | .mergeTableWait => .notice
  | .mcastLag => .notice
  | .meshClockChanged => .notice
  | .meshDiscard => .notice
  | .routesRebuilt => .notice
  | .routeUnreachable => .fatal
  | .stackCorrected => .corrected
  | .stackUncorrectable => .contained
  | .stackRowRepaired => .notice
  | .stackRepairExhausted => .fatal
  | .stackFailed => .fatal
  | .stackHot => .notice
  | .raFault => .contained
  | .ueFault => .contained
  | .ueClamp => .notice
  | .bucketOverrun => .contained
  | .reduceMismatch => .contained
  | .reduceAdderSuspect => .notice
  | .reduceAdderFailed => .fatal
  | .linkAdderRetired => .notice
  | .checkStoreFull => .notice
  | .watchdogStall => .contained
  | .watchdogStep => .contained
  | .gateSkip => .notice
  | .gateHalt => .notice
  | .policyDiffers => .notice
  | .readyStartRejected => .contained
  | .linkAdderParity => .contained
  | .portUp => .notice
  | .portFailed => .contained
  | .portHeld => .notice
  | .linkRetry => .corrected
  | .linkDegraded => .notice
  | .linkLong => .notice
  | .bundleDown => .contained
  | .cartridgeFailed => .notice
  | .cartridgeWear => .notice
  | .cartridgeReady => .notice
  | .neighbourChanged => .notice
  | .coordConflict => .notice
  | .discoveryDone => .notice
  | .routeDropped => .notice
  | .portRetired => .notice
  | .quietLayer => .notice
  | .scaleLowered => .notice
  | .scaleRaised => .notice
  | .scaleAtLimit => .notice
  | .nonfiniteObserved => .notice
  | .watchUndeclared => .notice
  | .capChanged => .notice
  | .capUnreachable => .notice
  | .estimatorDistrusted => .notice
  | .estimatorTrusted => .notice
  | .recalibrationFailed => .notice
  | .droopFrequent => .notice
  | .marginLow => .notice
  | .regionShort => .contained
  | .inputLimited => .notice
  | .inputPairLost => .notice
  | .throttleStart => .notice
  | .throttleEnd => .notice
  | .regionOffHeat => .contained
  | .regionTrip => .contained
  | .regionRestored => .notice
  | .heatIsolation => .contained
  | .stackThrottle => .notice
  | .coolantMargin => .notice
  | .coolantLimited => .notice
  | .coolantFailed => .notice
  | .leakDetected => .notice
  | .beatLost => .notice
  | .beatRelocked => .notice
  | .timeSplit => .contained
  | .holdoverLong => .notice
  | .beatSkew => .notice
  | .boundaryLate => .notice
  | .boundaryMerged => .notice
  | .buddyLate => .notice
  | .imageRejected => .notice
  | .bankFallback => .notice
  | .configRejected => .notice
  | .updateCommitted => .notice
  | .guardDefaults => .notice
  | .guardRefused => .notice
  | .ownerEnrolled => .notice
  | .stewardFault => .fatal
  | .chainInputLost => .notice
  | .addressAssigned => .notice
  | .sessionRefused => .notice
  | .stateChanged => .notice
  | .skilletRelocated => .notice
  | .columnBypassed => .corrected
  | .bankRetired => .corrected
  | .sparesLow => .notice
  | .colanderExhausted => .fatal
  | .journalTruncated => .notice
  | .fmaxLowered => .notice
  | .taskFault => .contained
  | .whiskRejected => .notice
  | .whiskFault => .contained
  | .counterOverflow => .notice
  | .tapTableFull => .notice
  | .rollbackBegin => .notice
  | .rollbackDone => .notice
  | .stepReverted => .notice
  | .spareAdopted => .notice
  | .rollbackLoop => .notice
  | .stateLost => .notice
  | .eventsSuppressed => .notice

/-- PLOC of a level-1 location: the module (R450). -/
def plocMod : Nat := 1 * 2 ^ 14 + 127 * 2 ^ 7

/-- PLOC of a laser bay. -/
def plocBay (bay : Nat) : Nat := 1 * 2 ^ 14 + 127 * 2 ^ 7 + (0x40 + bay)

/-- PLOC of a block: a skillet 0-63, a rim strip 64-67 or the steward 68. -/
def plocBlock (block : Nat) : Nat := 2 * 2 ^ 14 + block * 2 ^ 7

/-- PLOC of a unit of a block. -/
def plocUnit (block unit : Nat) : Nat := 3 * 2 ^ 14 + block * 2 ^ 7 + unit

/-- PLOC of a unit of a rim strip by the module-wide number of R4: `base` is the first unit code of its kind. -/
def plocRim (sl : Slice) (base : Nat) : Nat := plocUnit (64 + sl.val / 8) (base + sl.val % 8)

end Sys2Proof
end

