-- ==== Sys2Proof/Machine/SkilletTypes.lean ====
section
/-! DEFINITION. Machine/SkilletTypes.lean: the state of the pantry (06), the sequencer and the whisk (08) and the
watch taps (08 R245, 13 R404) of one skillet. -/

namespace Sys2Proof.Machine

/-- STATE of a slot (06 R166), in the order of its codes. -/
inductive SlotState where
  | empty | filling | full | draining
  deriving DecidableEq, Repr

/-- A slot descriptor (06 R165, R166): D0 and D1. WAITERS is computed from the units that wait. `emitFill` says that an
emit with FIN = 0 has entered it since it was last EMPTY (04 R121). -/
structure Slot where
  base : Nat := 0
  length : Nat := 0
  producers : Nat := 0
  consumers : Nat := 0
  gen : Nat := 0
  produced : Nat := 0
  released : Nat := 0
  st : SlotState := .empty
  emitFill : Bool := false
  deriving DecidableEq, Repr

/-- The state of a shelf (06 R176), in the order of its codes. -/
inductive ShelfState where
  | off | waking | opened | closing
  deriving DecidableEq, Repr

/-- A shelf: its state and whether a write has been rejected since its close (06 R178). -/
structure Shelf where
  st : ShelfState := .opened
  rejected : Bool := false
  deriving DecidableEq, Repr

/-- Who issued a word: the task, its incarnation (an END or HALT_ALL ends one), the completion counter of CEN and
CNT, and SOFT (08 R222, R226, R231). -/
structure Issuer where
  task : Fin 16
  inc : Nat
  cen : Bool
  cnt : Fin 8
  soft : Bool
  deriving DecidableEq, Repr

/-- An operand word (04 R115); `rel` and `fin` are the same bit, named by the operand's role, and `raw` is the word. -/
structure Operand where
  chk : Bool := false
  rel : Bool := false
  fin : Bool := false
  slot : Nat := 0
  addr : Nat := 0
  stride : Nat := 0
  rsv : Bool := false
  raw : Nat := 0
  deriving DecidableEq, Repr

/-- An accepted memory operation (06 R161, R162). -/
structure MemOp where
  copy : Bool
  length : Nat
  pattern : Nat
  src : Operand
  dst : Operand
  issuer : Issuer
  deriving DecidableEq, Repr

/-- The pantry of a skillet (06). `conflict` and `accesses` are per master in the order of R184. `bankCe` holds the
corrected errors of the current window by physical bank, `corrupt` the granules whose single-bit error waits for its
write-back, `poison` the poisoned granules (address / 8). -/
structure Pantry where
  mem : Mem := []
  poison : List Nat := []
  corrupt : List Nat := []
  errors : List (Nat × Bool) := []
  slots : Tab Slot := []
  shelves : Vector Shelf 15 := Vector.replicate 15 {}
  conflict : Vector Nat 15 := Vector.replicate 15 0
  accesses : Vector Nat 15 := Vector.replicate 15 0
  rotatorSplits : Nat := 0
  rmw : Nat := 0
  ceCorrected : Nat := 0
  ueDetected : Nat := 0
  poisonReads : Nat := 0
  scrubPasses : Nat := 0
  slotOrder : Nat := 0
  writesRejected : Nat := 0
  memops : Nat := 0
  bankCe : Tab Nat := []
  scrubForced : List Nat := []
  asked : List Nat := []
  memopQueue : List MemOp := []
  deriving DecidableEq, Repr

/-- STATE of a task (08 R217), in the order of its codes. -/
inductive TaskState where
  | free | ready | running | waiting | faulted
  deriving DecidableEq, Repr

/-- An open loop (08 R231): the remaining count, the PC of the word after FOR and END. -/
structure Loop where
  count : Nat
  body : Nat
  last : Nat
  deriving DecidableEq, Repr

/-- A task (08 R216, R247). `pc` counts 16-byte units. `inc` tells its incarnations apart and is the model's own.
`target` is the COUNT and FRAC that a TIMEAT awaits, if one has begun to wait; `word` the word that it waits on or presents
again, 0 for none; `met`: the wait has been satisfied at its counter and the task has yet to see it (R217, R227). -/
structure Task where
  pc : Nat := 0
  tr : Vector W64 8 := Vector.replicate 8 0
  cc : Vector Nat 8 := Vector.replicate 8 0
  loops : List Loop := []
  status : Nat := 0
  st : TaskState := .free
  waitKind : Nat := 0
  cause : Nat := 0
  inc : Nat := 0
  target : Option (Nat × Nat) := none
  word : Nat := 0
  met : Bool := false
  deriving DecidableEq, Repr

/-- The sequencer of a skillet (08 R216, R246). `last` is the task that ran last (R218); `hold` the shelf command that
holds the running task: the shelf and whether it opens (08 R223, 06 R177); `halting`: HALT_ALL stops that task when the
command is accepted (R219). -/
structure Seq where
  tasks : Vector Task 16 := Vector.replicate 16 {}
  sg : Vector Nat 64 := Vector.replicate 64 0
  current : Option (Fin 16) := none
  last : Fin 16 := 15
  hold : Option (Nat × Bool) := none
  halting : Bool := false
  words : Nat := 0
  switches : Nat := 0
  idleCycles : Nat := 0
  sliceExpired : Nat := 0
  rejects : Nat := 0
  timeatLate : Nat := 0
  signalsSent : Nat := 0
  signalsReceived : Nat := 0
  counterOverflows : Nat := 0
  deriving DecidableEq, Repr

/-- A whisk descriptor (08 R234, R235). -/
structure WhiskDesc where
  op : Nat
  inFmt : Nat
  outFmt : Nat
  sat : Bool
  tapEn : Bool
  tap : Nat
  cols : Nat
  rows : Nat
  p0 : W32
  p1 : W32
  p2 : W32
  p3 : W32
  inScale : Nat
  outScale : Nat
  w2rsv : Nat
  a : Operand
  b : Operand
  c : Operand
  d : Operand
  e : Operand
  deriving DecidableEq, Repr

/-- A queued or running whisk operation: where its descriptor was, the descriptor copied at acceptance, its issuer,
and once it runs the bytes it will write (address, bytes), the taps and the loss it will add, and whether an operand
came back poisoned. -/
structure WhiskOp where
  addr : Nat
  desc : WhiskDesc
  issuer : Issuer
  outs : List (Nat × List Byte) := []
  taps : List (Nat × Nat) := []
  losses : List W32 := []
  fault : Nat := 0
  deriving DecidableEq, Repr

/-- The whisk of a skillet (08 R232, R239, R248). -/
structure Whisk where
  queue : List WhiskOp := []
  running : Option WhiskOp := none
  lastStatus : Nat := 0
  cause : Nat := 0
  halted : Bool := false
  ops : Nat := 0
  elements : Nat := 0
  stallInput : Nat := 0
  stallOutput : Nat := 0
  opsRejected : Nat := 0
  tapDropped : Nat := 0
  lossSum : W64 := 0
  lossTokens : Nat := 0
  lossNonfinite : Bool := false
  deriving DecidableEq, Repr

/-- A tap bank (08 R245): the watch points named since it was put in force, in the order in which taps first named them,
each with its 64 counters by bin. `left` holds the counters of the bank's entries from before, which nothing has zeroed; of
them those of entries that no point has taken yet still stand. -/
structure TapBank where
  points : List (Nat × Tab Nat) := []
  left : List (Tab Nat) := []
  fullRaised : Bool := false
  deriving DecidableEq, Repr

/-- The tap table of a skillet (08 R245, 13 R404): the bank in force, the idle one, the number of the bank in force and
TAP_SELECT. -/
structure Taps where
  active : TapBank := {}
  idle : TapBank := {}
  bank : Nat := 0
  select : Nat := 0
  deriving DecidableEq, Repr

end Sys2Proof.Machine
end

