-- ==== Sys2Proof/Machine/LadleTypes.lean ====
section
/-! DEFINITION. Machine/LadleTypes.lean: the state of a ladle (07) and of the mesh and the cobalt network (09). -/

namespace Sys2Proof.Machine

/-- The state of a ladle (07 R205), in the order of its codes. -/
inductive LadleState where
  | idle | active | tail | stopping | halted
  deriving DecidableEq, Repr

/-- An endpoint space (07 R194), in the order of its codes; the codes 0b110 and 0b111 are reserved. -/
inductive Space where
  | pantry | stack | rimBuffer | remote | multicast | stage
  deriving DecidableEq, Repr

/-- A block record of a list (07 R191-R193). Addresses and pitches count 64-byte units. -/
structure Block where
  srcSpace : Space
  dstSpace : Space
  target : Nat
  rows : Nat
  rowUnits : Nat
  srcStride : Nat
  dstStride : Nat
  tapEn : Bool
  tapFmt : Nat
  tap : Nat
  srcChk : Bool
  rel : Bool
  srcSlot : Nat
  srcAddr : Nat
  dstChk : Bool
  fin : Bool
  dstSlot : Nat
  dstAddr : Nat
  deriving DecidableEq, Repr

/-- A list header (07 R189, R190). -/
structure ListHead where
  cls : TClass
  deep : Bool
  depth : Nat
  count : Nat
  linkEn : Bool
  mcast : Bool
  link : Nat
  mask : Nat
  listId : Nat
  deriving DecidableEq, Repr

/-- A block that has begun (07 R197): its serial number in the stream, its list and place, its record, the next portion
(row and byte offset in the row), whether all its portions are issued and how many of them are outstanding. -/
structure BlockRun where
  serial : Nat
  listPos : Nat
  index : Nat
  head : ListHead
  block : Block
  row : Nat := 0
  off : Nat := 0
  issuedAll : Bool := false
  inFlight : Nat := 0
  deriving DecidableEq, Repr

/-- A portion in flight (07 R196, R197, R203). `tag` is its serial number in the ladle (the model's own) and `serial`
its block's; `dataLeft` counts the source bytes still to arrive, `data` holds those that have by their offset,
`listId` and `block` name its list and block in events, `sent` says that its flits have left for a remote destination, `acks` the flits that each receiver (a PID) has still
to acknowledge, `doneLeft` the memory writes still to be answered, `poison` the poisoned granules by offset. -/
structure Portion where
  tag : Nat
  serial : Nat
  cls : TClass
  deep : Bool
  mem : Bool
  space : Space
  len : Nat
  dstAddr : Nat
  dstChk : Bool
  dstSlot : Nat
  fin : Bool
  receivers : List Pid
  tap : Option (Nat × Nat)
  dataLeft : Nat := 0
  data : Tab (List Byte) := []
  sent : Bool := false
  acks : Tab Nat := []
  doneLeft : Nat := 0
  listId : Nat := 0
  block : Nat := 0
  status : Nat := 0
  poison : List Nat := []
  deriving DecidableEq, Repr

/-- A ladle (07 R205, R214). `chain` holds the addresses of the chain's lists and `loopTo` the position a LINK
closes to; `head` is the header of the list now running and `list` its blocks once the ladle has read it (R200); `pending`
is a pending arm with its issuer; `serial` and `tags` number blocks and portions and are the model's own; `emptyFins` counts
the answers owed to the FINs of blocks without data, by tag; `fault` is a fault that has been met and waits for the
LADLE_FAULT row, `faultAt` the LIST_ID and the block that met it. -/
structure Ladle where
  st : LadleState := .idle
  cause : Nat := 0
  lastStatus : Nat := 0
  chain : List Nat := []
  loopTo : Option Nat := none
  listPos : Nat := 0
  blockIx : Nat := 0
  head : Option ListHead := none
  list : Option (List Block) := none
  allStarted : Bool := false
  issuer : Option Issuer := none
  pending : Option (Nat × Issuer) := none
  stopIssuers : List Issuer := []
  blocks : List BlockRun := []
  portions : List Portion := []
  serial : Nat := 0
  tags : Nat := 0
  emptyFins : Tab Nat := []
  fault : Nat := 0
  faultAt : Option (Nat × Nat) := none
  lateRaised : Bool := false
  poisonRaised : Bool := false
  lagRaised : Bool := false
  portionsDone : Nat := 0
  bytes : Nat := 0
  stallTags : Nat := 0
  stallSlot : Nat := 0
  stallCredit : Nat := 0
  latMax : Nat := 0
  latePortions : Nat := 0
  lateLimit : Nat := 4096
  armsRejected : Nat := 0
  pendingDiscarded : Nat := 0
  deriving DecidableEq, Repr

/-- A flit in a router with the input it came by: 0-3 north, east, south, west, 4 local, or the attachment link of a
crossbar; 8 and above a rim unit. -/
structure QFlit where
  inp : Nat
  flit : Flit
  deriving DecidableEq, Repr

/-- An open entry of a merge table (09 R261): the addresses of the flit positions already written are `marked`. -/
structure MergeEntry where
  sumTag : Nat
  fanin : Nat
  positions : Nat
  fin : Bool
  bf16 : Bool
  slot : Nat
  chk : Bool
  total : Nat
  marked : List Nat
  deriving DecidableEq, Repr

/-- A router of a skillet or a rim crossbar with its mesh port and its register block (09 R255, R261, R265, R280).
`linkDown` and `cobaltDown` have bits 3-0 north, east, south and west; `tables` are the two banks, dimension-ordered where
they list nothing. -/
structure Router where
  linkDown : BitVec 4 := 0
  cobaltDown : BitVec 4 := 0
  faulty : Bool := false
  cobaltFaulty : Bool := false
  tables : Vector (Tab (Nat × Nat)) 2 := Vector.replicate 2 []
  landing : Vector (List Flit) 4 := Vector.replicate 4 []
  merge : List MergeEntry := []
  reorder : List Flit := []
  flitsOut : Vector Nat 4 := Vector.replicate 4 0
  flitsLanded : Vector Nat 4 := Vector.replicate 4 0
  merges : Nat := 0
  landingAdds : Nat := 0
  mergeWait : Nat := 0
  slackFull : Nat := 0
  linkRetries : Nat := 0
  discarded : Nat := 0
  mcastLagLimit : Nat := 4096
  seamFull : Nat := 0
  cobaltSent : Nat := 0
  cobaltReceived : Nat := 0
  cobaltDiscarded : Nat := 0
  lag : Tab Nat := []
  retryWindow : Tab Nat := []
  mergeWaitStep : Option Nat := none
  discardRaised : Bool := false
  deriving DecidableEq, Repr

/-- The mesh and the cobalt network of the module (09 R268, R270, R271, R275-R278). `outQ` and `slack` are keyed by
16 × node + output, `rimLanding` by port. Under an output of its own a node queues what its units inject (09 R252), and under
others the flits in a seam's elastic buffer (R267). `credit` counts the MERGE flits that a contributor has sent to a port in
ordered mode and that wait there (R264), by 64 × source + port. `cobalt` holds the messages in flight in the order they were
sent. -/
structure MeshSt where
  epoch : Nat := 0
  hold : Bool := false
  ordered : Bool := false
  bank : Nat := 0
  banksWritten : Bool := false
  westHalf : Bool := false
  eastHalf : Bool := false
  routers : Vector Router 68 := Vector.replicate 68 {}
  outQ : Tab (List QFlit) := []
  slack : Tab (List QFlit) := []
  rimLanding : Tab (List Flit) := []
  credit : Tab Nat := []
  cobalt : List CobaltMsg := []
  deriving DecidableEq, Repr

end Sys2Proof.Machine
end

