-- ==== Sys2Proof/Machine/GriddleTypes.lean ====
section
/-! DEFINITION. Machine/GriddleTypes.lean: the state of a griddle (04) and of the rest of a skillet. -/

namespace Sys2Proof.Machine

/-- LOAD of a pass (04 R102, R113). -/
inductive LoadMode where
  | reuse | native | transposed | reservedLoad
  deriving DecidableEq, Repr

/-- INIT of a pass (04 R107, R113). -/
inductive InitMode where
  | zero | continue_ | source | reservedInit
  deriving DecidableEq, Repr

/-- ORDER of an emit (04 R108, R113). -/
inductive EmitOrder where
  | row | column | both | reservedOrder
  deriving DecidableEq, Repr

/-- DEST of an emit (04 R109, R113). -/
inductive EmitDest where
  | pantry | merge | rim | reservedDest
  deriving DecidableEq, Repr

/-- A pass descriptor (04 R112-R117). `rsv` says that a reserved field is not zero, `w3`, `w7` are the words whole. -/
structure PassDesc where
  aFmt : Nat
  wFmt : Nat
  oFmt : Nat
  load : LoadMode
  init : InitMode
  emit : Bool
  order : EmitOrder
  dest : EmitDest
  hold : Bool
  noRetry : Bool
  tapEn : Bool
  gbWrite : Bool
  rsv : Bool
  n : Nat
  k : Nat
  m : Nat
  tap : Nat
  accBase : Nat
  w2 : Operand
  wScale : Nat
  aScale : Nat
  w4 : Operand
  w5 : Operand
  w6 : Operand
  sumTag : Nat
  target : Nat
  fanin : Nat
  blockBase : Nat
  deriving DecidableEq, Repr

/-- A stationary tile (04 R102): its format, shape and orientation and the values of row k, column n. -/
structure Tile where
  wFmt : Nat
  k : Nat
  n : Nat
  transposed : Bool
  vals : List (List Num)
  deriving DecidableEq, Repr

/-- An accepted pass: its descriptor, its issuer, a serial number (the model's own), whether its completion has been
posted already (a retried chain posts none twice), whether it belongs to a retry, and for the first pass of a retried chain
the tile that it reused, which is loaded afresh (R128). -/
structure Pass where
  desc : PassDesc
  issuer : Issuer
  id : Nat
  posted : Bool := false
  retry : Bool := false
  tile : Option Tile := none
  deriving DecidableEq, Repr

/-- The state of a pass that has left the queue (04 R122). -/
inductive PassState where
  | issue | drain | emit
  deriving DecidableEq, Repr

/-- A pass in the array. `chain` names its window and `fault` a cause of R127 that it has met and that waits for the
GRIDDLE_FAULT row. -/
structure ActivePass where
  pass : Pass
  st : PassState
  chain : Nat
  fault : Nat := 0
  deriving DecidableEq, Repr

/-- An accumulator window and its chain (04 R106, R107, R128): the passes of the chain in order with their
descriptors, the binary32 values, whether its last pass has begun (closing), whether the chain is a retry, and the tile in
front when the chain began. -/
structure Win where
  id : Nat
  base : Nat
  rows : Nat
  m : Nat
  n : Nat
  aFmt : Nat
  wFmt : Nat
  oFmt : Nat
  passes : List Pass
  vals : List (List W32)
  closing : Bool := false
  retry : Bool := false
  tile : Option Tile := none
  deriving DecidableEq, Repr

/-- A griddle (04). `back` is the tile in the back registers with the serial of the pass it is for; `retryQueue` the
passes of a chain that is being retried, ahead of the queue; `saved` the front tile that the passes behind a retried chain
reuse; `loadFault` a fault that a load has met; `rejected` that an emitted flit came back with a rejection. -/
structure Griddle where
  queue : List Pass := []
  retryQueue : List Pass := []
  active : List ActivePass := []
  front : Option Tile := none
  back : Option (Nat × Tile) := none
  saved : Option Tile := none
  loadFault : Option (Nat × Nat) := none
  rejected : Bool := false
  windows : List Win := []
  halted : Bool := false
  flushers : List Issuer := []
  flushPending : Bool := false
  serial : Nat := 0
  lastStatus : Nat := 0
  passes : Nat := 0
  rowsIssued : Nat := 0
  stallInput : Nat := 0
  stallLoad : Nat := 0
  stallOutput : Nat := 0
  skipped : Nat := 0
  retries : Nat := 0
  accCorrected : Nat := 0
  passesRejected : Nat := 0
  colFaults : Tab Nat := []
  deriving DecidableEq, Repr

/-- A skillet: its four griddles, whisk, pantry, eight ladles, sequencer and taps, and whether its compute domain is
powered (14). -/
structure Skillet where
  pantry : Pantry := {}
  seq : Seq := {}
  whisk : Whisk := {}
  taps : Taps := {}
  ladles : Vector Ladle 8 := Vector.replicate 8 {}
  griddles : Vector Griddle 4 := Vector.replicate 4 {}
  computeOn : Bool := false
  deriving DecidableEq, Repr

end Sys2Proof.Machine
end

