-- ==== Sys2Proof/Machine/JobTypes.lean ====
section
/-! DEFINITION. Machine/JobTypes.lean: the commit record (10 R315). -/

namespace Sys2Proof.Machine

/-- The commit record (10 R315): the step counter, whether a job is loaded and the slot pointer. -/
structure Commit where
  step : Nat := 0
  loaded : Bool := false
  ptr : Nat := 0
  deriving DecidableEq, Repr

/-- An entry of the region table (10 R291); `base` and `size` count 128 KiB. -/
structure Region where
  kind : Nat
  gran : Nat
  base : Nat
  size : Nat
  stripes : Nat
  deriving DecidableEq, Repr

/-- A pantry window of the guard tables (16 R481); base and length count 64 bytes. -/
structure PantryWindow where
  base : Nat
  length : Nat
  readOk : Bool
  writeOk : Bool
  deriving DecidableEq, Repr

/-- The guard tables (16 R481) at their defaults: no session keys, no index rights, admission ANY (no list), one pantry
window over everything, a staging window of 1 GiB at 0. -/
structure Guard where
  keys : List (List Byte × Access) := []
  rights : List (Nat × Nat × Access) := []
  admission : Option (List (List Byte)) := none
  windows : List PantryWindow := [⟨0, 0x780000, true, true⟩]
  stageBase : Nat := 0
  stageSize : Nat := 2 ^ 30
  locked : Bool := false
  fromImage : Bool := false
  refusals : Nat := 0
  refusedWindow : Option Nat := none
  deriving DecidableEq, Repr

/-- The lifecycle (17 R498-R500, R511): state, the count at its entry, the status of the last command, the last command
a command held until its moment, and whether a RESET waits for its 100 ms. -/
structure LifeSt where
  st : Life := .off
  since : Nat := 0
  commandStatus : Nat := 0
  lastCommand : Nat := 0
  held : Option Nat := none
  resetDue : Bool := false
  deriving DecidableEq, Repr

end Sys2Proof.Machine
end

