-- ==== Sys2Proof/Machine/LinkTypes.lean ====
section
/-! DEFINITION. Machine/LinkTypes.lean: the state of the Liale ports, the laser bays and the torus (12). -/

namespace Sys2Proof.Machine

/-- The state of a port (12 R381), in the order of its codes. -/
inductive PortState where
  | disabled | down | training | verify | held | standby | inService | draining | failed
  deriving DecidableEq, Repr

/-- A frame kept for replay (12 R370): its SEQ, its content and how often it has been sent. -/
structure Kept where
  seq : Nat
  content : Content
  sent : Nat
  deriving DecidableEq, Repr

/-- A lane (12 R369, R370): the SEQ of its next frame, the SEQ it expects, its replay buffer, whether a NAK of the peer
waits to be acted on, and whether a NAK of its own is due. -/
structure Lane where
  next : Nat := 0
  expect : Nat := 0
  replay : List Kept := []
  nakGot : Bool := false
  nakDue : Bool := false
  deriving DecidableEq, Repr

/-- A port (12 R381, R396). `credits`, `taken` and `freed` are by class (vermilion, ash, control): what may be sent, the
CREDIT last taken and the frames freed since training. `landing` is the landing store, `tx` the frames that wait for a
credit or a lane. `peerExpects` is the coordinate that the peer's CLAIM expects here; `prepared` that the port leaves for
a cartridge; `fails` the ticks of its failures. -/
structure Port where
  st : PortState := .disabled
  heldReason : Nat := 0
  enable : Bool := true
  prepared : Bool := false
  peerPort : Option Nat := none
  peerCoord : Option Nat := none
  peerExpects : Option Nat := none
  hello : List Byte := []
  long : Bool := false
  degraded : Bool := false
  rtt : Nat := 0
  ber : Tab W32 := []
  lanes : Tab Lane := []
  credits : Vector Nat 3 := Vector.replicate 3 0
  taken : Vector Nat 3 := Vector.replicate 3 0
  freed : Vector Nat 3 := Vector.replicate 3 0
  landing : List Content := []
  tx : List Content := []
  joinSent : Bool := false
  joinGot : Bool := false
  lastSent : Bool := false
  lastGot : Bool := false
  fails : List Nat := []
  retryWindow : Option Nat := none
  degradedWindow : Option Nat := none
  framesSent : Nat := 0
  framesAccepted : Nat := 0
  retries : Nat := 0
  naksSent : Nat := 0
  crcErrors : Nat := 0
  fecCorrected : Nat := 0
  fecUncorrectable : Nat := 0
  creditStall : Nat := 0
  windowStall : Nat := 0
  linkAdds : Nat := 0
  linkRaises : Nat := 0
  forwarded : Nat := 0
  framesDiscarded : Nat := 0
  failures : Nat := 0
  routeDropped : Nat := 0
  deriving DecidableEq, Repr

/-- The state of a bay (12 R397), in the order of its codes. -/
inductive BayState where
  | empty | warming | lit | prepared | failed
  deriving DecidableEq, Repr

/-- A laser bay (12 R389, R397, 17 R511). -/
structure Bay where
  st : BayState := .empty
  wear : Nat := 0
  prepare : Bool := false
  serial : List Byte := []
  deriving DecidableEq, Repr

/-- The torus (12 R390-R393): settings, coordinate, discovery and the identity last seen on each bundle. `coordConflict`
says that a CLAIM has expected another coordinate. -/
structure TorusSt where
  x : Nat := 1
  y : Nat := 1
  double : Bool := false
  clusterId : Nat := 0
  origin : Bool := false
  coord : Nat := 0xFFFF
  discovered : Bool := false
  conflict : Bool := false
  identity : Vector (List Byte) 4 := Vector.replicate 4 []
  berWarn : W32 := 0x3727C5AC#32
  dropStep : Option Nat := none
  deriving DecidableEq, Repr

/-- The links of the module (12). -/
structure LinkSt where
  ports : Vector Port 32 := Vector.replicate 32 {}
  bays : Vector Bay 16 := Vector.replicate 16 {}
  torus : TorusSt := {}
  deriving DecidableEq, Repr

end Sys2Proof.Machine
end

