-- ==== Sys2Proof/Machine/PowerTypes.lean ====
section
/-! DEFINITION. Machine/PowerTypes.lean: the state of power and heat (14), of the busbar input and the coolant (18) and of
the flash and the boot chain (16). -/

namespace Sys2Proof.Machine

/-- The trust in an estimator (14 R429, R431): windows in a row that disagree or agree, failed attempts at recalibration,
and windows since the present attempt began. `period` is the last window that was judged. -/
structure Trust where
  distrusted : Bool := false
  disagreeRun : Nat := 0
  agreeRun : Nat := 0
  attempts : Nat := 0
  windows : Nat := 0
  period : Option Nat := none
  deriving DecidableEq, Repr

/-- DOMAIN of a region (14 R443), in the order of its codes. -/
inductive Domain where
  | on | offHeat | tripped | off | isolated
  deriving DecidableEq, Repr

/-- A skillet's monitor (14 R418-R437, R443). `ramp` is the level that a voltage ramp leads to, `lastRaise` the tick of the
last raise, `estimates` those of the last 64 µs, newest last; `forced` the level in measured mode; `droopRun` and
`droopFree` the windows in a row with and without droop; `offAt` the tick of a switch-off or trip; `throttled` that
THROTTLE_START has been raised; `coeffs` the coefficients loaded with POWER COEFF, by counter. -/
structure Mon where
  temp : Nat := 0
  level : Nat := 0
  thermal : Nat := 23
  limit : Nat := 21
  margin : Nat := 23
  droop : Nat := 23
  budgetLevel : Nat := 0
  domain : Domain := .off
  stretching : Bool := false
  budget : Nat := 0
  estimateLast : Nat := 0
  estimateAvg : Nat := 0
  measured : Nat := 0
  budgetExceeded : Nat := 0
  levelChanges : Nat := 0
  droopEvents : Nat := 0
  droopCycles : Nat := 0
  fmaxMeasured : Nat := 0
  disagreeWindows : Nat := 0
  heatOffs : Nat := 0
  trips : Nat := 0
  trust : Trust := {}
  forced : Option Nat := none
  ramp : Option Nat := none
  lastRaise : Option Nat := none
  estimates : List Nat := []
  droopRun : Nat := 0
  droopFree : Nat := 0
  droopPeriod : Option Nat := none
  measuredPeriod : Option Nat := none
  offAt : Nat := 0
  throttled : Bool := false
  coeffs : Tab W16 := []
  deriving DecidableEq, Repr

/-- The power controller (14 R423-R439, R445). Powers are in mW unless a name says otherwise; caps are in 0.1 kW. `baseEff`
is the base cap in effect; `totals` the total estimates of the last sixteen periods, newest first, from which the 1.0 ms
average is formed; `poolCut` the reduction of R439 in percent of the cap; `hotSeen` that a running skillet was at or above
THROTTLE_TEMP since the last thermal up period; `meshCool` the tick since which every sensor of a mesh half has read at
most 95 °C, west then east; the periods are those last begun. -/
structure PowerSt where
  mons : Vector Mon 64 := Vector.replicate 64 {}
  baseCap : Nat := 270
  baseEff : Nat := 270
  cap : Nat := 270
  capSource : Nat := 0xFF
  maxPoint : Nat := 6
  average : Nat := 0
  totals : List Nat := []
  measured : Nat := 0
  rim : Nat := 0
  pool : Nat := 0
  budgets : Vector Nat 64 := Vector.replicate 64 0
  trust : Trust := {}
  floorPeriods : Nat := 0
  profiles : Vector Nat 16 := Vector.replicate 16 270
  recalibrations : Nat := 0
  throttleTemp : Nat := 95
  throttleNext : Nat := 95
  restoreLimit : Nat := 30000000
  rimTemps : Vector Nat 4 := Vector.replicate 4 0
  tripsTotal : Nat := 0
  heatOffTotal : Nat := 0
  unreachable : Bool := false
  poolCut : Nat := 0
  throttleEpisode : Bool := false
  upPeriods : Nat := 0
  hotSeen : Bool := false
  meshCool : Vector (Option Nat) 2 := Vector.replicate 2 none
  modulePeriod : Option Nat := none
  downPeriod : Option Nat := none
  upPeriod : Option Nat := none
  cutPeriod : Option Nat := none
  deriving DecidableEq, Repr

/-- The states of the input controller (18 R522). -/
inductive InputState where
  | off | softStart | on | lockout
  deriving DecidableEq, Repr

/-- A coolant limit (18 R533): whether it applies, and the readings for which its condition has held or been absent. -/
structure CoolLimit where
  on : Bool := false
  held : Nat := 0
  clear : Nat := 0
  deriving DecidableEq, Repr

/-- The input, the carrier sensor and the coolant limits (18 R522-R533). `resetLow` says that RESET_N is low; `iLim` is in
A; `limited` that R523 lowers the pool. -/
structure InputSt where
  st : InputState := .off
  pwrEn : Bool := false
  resetLow : Bool := false
  pairA : Bool := false
  pairB : Bool := false
  iLim : Nat := 580
  limited : Bool := false
  leak : Bool := false
  margin : CoolLimit := {}
  limit : CoolLimit := {}
  failed : CoolLimit := {}
  vinA : Nat := 0
  vinB : Nat := 0
  iinA : Nat := 0
  iinB : Nat := 0
  pin : Nat := 0
  tInlet : Int := 0
  tOutlet : Int := 0
  flow : Nat := 0
  period : Option Nat := none
  deriving DecidableEq, Repr

/-- The anti-rollback record (16 R472). -/
structure AntiRollback where
  minSvn : Vector Nat 8 := Vector.replicate 8 0
  revoked : BitVec 64 := 0
  active : Nat := 0
  trial : Nat := 0
  owner : List Byte := List.replicate 64 0
  deriving DecidableEq, Repr

/-- The flash, the boot chain and the security entries (16). `trialOpen` says that a staged firmware set has neither been
committed nor given up; `ownerKey` is the key last enrolled. `bootCode` and `halted` belong to a halted boot (R479);
`chunks` are those written through UPDATE_DATA and `length` where they end; `busy` that a verification runs. -/
structure SecSt where
  banks : Vector (List Image) 2 := Vector.replicate 2 []
  recovery : Option Image := none
  config : Option Image := none
  configNext : Option Image := none
  guardImg : Option Image := none
  guardNext : Option Image := none
  roll : AntiRollback := {}
  trialOpen : Bool := false
  ownerKey : List Byte := []
  m : Vector (List Byte) 8 := Vector.replicate 8 (List.replicate 64 0)
  runningBank : Nat := 0
  fwVersion : Nat := 0
  bootCode : Nat := 0
  halted : Bool := false
  quarantineBoot : Bool := false
  guardDefaults : Bool := false
  guardDigest : List Byte := []
  status : Nat := 0
  busy : Bool := false
  chunks : Mem := []
  length : Nat := 0
  deriving DecidableEq, Repr

end Sys2Proof.Machine
end

