-- ==== Sys2Proof/Machine/RimTypes.lean ====
section
/-! DEFINITION. Machine/RimTypes.lean: the state of the rim strips and of the cluster reduction (10, 11): stacks, memory
controllers, update engines, remote-accumulate operations, ring blocks, check stores and the bucket table. -/

namespace Sys2Proof.Machine

/-- A remote-accumulate operation on a block (10 R304, R305): `src` is 0-63 for a skillet, 64 for a link receive path. -/
structure RaOp where
  block : Nat
  add : Bool
  src : Nat
  g : G16
  deriving DecidableEq, Repr

/-- A block that waits in a reduction buffer (11 R335): the ring (X or Y), the port it came by, the first block of its
frame, its hops and the partial sum. -/
structure RingHeld where
  yRing : Bool
  port : Nat
  first : Nat
  hop : Nat
  block : Nat
  g : G16
  deriving DecidableEq, Repr

/-- A copy of a sampled block in a check store (11 R343). -/
structure CheckCopy where
  block : Nat
  shard : Nat
  g : G16
  deriving DecidableEq, Repr

/-- An adder's output on a traced block, as the owner holds it (11 R346). -/
structure TraceOut where
  block : Nat
  shard : Nat
  g : G16
  deriving DecidableEq, Repr

/-- A memory controller with its stack (10 R282-R288, R319). `bad` holds the bursts (local offset / 64) with an
uncorrectable error, `rewrites` which bytes of such a burst have been written since, as a mask; `rowCe` the corrected
errors of rows in the window. -/
structure Stack where
  mem : Mem := []
  bad : List Nat := []
  rewrites : Tab Nat := []
  temp : Nat := 0
  link : Nat := 0
  hot : Bool := false
  repairs : Nat := 0
  failed : BitVec 32 := 0
  readBytes : Nat := 0
  writeBytes : Nat := 0
  raWrites : Nat := 0
  raAdds : Nat := 0
  raRaises : Nat := 0
  raSaturated : Nat := 0
  blockWait : Nat := 0
  ceCorrected : Nat := 0
  ueDetected : Nat := 0
  refreshes : Nat := 0
  rfmIssued : Nat := 0
  readLatMax : Nat := 0
  refused : Nat := 0
  rowCe : Tab Nat := []
  ceRaised : Bool := false
  ecsCorrected : Nat := 0
  deriving DecidableEq, Repr

/-- An update engine (10 R308, R320, 13 R404). `next` counts the blocks that it has dealt with in G; `poisonAt` is the block
whose poisoned input it has met and not yet reported; `stopped` that a fault has stopped it; `gDone` that it has reported
completion; `bank` its tap bank, `select` TAP_SELECT. -/
structure Ue where
  rule : Nat := 0
  ptr : Bool := false
  phase : Nat := 0
  cause : Nat := 0
  stripe : Nat := 0
  params : Nat := 0
  clamps : Nat := 0
  gCycles : Nat := 0
  faults : Nat := 0
  next : Nat := 0
  poisonAt : Option Nat := none
  stopped : Bool := false
  gDone : Bool := false
  sumsq : W64 := 0
  blocks : Nat := 0
  nonfinite : Bool := false
  sat : Bool := false
  sovf : Bool := false
  bank : TapBank := {}
  select : Nat := 0
  deriving DecidableEq, Repr

/-- A slice's part in the reduction and the all-gather (11 R330-R335, R343, R353). `counts` are the operations received by
bucket; `xDone` the blocks whose X delivery is written, `final` the owned blocks that are final, `ySent` the blocks sent
on the Y ring; `reduced` the buckets REDUCED; `held` the reduction buffers' blocks, `queue` the adder's operations,
`reorder` the reorder store of ordered mode; `passed` the blocks whose partial sum on a ring (true: Y) has come; `checks` the check store, `skipped` and `compared` the sampled owned blocks
dealt with; `agGot` the replica blocks held of step `agStep`, `agSent` the blocks sent on the X ring;
`buddyGot` the records (sub-array, block) held of the copy of step `buddyStep`. -/
structure RedSlice where
  counts : Tab Nat := []
  launched : Nat := 0
  reduced : List Nat := []
  xDone : List Nat := []
  final : List Nat := []
  ySent : List Nat := []
  held : List RingHeld := []
  queue : List RaOp := []
  reorder : List RaOp := []
  passed : List (Nat × Bool) := []
  checks : List CheckCopy := []
  skipped : List Nat := []
  compared : List Nat := []
  storeFullRaised : Bool := false
  agStep : Nat := 0
  agGot : List Nat := []
  agSent : List Nat := []
  buddyStep : Nat := 0
  buddyGot : List (Nat × Nat) := []
  deriving DecidableEq, Repr

/-- A slice of a rim strip. -/
structure RimSlice where
  mc : Stack := {}
  ue : Ue := {}
  red : RedSlice := {}
  deriving DecidableEq, Repr

/-- A rim buffer (10 R303): its bytes and its poisoned granules (address / 8); `ceRaised`: its first corrected error of the
window has been reported. -/
structure RimBuffer where
  mem : Mem := []
  poison : List Nat := []
  ceRaised : Bool := false
  deriving DecidableEq, Repr

/-- An entry of the stack repair list (10 R288); `inForce` once it has taken effect. -/
structure Repair where
  stack : Nat
  row : Nat
  inForce : Bool
  deriving DecidableEq, Repr

/-- An entry of the bucket table (11 R328). -/
structure Bucket where
  first : Nat
  last : Nat
  contrib : Nat
  readyEn : Bool
  readyTask : Nat
  readyPc : Nat
  raw : Nat
  deriving DecidableEq, Repr

/-- A fused record with the watch bits of its frame (11 R349, 13 R407). -/
structure Fused where
  step : Nat
  sumsq : W64
  loss : W64
  tokens : Nat
  clipNorm : W32
  skipLimit : Nat
  flags : Nat
  shard : Nat
  watch : List Byte
  deriving DecidableEq, Repr

/-- The content of a FUSE message that the steward holds (11 R348). -/
structure FuseMsg where
  sumsq : W64
  blocks : Nat
  flags : Nat
  deriving DecidableEq, Repr

/-- An adder that a trace has named (11 R346): shard, kind (0 link adder, 1 remote-accumulate, 2 check) and slice. -/
structure NamedAdder where
  shard : Nat
  kind : Nat
  slice : Nat
  deriving DecidableEq, Repr

/-- The module's part in the reduction (11). `fuse` and `gathered` are what phase N has so far; `xRound` says that the
row's records have gone on round the Y ring; `traces` are the trace requests of the run, `tracesNew` those that this run
has recorded, `judged` the traced blocks with a finding; `divisor` is CHECK_DIVISOR, `divisorStep` the one in force for
the step. -/
structure RedSt where
  pTotal : Nat := 0
  buckets : List Bucket := []
  epoch : Nat := 0
  divisor : Nat := 256
  divisorStep : Nat := 256
  stallLimit : Nat := 5000000
  stepLimit : Nat := 900000000
  clipNorm : W32 := 0
  skipLimit : Nat := 16
  clipStep : W32 := 0
  skipStep : Nat := 16
  fuse : Vector (Option FuseMsg) 4 := Vector.replicate 4 none
  gathered : Tab Fused := []
  sent : Bool := false
  xRound : Bool := false
  traces : List Nat := []
  tracesNew : List Nat := []
  judged : List Nat := []
  traceOuts : List TraceOut := []
  named : List NamedAdder := []
  linkAdds : Nat := 0
  linkRaises : Nat := 0
  blocksSaturated : Nat := 0
  checked : Nat := 0
  checkSkipped : Nat := 0
  mismatches : Nat := 0
  overruns : Nat := 0
  staleDropped : Nat := 0
  watchdogExpiries : Nat := 0
  deriving DecidableEq, Repr

/-- The optimizer settings (10 R322, R323): 5010.01 to 5010.17 and the class ranges. -/
structure Optim where
  rule : Nat := 1
  lrPeak : W32 := 0x38D1B717#32
  warmup : Nat := 0
  decayKind : Nat := 0
  decaySteps : Nat := 0
  lrFloor : W32 := 0
  beta1 : W32 := 0x3F666666#32
  beta2 : W32 := 0x3F733333#32
  eps : W32 := 0x322BCC77#32
  weightDecay : W32 := 0
  momentum : W32 := 0x3F666666#32
  nesterov : Bool := false
  gscale : W32 := 0x3F800000#32
  meanByTokens : Bool := true
  lrMul : Vector W32 4 := Vector.replicate 4 0x3F800000#32
  wdMul : Vector W32 4 := Vector.replicate 4 0x3F800000#32
  classes : Vector Nat 64 := Vector.replicate 64 0
  deriving DecidableEq, Repr

/-- The rim of the module. `optim` is in force; `optimNext` is the pending set (10 R313), the writes in their order, each as
the entry's key and value; `applyStep` is APPLY_STEP, `applySet` that a write of it has yet to take effect; `repairs` the stack
repair list; `clampRaised` the step whose first clamp has raised UE_CLAMP; `acked` says that the copy
of the last committed step is acknowledged (01 R31). -/
structure RimSt where
  slices : Vector RimSlice 32 := Vector.replicate 32 {}
  buffers : Vector RimBuffer 4 := Vector.replicate 4 {}
  repairs : List Repair := []
  ceRowLimit : Nat := 16
  optim : Optim := {}
  optimNext : List (Nat × Nat) := []
  applyStep : Nat := 0
  applySet : Bool := false
  clampRaised : Bool := false
  buddyAcked : Nat := 0
  acked : Bool := false
  buddyHeld : Nat := 0
  deriving DecidableEq, Repr

end Sys2Proof.Machine
end

