-- ==== Sys2Proof/Machine/StepTypes.lean ====
section
/-! DEFINITION. Machine/StepTypes.lean: the state of a training step (01), of the numerics watch (13) and of recovery
(15). -/

namespace Sys2Proof.Machine

/-- A gate outcome (01 R23), in the order of LAST_OUTCOME less one. -/
inductive Outcome where
  | commit | skip | halt
  deriving DecidableEq, Repr

/-- An entry of the watch table (13 R401) with its raw 128 bits. -/
structure WatchEntry where
  kind : Nat := 0
  policy : Nat := 0
  overBin : Nat := 0
  layer : Nat := 0
  kInit : Int := 0
  kMin : Int := 0
  kMax : Int := 0
  first : Nat := 0
  last : Nat := 0
  raw : Nat := 0
  deriving DecidableEq, Repr

/-- The scale and the runs of a watch point (13 R409, R410). -/
structure WatchRun where
  k : Int := 0
  crun : Nat := 0
  lrun : Nat := 0
  deriving DecidableEq, Repr

/-- What the step report holds of a watch point (13 R413): its 64 counts and its bits. -/
structure WatchReport where
  hist : Tab Nat := []
  quiet : Bool := false
  above : Bool := false
  cOver : Bool := false
  nonfinite : Bool := false
  deriving DecidableEq, Repr

/-- The numerics watch (13). `table` is the loaded watch table by watch point; `runs` the points whose scale or runs
differ from their start; `sums` the counts summed for the step, by watch point and bin; `read` the skillets whose idle
bank has been summed in the step; `report` the step report. -/
structure WatchSt where
  threshold : W32 := 0x3F7FBE77#32
  quietSteps : Nat := 200
  table : Tab WatchEntry := []
  runs : Tab WatchRun := []
  sums : Tab (Tab Nat) := []
  read : List Pid := []
  undeclared : Nat := 0
  undeclaredRaised : Bool := false
  report : Tab WatchReport := []
  reportStep : Nat := 0
  reportOutcome : Nat := 0
  deriving DecidableEq, Repr

/-- What the gate has fixed for a step whose U waits (01 R25, R28): the outcome, the clip factor in binary64, the token
count, the frames' cluster bits and the summed counts that U uses. -/
structure Ended where
  step : Nat
  outcome : Outcome
  clip : W64
  tokens : Nat
  cOver : List Nat
  cQuiet : List Nat
  threshold : W32
  quietSteps : Nat
  ownThreshold : W32
  ownSteps : Nat
  sums : Tab (Tab Nat)
  deriving DecidableEq, Repr

/-- The values of before a U (15 R459): the commit record, consecutive_skips, the scales and runs, the input cursor. -/
structure Saved where
  skips : Nat
  runs : Tab WatchRun
  cursor : Nat
  deriving DecidableEq, Repr

/-- The step in progress (01). `active`: a step between its F and its gate; `ended`: steps past their gate whose U waits,
in order; `gRunning`: G of the first of them has begun; `boundary`: the beat of a boundary that waits for U; `aRunning`: A
of the last committed step is not complete, `aStep` that step; `ready`: the buckets whose ready task is still to be
STARTed; `readyNow`: the replica is already complete (11 R354); `halted`: PAUSED came from HALT; `evalRunning`: an
evaluation pass; `evalWaits`: the pass of a window that opened during A; `begin_`: the tick at which F began; `progress`:
the tick of the last contribution at each all-wait
point of 11 R339 and, last, of the recovery's gather; `cursor` counts the steps past their U. -/
structure StepSt where
  active : Bool := false
  ended : List Ended := []
  gRunning : Bool := false
  boundary : Option Nat := none
  aRunning : Bool := false
  aStep : Nat := 0
  ready : List Nat := []
  readyNow : Bool := false
  halted : Bool := false
  evalRunning : Option Nat := none
  evalWaits : Option Nat := none
  begin_ : Nat := 0
  stepRaised : Bool := false
  stallRaised : List Nat := []
  progress : Vector Nat 6 := Vector.replicate 6 0
  skips : Nat := 0
  cursor : Nat := 0
  saved : Option Saved := none
  lastOutcome : Nat := 0
  lastClip : W32 := 0x3F800000#32
  lastNorm : W32 := 0
  lastLoss : W32 := 0
  lastTokens : Nat := 0
  lastFlags : Nat := 0
  committed : Nat := 0
  skipped : Nat := 0
  deriving DecidableEq, Repr

/-- A STATE record of a recovery (15 R456): the rollback number that it carries and its content. -/
structure RecState where
  n : Nat
  step : Nat
  held : Nat
  adopted : Bool
  lostA : Bool
  deriving DecidableEq, Repr

/-- A log entry (15 R452). -/
structure LogEntry where
  seq : Nat
  record : EventRec
  deriving DecidableEq, Repr

/-- Recovery and the event log (15). `phase` is the step of R457 that a recovery has reached: 0 none, 4 gathering STATE
records, 5 restoring until step 6 begins; `restoring` are the bytes that RESTORE frames have to bring, `restored` those
that they have brought; `sendCopy` says that A of step c - 1 sends the buddy copy. `loopStep` and `loopCount` count the
rollbacks in a row of one step, `loopGate` is the step whose gate was reached since. `heard` is what a module that runs no
job knows of a rollback: number, cause and sender. `pairs` are the records logged of each EVENT and PLOC in the window,
`window` its number, `suppressedDue` the counts of windows that have ended. `faultTotals` counts the LADLE_FAULT,
TASK_FAULT, WHISK_FAULT and mesh fault events. -/
structure RecoverSt where
  n : Nat := 0
  phase : Nat := 0
  states : Tab RecState := []
  cause : Nat := 0
  causeCoord : Nat := 0x3FF
  begin_ : Nat := 0
  reverted : Bool := false
  adoptedAny : Bool := false
  adoptedSelf : Bool := false
  restoring : Nat := 0
  restored : Nat := 0
  sendCopy : Bool := false
  spareDue : Bool := false
  heard : Option (Nat × Nat × Nat) := none
  c : Nat := 0
  loopStep : Option Nat := none
  loopCount : Nat := 0
  loopGate : Option Nat := none
  loopHeld : Bool := false
  lost : Bool := false
  stallRaised : Bool := false
  limit : Nat := 4
  last : List Byte := [0xC0#8, 0xFF#8] ++ List.replicate 30 0
  log : List LogEntry := []
  logCount : Nat := 0
  plog : List LogEntry := []
  plogCount : Nat := 0
  window : Nat := 0
  pairs : List (Nat × Nat × Nat) := []
  windowSuppressed : Nat := 0
  suppressedDue : List Nat := []
  alert : BitVec 3 := 0
  rollbacks : Nat := 0
  merged : Nat := 0
  stepsReverted : Nat := 0
  recoveryBeats : Nat := 0
  byClass : Vector Nat 4 := Vector.replicate 4 0
  suppressed : Nat := 0
  faultTotals : Vector Nat 4 := Vector.replicate 4 0
  deriving DecidableEq, Repr

end Sys2Proof.Machine
end

