-- ==== Sys2Proof/Machine/TimeTypes.lean ====
section
/-! DEFINITION. Machine/TimeTypes.lean: the state of cluster time (02): the count, the source train, the lock state,
the scheduled-event table and the step markers. -/

namespace Sys2Proof.Machine

/-- The beat lock state (02 R51), in the order of its codes 0-4. -/
inductive Lock where
  | unlocked | locking | locked | holdover | slewing
  deriving DecidableEq, Repr

/-- STATE of a scheduled entry (02 R61), in the order of its codes. -/
inductive SchedState where
  | idle | armed | fired | missed
  deriving DecidableEq, Repr

/-- A scheduled entry (02 R61). `moved` is the beat a marker moved it to (R68). -/
structure SchedEntry where
  time : Nat := 0
  period : Nat := 0
  length : Nat := 0
  kind : Nat := 0
  arg : Nat := 0
  state : SchedState := .idle
  movable : Bool := false
  arm : Bool := false
  moved : Option Nat := none
  deriving DecidableEq, Repr

/-- An open evaluation or cap window (02 R63): its entry, the beat it closes on, its KIND and its ARG. -/
structure Window where
  entry : Nat
  close : Nat
  kind : Nat
  arg : Nat
  deriving DecidableEq, Repr

/-- The source train (02 R538): whether it has its reference, the beats since its last accepted edge and the run of
consecutive accepted beats; `fly` that flywheel beats follow one another although the train has started afresh after 16
beats without an accepted edge. -/
structure Train where
  hasRef : Bool := false
  missed : Nat := 0
  run : Nat := 0
  fly : Bool := false
  deriving DecidableEq, Repr

/-- Cluster time (02). `ticks` counts the beats since reset and never jumps; it is the model's own. `anomalies` holds
the ticks of the anomalies of R50. `refOffset` is the offset of the module's count from the reference, in 1/1,024 bt,
once the reference is known (R52), `refLoaded` that CBC_LOAD supplied it (R54, R56), `pendingLoad` the count that the next beat takes;
`frac` is FRAC as last observed. -/
structure TimeSt where
  count : Nat := 0
  valid : Bool := false
  frac : Nat := 0
  ticks : Nat := 0
  lock : Lock := .unlocked
  source : Nat := 0
  linkPort : Nat := 0
  periods : List Nat := []
  slewOffset : Int := 0
  steer : Bool := false
  holdoverBeats : Nat := 0
  glitch : Nat := 0
  early : Nat := 0
  short : Nat := 0
  late : Nat := 0
  wide : Nat := 0
  stuck : Nat := 0
  holdoverEntries : Nat := 0
  train : Train := {}
  anomalies : List Nat := []
  syncHigh : Bool := false
  highAccepted : Bool := false
  wideSeen : Bool := false
  stuckSeen : Bool := false
  refOffset : Option Int := none
  refLoaded : Bool := false
  awaitStamp : Bool := false
  awaitLoad : Bool := false
  longSeen : Bool := false
  pendingLoad : Option Nat := none
  handover : Bool := false
  skewRun : Vector Nat 32 := Vector.replicate 32 0
  deriving DecidableEq, Repr

/-- The scheduled-event table, its open windows in the order they opened and the step markers (02 R61-R68). -/
structure SchedSt where
  entries : Vector SchedEntry 64 := Vector.replicate 64 {}
  windows : List Window := []
  markSource : Nat := 3
  markDelay : Nat := 2
  marksAccepted : Nat := 0
  marksOutside : Nat := 0
  marksDuplicate : Nat := 0
  markStuck : Nat := 0
  markHigh : Bool := false
  markStuckSeen : Bool := false
  recentMarks : List (Nat × Nat) := []
  boundariesLate : Nat := 0
  boundariesMerged : Nat := 0
  lastBoundary : Option Nat := none
  deriving DecidableEq, Repr

end Sys2Proof.Machine
end

