-- ==== Sys2Proof/Machine/State.lean ====
section
/-! DEFINITION. Machine/State.lean: the state of the module, why a step can stop, and the state after reset. -/

namespace Sys2Proof.Machine

/-- The state of the module: the waiting commands (first in, first out), the counter of free values (the model's own)
and each chapter's registers. -/
structure State where
  pending : List Instr := []
  free : Nat := 0
  time : TimeSt := {}
  sched : SchedSt := {}
  col : ColSt := {}
  sks : Vector Skillet 64 := Vector.replicate 64 {}
  mesh : MeshSt := {}
  commit : Commit := {}
  life : LifeSt := {}
  regions : List Region := []
  ceLimit : Nat := 64
  ceLimitNext : Nat := 64
  guard : Guard := {}
  dict : DictSt := {}
  links : LinkSt := {}
  rim : RimSt := {}
  red : RedSt := {}
  run : StepSt := {}
  watch : WatchSt := {}
  recov : RecoverSt := {}
  power : PowerSt := {}
  input : InputSt := {}
  sec : SecSt := {}
  deriving DecidableEq, Repr

/-- No command of this hardware ends the machine: a command that the module turns away leaves a status. -/
inductive Fault where
  /-- No meaning raises this fault; it stands for an internal stop that the spec gives nowhere. Safe. -/
  | stopped
  deriving DecidableEq, Repr

/-- Why a step has no outcome. -/
inductive Refusal where
  /-- Raised by an arm of exec whose command has no meaning yet; safe. -/
  | notModelled (mnemonic : String)
  deriving DecidableEq, Repr

/-- The flash as the module ships (16 R470): its firmware sets and its configuration image are the manufacturer's. -/
def SecSt.factory : SecSt :=
  { banks := Vector.ofFn (fun i => Config.factoryBank i.val), config := some Config.factoryConfig }

/-- The module right after reset: unpowered and OFF, its flash as it shipped. -/
def State.reset : State := { sec := SecSt.factory }

end Sys2Proof.Machine
end

