-- ==== Sys2Proof/Machine/Ops.lean ====
section
/-! DEFINITION. Machine/Ops.lean: the operations that every family shares: free values, saturating counters, the
skillets and what the colander says of them, raising an event, and sending a message on the cobalt network. -/

namespace Sys2Proof.Machine

/-- The outcome of a meaning that gives a next state. -/
abbrev Out := Host.Outcome State Fault Refusal

/-- A 64-bit saturating counter advanced by n (04 R130 and its like). -/
def sat64 (c n : Nat) : Nat := min (c + n) (2 ^ 64 - 1)

/-- A 32-bit saturating counter advanced by n (02 R70). -/
def sat32 (c n : Nat) : Nat := min (c + n) (2 ^ 32 - 1)

/-- A free value and the state with the counter of free values advanced. -/
def draw (s : State) : Nat × State := (Config.freeNat s.free, { s with free := s.free + 1 })

/-- The skillet with a PID. -/
def State.sk (s : State) (p : Pid) : Skillet := vget s.sks p

/-- The state with a skillet changed. -/
def State.modSk (s : State) (p : Pid) (f : Skillet → Skillet) : State := { s with sks := vmod s.sks p f }

/-- The pantry of a skillet. -/
def State.pn (s : State) (p : Pid) : Pantry := (s.sk p).pantry

/-- The state with a pantry changed. -/
def State.modPn (s : State) (p : Pid) (f : Pantry → Pantry) : State :=
  s.modSk p (fun k => { k with pantry := f k.pantry })

/-- The sequencer of a skillet. -/
def State.sq (s : State) (p : Pid) : Seq := (s.sk p).seq

/-- The state with a sequencer changed. -/
def State.modSq (s : State) (p : Pid) (f : Seq → Seq) : State := s.modSk p (fun k => { k with seq := f k.seq })

/-- The whisk of a skillet. -/
def State.wh (s : State) (p : Pid) : Whisk := (s.sk p).whisk

/-- The state with a whisk changed. -/
def State.modWh (s : State) (p : Pid) (f : Whisk → Whisk) : State := s.modSk p (fun k => { k with whisk := f k.whisk })

/-- A ladle. -/
def State.ld (s : State) (p : Pid) (l : Fin 8) : Ladle := vget (s.sk p).ladles l

/-- The state with a ladle changed. -/
def State.modLd (s : State) (p : Pid) (l : Fin 8) (f : Ladle → Ladle) : State :=
  s.modSk p (fun k => { k with ladles := vmod k.ladles l f })

/-- A griddle. -/
def State.gr (s : State) (p : Pid) (g : Fin 4) : Griddle := vget (s.sk p).griddles g

/-- The state with a griddle changed. -/
def State.modGr (s : State) (p : Pid) (g : Fin 4) (f : Griddle → Griddle) : State :=
  s.modSk p (fun k => { k with griddles := vmod k.griddles g f })

/-- A router: node 0-63 of a skillet, 64-67 of a rim crossbar. -/
def State.rt (s : State) (n : Fin 68) : Router := vget s.mesh.routers n

/-- The state with a router changed. -/
def State.modRt (s : State) (n : Fin 68) (f : Router → Router) : State :=
  { s with mesh := { s.mesh with routers := vmod s.mesh.routers n f } }

/-- The node of a skillet. -/
def nodeOf (p : Pid) : Fin 68 := ⟨p.val, by omega⟩

/-- The node of a rim strip's crossbar by a module-wide number of R4. -/
def rimNode (sl : Slice) : Fin 68 := ⟨64 + sl.val / 8, by omega⟩

/-- What the colander has in force for a skillet (03 R79-R85). -/
def State.skCol (s : State) (p : Pid) : SkCol := vget s.col.eff.sk p

/-- Whether a skillet is a hole (03 R74). -/
def State.isHole (s : State) (p : Pid) : Bool := (s.skCol p).hole.isSome

/-- Whether the module presents logical skillets: not while it is QUARANTINED (03 R93). -/
def State.presents (s : State) : Bool := s.life.st != .quarantined

/-- The logical number of a PID, where it carries one (03 R76, R93). -/
def State.logical? (s : State) (p : Pid) : Option Nat :=
  if s.presents then s.col.eff.map.toList.findIdx? (fun q => q == p) else none

/-- The PID of a logical number 0-55 (03 R76, R93). -/
def State.pidOf (s : State) (l : Nat) : Option Pid := if s.presents then s.col.eff.map.toList[l]? else none

/-- LOGICAL of an event record (15 R449): 0-55, 0xFE for a spare, 0xFF for none. -/
def State.logicalCode (s : State) (ploc : Nat) : Nat :=
  let block := ploc / 128 % 128
  if h : block < 64 then
    match s.logical? ⟨block, h⟩ with
    | some l => l
    | none => if s.isHole ⟨block, h⟩ then 0xFF else 0xFE
  else 0xFF

/-- Whether a skillet's arithmetic units run: its compute domain is on and it is not a hole (14, 03 R74). -/
def State.computeOn (s : State) (p : Pid) : Bool := (s.sk p).computeOn && !s.isHole p

/-- Whether the module is powered: past OFF. -/
def State.powered (s : State) : Bool := s.life.st != .off

/-- Whether a node takes part on the cobalt network (00 R2, 03 R74, 09 R275): the module is powered, and neither has the
region's supply been isolated nor the node been marked faulty. Node 68 is the steward. -/
def State.nodeLive (s : State) (node : Nat) : Bool :=
  s.life.st != .off && (if h : node < 64 then !vget s.col.isolated ⟨node, h⟩ else true)
    && (if h : node < 68 then !(s.rt ⟨node, h⟩).cobaltFaulty else true)

/-- Whether a skillet's sequencer issues words (08 R221, 03 R74, R93, 00 R2): its compute domain is powered, it is no hole,
and the module presents it. -/
def State.sequences (s : State) (p : Pid) : Bool := s.computeOn p && s.life.st != .off && s.presents

/-- FRAC as time goes on within a beat (02 R47, R53): a free value that never decreases until the next counted beat. -/
def passFrac (s : State) : State :=
  { s with
    time := { s.time with frac := s.time.frac + Config.freeNat s.free % (1024 - s.time.frac) }, free := s.free + 1 }

/-- FRAC of a node's own copy of the count (02 R48): within 8/1,024 bt of every other copy; nodes 0-63 are skillets, 64-67
rim strips, 68 the steward. -/
def State.fracAt (s : State) (node : Nat) : Nat := min 1023 (s.time.frac + Config.copyAhead node % 9)

/-- The state at a later instant of the beat (02 R47): FRAC as it is observed then. It never decreases within a beat. -/
def State.atFrac (s : State) (frac : Nat) : State := { s with time := { s.time with frac := max s.time.frac frac } }

/-- The count as its 80-bit layout (02 R46): COUNT, VALID and FRAC. -/
def State.cbc (s : State) : Nat := s.time.count * 2 ^ 16 + (if s.time.valid then 1024 else 0) + s.time.frac

/-- The event record of R449 as it stands at this instant, with the raising node's own copy of the count (02 R48). -/
def mkRecord (s : State) (node ev : Nat) (cls : EvClass) (ploc data : Nat) : EventRec :=
  { event := ev, cls := cls, valid := s.time.valid, frac := s.fracAt node, ploc := ploc,
    logical := s.logicalCode ploc, count := s.time.count, step := s.commit.step, data := data % 2 ^ 64 }

/-- COBALT_SENT of a node's register block (09 R280). -/
def countSent (s : State) (node : Nat) : State :=
  if h : node < 68 then s.modRt ⟨node, h⟩ (fun r => { r with cobaltSent := sat64 r.cobaltSent 1 }) else s

/-- COBALT_RECEIVED of a node's register block (09 R280). -/
def recvCobalt (s : State) (node : Nat) : State :=
  if h : node < 68 then s.modRt ⟨node, h⟩ (fun r => { r with cobaltReceived := sat64 r.cobaltReceived 1 }) else s

/-- A message put on the cobalt network (09 R276), with the epoch in force; a node that is not live sends nothing (R275). -/
def sendCobalt (s : State) (kind : CobaltKind) (src dest arg : Nat) (beats : List Nat) (rec : Option EventRec) : State :=
  if !s.nodeLive src then s
  else
    let s := countSent s src
    { s with mesh := { s.mesh with cobalt := s.mesh.cobalt ++ [{
      kind := kind, src := src, dest := dest, epoch := s.mesh.epoch, arg := arg, beats := beats, record := rec }] } }

/-- The REPLY with which a node answers a command of the steward (09 R277). -/
def sendReply (s : State) (node status : Nat) (value : List Nat) : State :=
  sendCobalt s .reply node 68 status value none

/-- An event raised at a node with a class: its record goes to the steward as an EVENT message (15 R449, 09 R277). -/
def raiseAs (s : State) (node ev : Nat) (cls : EvClass) (ploc data : Nat) : State :=
  let s := passFrac s
  sendCobalt s .event node 68 0 [] (some (mkRecord s node ev cls ploc data))

/-- An event raised at a node with its table's number and class. -/
def raise (s : State) (node : Nat) (ev : Ev) (ploc data : Nat) : State := raiseAs s node ev.code ev.cls ploc data

/-- An event raised by the steward at level 1 for the module (15 R468 and its like). -/
def raiseMod (s : State) (ev : Ev) (data : Nat) : State := raise s 68 ev plocMod data

/-- An event of a unit of a skillet (15 R450). -/
def raiseSk (s : State) (p : Pid) (unit : Nat) (ev : Ev) (data : Nat) : State :=
  raise s p.val ev (plocUnit p.val unit) data

/-- DATA that names the given things (15 R449: "as the raising chapter states"). -/
def names (xs : List Nat) : Nat := Config.eventData xs

/-- One less, modulo 2^64: the step before a step (01 R29). -/
def stepBefore (n : Nat) : Nat := (n + 2 ^ 64 - 1) % 2 ^ 64

/-- A value of n bits in a register. -/
def w64 (n : Nat) : W64 := BitVec.ofNat 64 n

/-- Bits [hi:lo] of a number. -/
def bits (v hi lo : Nat) : Nat := v / 2 ^ lo % 2 ^ (hi + 1 - lo)

/-- Bit i of a number. -/
def bit (v i : Nat) : Bool := v / 2 ^ i % 2 == 1

/-- 1 or 0. -/
def b2n (b : Bool) : Nat := if b then 1 else 0

end Sys2Proof.Machine
end

