-- ==== Sys2Proof/Machine/ColOps.lean ====
section
/-! DEFINITION. Machine/ColOps.lean: the colander's shared operations (03): records with their check, the effect of a
record, the journal, and the relocation of logical numbers. Compute
domains stand here too, since a hole's goes off and an adopting spare's comes on. -/

namespace Sys2Proof.Machine

/-- One bit of CRC-16/CCITT-FALSE. -/
def crcBit (c : Nat) : Nat := if 0x8000 ≤ c then (c * 2 % 65536) ^^^ 0x1021 else c * 2

/-- CRC-16/CCITT-FALSE over bytes (03 R83, 09 R253). -/
def crc16 (bs : List Byte) : Nat :=
  bs.foldl (fun c b => (List.range 8).foldl (fun x _ => crcBit x) (c ^^^ (b.toNat * 256))) 0xFFFF

/-- Bits [127:16] of a record as a number (03 R83). -/
def ColRec.upper (r : ColRec) : Nat :=
  (((((r.kind * 4 + r.origin) * 4 * 256 + r.pid.val) * 256 + r.a) * 256 + r.b) * 2 ^ 64 + r.count) * 65536 + r.cause

/-- The check of a record: bytes 15 down to 2 (03 R83). -/
def ColRec.crc (r : ColRec) : Nat := crc16 (leBytes 14 r.upper).reverse

/-- A record with its check. -/
def mkRec (kind origin : Nat) (p : Pid) (a b count cause : Nat) : ColRec :=
  let r : ColRec := ⟨kind, origin, p, a, b, count, cause, 0⟩
  { r with check := BitVec.ofNat 16 r.crc }

/-- A number added to an ascending list without repeats. -/
def insertNat (xs : List Nat) (n : Nat) : List Nat :=
  match xs with
  | [] => [n]
  | x :: r => if n < x then n :: x :: r else if n = x then x :: r else x :: insertNat r n

/-- What a record puts in force (03 R79, R81, R84, R85, R77). DESIGN CHOICE, log 62: a skillet that a second HOLE record
names keeps the reason code of the first (R84 is silent). -/
def Effective.apply (e : Effective) (r : ColRec) : Effective :=
  let mod (f : SkCol → SkCol) : Effective := { e with sk := vmod e.sk r.pid f }
  match r.kind with
  | 1 => mod (fun k => { k with hole := some (k.hole.getD r.a) })
  | 2 => if h : r.a < 4 then mod (fun k => { k with cols := vmod k.cols ⟨r.a, h⟩ (fun c => insertNat c r.b) }) else e
  | 3 => mod (fun k => { k with banks := insertNat k.banks r.a })
  | 4 => if h : r.a < 56 then { e with map := vset e.map ⟨r.a, h⟩ r.pid } else e
  | 5 => mod (fun k => { k with fmax := r.a })
  | _ => e

/-- Whether a PID is a hole. -/
def Effective.isHole (e : Effective) (p : Pid) : Bool := (vget e.sk p).hole.isSome

/-- Whether a PID carries a logical number. -/
def Effective.mapped (e : Effective) (p : Pid) : Bool := e.map.toList.any (fun q => q == p)

/-- The PIDs in ascending order. -/
def allPids : List Pid := List.finRange 64

/-- The spares: healthy skillets without a logical number (03 R74). -/
def Effective.spares (e : Effective) : List Pid := allPids.filter (fun p => !e.isHole p && !e.mapped p)

/-- The first 56 healthy skillets in ascending order carry L0 to L55 (03 R76); where fewer are healthy, holes fill the
map, and the module is quarantined (R93). -/
def Effective.firstMap (e : Effective) : Effective :=
  let order := allPids.filter (fun p => !e.isHole p) ++ allPids.filter (fun p => e.isHole p)
  { e with map := Vector.ofFn (fun i => (order[i.val]?).getD 0) }

/-- What the base colander puts in force (03 R76, R88): its records other than MAP, the map of R76 over the healthy
skillets, and its MAP records. -/
def baseEffective (base : List ColRec) : Effective :=
  (base.filter (fun r => r.kind == 4)).foldl Effective.apply
    ((base.filter (fun r => r.kind != 4)).foldl Effective.apply {}).firstMap

/-- The number of healthy skillets. -/
def Effective.healthy (e : Effective) : Nat := (allPids.filter (fun p => !e.isHole p)).length

/-- |Δpx| + |Δpy| (03 R77). -/
def pidDist (p q : Pid) : Nat :=
  ((p.val % 8 : Int) - (q.val % 8 : Int)).natAbs + ((p.val / 8 : Int) - (q.val / 8 : Int)).natAbs

/-- The nearest spare, the lowest PID among equals (03 R77). -/
def Effective.nearest (e : Effective) (p : Pid) : Option Pid :=
  e.spares.foldl (fun best q => match best with
    | none => some q
    | some b => if pidDist p q < pidDist p b then some q else some b) none

/-- The physical bank of logical bank j: the (j+1)-th that is not retired (03 R81). -/
def physBank (retired : List Nat) (j : Nat) : Nat :=
  (((List.range 256).filter (fun b => !retired.contains b))[j]?).getD 255

/-- The physical column of presented column c: the (c+1)-th that is not bad (03 R79). -/
def physCol (bad : List Nat) (c : Nat) : Nat :=
  (((List.range 256).filter (fun b => !bad.contains b))[c]?).getD 255

/-- Whether a physical column of a griddle takes part in a pass (03 R79): it carries one of the presented columns 0-247;
a bad one and one left over do not. -/
def colInUse (bad : List Nat) (c : Nat) : Bool := (List.range 248).any (fun i => physCol bad i == c)

/-- A griddle without contents (03 R90, 04 R126): no tile, window or pass. -/
def Griddle.discard (g : Griddle) : Griddle :=
  { g with
    queue := [], retryQueue := [], active := [], front := none, back := none, saved := none, loadFault := none,
    rejected := false, windows := [], halted := false, flushers := [], flushPending := false }

/-- A slot made EMPTY with GEN + 1 (06 R166, R168, R175). -/
def Slot.emptied (x : Slot) : Slot :=
  { x with st := .empty, produced := 0, released := 0, gen := (x.gen + 1) % 256, emitFill := false }

/-- All 4,096 slots made EMPTY with GEN + 1, D0 kept (06 R175). -/
def emptiedSlots (t : Tab Slot) : Tab Slot :=
  ((List.range 4096).map (fun n => (n, (Tab.at t n {}).emptied))).filter (fun e => e.2 != {})

/-- A skillet whose column bypass set or bank map changes (03 R90): what its pantry and its griddles hold is gone, and
the runtime's RESET_ALL gives back its slot descriptors, EMPTY (06 R175). Shelves keep their state (06 R176). -/
def Skillet.discard (k : Skillet) : Skillet :=
  { k with
    pantry := { k.pantry with mem := [], poison := [], corrupt := [], errors := [], slots := emptiedSlots k.pantry.slots }
    griddles := k.griddles.map Griddle.discard }

/-- A skillet whose compute domain is powered off or on (06 R183, 04 R126, 07 R213, 08 R221): every shelf OPEN and
zero-filled, every slot zero, no task, pass or stream; the counters of the transit domain stay. -/
def Skillet.wipe (k : Skillet) : Skillet :=
  { k with
    pantry := { k.pantry with mem := [], poison := [], corrupt := [], errors := [], slots := [], memopQueue := [],
                              shelves := Vector.replicate 15 {} }
    griddles := k.griddles.map Griddle.discard
    ladles := k.ladles.map (fun l => { l with
      st := .idle, chain := [], loopTo := none, listPos := 0, blockIx := 0, head := none, list := none,
      allStarted := false, issuer := none, pending := none, stopIssuers := [], blocks := [], portions := [],
      emptyFins := [], fault := 0, faultAt := none,
      lateRaised := false, poisonRaised := false, lagRaised := false })
    seq := { k.seq with
      tasks := k.seq.tasks.map (fun t => ({ inc := t.inc + 1 } : Task)), sg := Vector.replicate 64 0,
      current := none, hold := none }
    whisk := { k.whisk with
      queue := [], running := none, halted := false, lastStatus := 0, cause := 0,
      lossSum := 0, lossTokens := 0, lossNonfinite := false }
    taps := {} }

/-! ### Monitors and compute domains -/

/-- The state with the power controller changed. -/
def State.modPower (s : State) (f : PowerSt → PowerSt) : State := { s with power := f s.power }

/-- A monitor. -/
def State.mon (s : State) (p : Pid) : Mon := vget s.power.mons p

/-- The state with a monitor changed. -/
def State.modMon (s : State) (p : Pid) (f : Mon → Mon) : State := s.modPower (fun w => { w with mons := vmod w.mons p f })

/-- A steward-bridge write to a skillet's pantry outside every window that permits it (16 R481): refused with 0x0702 and
counted, with one event in each 2^20 bt. -/
def refuseBridge (s : State) (p : Pid) : State :=
  let w := some (s.time.count / 2 ^ 20)
  let first := s.guard.refusedWindow != w
  let s := { s with guard := { s.guard with refusals := sat64 s.guard.refusals 1, refusedWindow := w } }
  if first then raiseMod s .guardRefused (names [p.val]) else s

/-- Whether a pantry window lets the steward bridge write a range (16 R481). -/
def bridgeMayWrite (g : Guard) (a n : Nat) : Bool :=
  g.windows.any (fun w => w.writeOk && decide (64 * w.base ≤ a) && decide (a + n ≤ 64 * (w.base + w.length)))

/-- A plan image written into a pantry over the steward bridge (16 R481, 17 R513). -/
def storeImage (s : State) (p : Pid) (x : PlanImage) : State :=
  if bridgeMayWrite s.guard x.offset x.bytes.length then s.modPn p (fun k => { k with mem := Mem.store k.mem x.offset x.bytes })
  else refuseBridge s p

/-- A mapped skillet's resident plan image, written by the runtime (03 R90, 17 R513). -/
def loadImages (s : State) (images : List PlanImage) (slice : Nat) (p : Pid) : State :=
  match s.logical? p with
  | none => s
  | some l => (images.filter (fun x => x.arg = l || (x.arg = 0xFF && !bit slice l))).foldl
      (fun t x => storeImage t p x) s

/-- The plan image of a skillet, where a plan is loaded. -/
def reload (s : State) (p : Pid) : State :=
  match s.dict.plan with
  | none => s
  | some x => loadImages s x.images x.slice p

/-- A compute domain goes off: what the skillet held is lost (04 R126, 06 R183, 07 R213, 08 R221). -/
def domainOff (s : State) (p : Pid) (d : Domain) : State :=
  let s := (s.modSk p (fun k => { k.wipe with computeOn := false })).modRt (nodeOf p)
    (fun r => { r with discardRaised := false })
  s.modMon p (fun m => { m with
    domain := d, level := 0, ramp := none, forced := none, budget := 0, budgetLevel := 0, stretching := false,
    offAt := if m.domain == .on then s.time.ticks else m.offAt })

/-- A compute domain comes on (14 R437, 06 R164, R183, 08 R221, 03 R90): level 0, THERMAL as given, the skillet reloaded. -/
def domainOn (s : State) (p : Pid) (thermal : Nat) : State :=
  let s := s.modSk p (fun k => { k.wipe with computeOn := true })
  reload (s.modMon p (fun m => { m with domain := .on, thermal := thermal, level := 0, ramp := none })) p

/-! ### Records and their effect -/

/-- The event that a record raises when it first takes effect (03 R94), raised by the steward for the skillet. -/
def raiseEffect (s : State) (r : ColRec) : State :=
  let at' := plocBlock r.pid.val
  match r.kind with
  | 2 => raise s 68 .columnBypassed at' (names [r.a, r.b])
  | 3 => raise s 68 .bankRetired at' (names [r.a])
  | 4 => raise s 68 .skilletRelocated at' (names [r.a, r.pid.val])
  | 5 => raise s 68 .fmaxLowered at' (names [r.a])
  | _ => s

/-- SPARES_LOW as the number of spares falls (03 R92). -/
def sparesLow (s : State) (before : Nat) : State :=
  let now := s.col.eff.spares.length
  let lvl := s.col.sparesLowLevel
  if now < before && ((lvl < before && now ≤ lvl) || now == 0) then raiseMod s .sparesLow (names [now]) else s

/-- What a record that takes effect does to its skillet: a hole's compute domain goes off (03 R74); a new column and a new
bank discard what it held, and it is reloaded (R90); a spare that adopts a number is powered and loaded (R78, R90). -/
def effectOn (s : State) (r : ColRec) : State :=
  match r.kind with
  | 1 => if (s.mon r.pid).domain == .on then domainOff s r.pid .off else s
  | 2 | 3 => if (s.sk r.pid).computeOn then reload (s.modSk r.pid Skillet.discard) r.pid else s
  | 4 => if (s.sk r.pid).computeOn then reload (s.modSk r.pid Skillet.discard) r.pid
         else if (s.mon r.pid).domain == .off then domainOn s r.pid 23
         else s
  | _ => s

/-- A record takes effect (03 R89-R92, R94). -/
def takeEffect (s : State) (r : ColRec) : State :=
  let before := s.col.eff.spares.length
  let s := { s with col := { s.col with eff := s.col.eff.apply r } }
  let s := raiseEffect s r
  sparesLow (effectOn s r) before

/-- COUNT as a record or entry carries it: 0 while the count is not valid (03 R83). -/
def validCount (s : State) : Nat := if s.time.valid then s.time.count else 0

/-- A record written to the journal (03 R86; the bounds of R86 keep it from filling). -/
def journalAdd (s : State) (r : ColRec) : State :=
  { s with col := { s.col with journal := (s.col.journal ++ [r]).take 8192 } }

/-- The moments at which a record takes effect as it is written (03 R89, R91): in SELF_TEST, RECOVERING and SERVICE, or
for a skillet that carries no logical number. -/
def effectNow (s : State) (p : Pid) : Bool :=
  s.life.st == .selfTest || s.life.st == .recovering || s.life.st == .service || !s.col.eff.mapped p

/-- The adoption check of a spare (03 R78): 0 where it passes, otherwise the reason code of the check that it failed. In
SELF_TEST the self-test's findings give it; elsewhere it is a free value. -/
def adoptCheck (fails : Option (List (Pid × Nat))) (q : Pid) (s : State) : Nat × State :=
  match fails with
  | some fs => (((fs.find? (fun f => f.1 == q)).map (fun f => f.2)).getD 0, s)
  | none =>
    let (c, s) := draw s
    (Config.adoptResult c % 4, s)

/-- Relocation of one logical number away from a hole (03 R77, R78): the nearest spare that passes its adoption check;
a spare that fails becomes a hole and the choice is repeated. -/
def relocateOne (fuel : Nat) (fails : Option (List (Pid × Nat))) (origin cause : Nat) (l : Fin 56) (s : State) : State :=
  match fuel with
  | 0 => s
  | fuel + 1 =>
    let p := vget s.col.eff.map l
    if !s.col.eff.isHole p then s
    else match s.col.eff.nearest p with
      | none => s
      | some q =>
        match adoptCheck fails q s with
        | (0, s) =>
          let r := mkRec 4 origin q l.val 0 (validCount s) cause
          takeEffect (journalAdd s r) r
        | (why, s) =>
          let r := mkRec 1 origin q why 0 (validCount s) cause
          relocateOne fuel fails origin cause l (takeEffect (journalAdd s r) r)

/-- Every logical number that a hole carries moves, in ascending order (03 R78). Fewer than 56 healthy skillets raise
COLANDER_EXHAUSTED (03 R93). -/
def relocateAll (s : State) (fails : Option (List (Pid × Nat))) (origin cause : Nat) : State :=
  let s := (List.finRange 56).foldl (fun t l => relocateOne 64 fails origin cause l t) s
  if s.col.eff.healthy < 56 then raiseMod s .colanderExhausted (names [s.col.eff.healthy]) else s

/-- A new record for a defect (03 R83, R89, R91): durable in the journal, in force at once or due. -/
def appendRecord (s : State) (kind origin : Nat) (p : Pid) (a b cause : Nat) : State :=
  let r := mkRec kind origin p a b (validCount s) cause
  let now := effectNow s p
  let s := journalAdd s r
  if now then
    let s := takeEffect s r
    if kind = 1 then relocateAll s none origin cause else s
  else { s with col := { s.col with due := s.col.due ++ [r] } }

/-- Whether a record names the supply of a region as isolated (03 R74, R84). -/
def isolationNamed (rs : List ColRec) (p : Pid) : Bool := rs.any (fun r => r.kind == 1 && r.pid == p && r.a == 4)

/-- Whether the journal, the base colander or what is due names a HOLE for a skillet. -/
def holeNamed (s : State) (p : Pid) : Bool :=
  s.isHole p || s.col.due.any (fun r => r.kind == 1 && r.pid == p)

/-- The bad columns of a griddle that are in force or due. -/
def badCols (s : State) (p : Pid) (g : Fin 4) : List Nat :=
  (s.col.due.filter (fun r => r.kind == 2 && r.pid == p && r.a == g.val)).foldl (fun c r => insertNat c r.b)
    (vget (s.skCol p).cols g)

/-- The retired banks of a skillet that are in force or due. -/
def badBanks (s : State) (p : Pid) : List Nat :=
  (s.col.due.filter (fun r => r.kind == 3 && r.pid == p)).foldl (fun c r => insertNat c r.a) (s.skCol p).banks

/-- A suspect column (04 R129): a COLUMN record, or a HOLE record with reason 0x02 for a ninth column (03 R80). -/
def suspectColumn (s : State) (p : Pid) (g : Fin 4) (col : Nat) : State :=
  let s := raiseSk s p g.val .columnSuspect (names [col])
  let bad := badCols s p g
  if bad.contains col then s
  else if 8 ≤ bad.length then
    (if holeNamed s p then s else appendRecord s 1 2 p 2 0 Ev.columnSuspect.code)
  else appendRecord s 2 2 p g.val col Ev.columnSuspect.code

/-- A bank to retire (06 R182): a BANK record, or a HOLE record with reason 0x03 for a seventeenth (03 R82). A bank that
a BANK record names already, or that the HOLE record stands for, raises nothing. -/
def retireBank (s : State) (p : Pid) (bank : Nat) : State :=
  let bad := badBanks s p
  if bad.contains bank || (s.pn p).asked.contains bank then s
  else
    let s := raiseSk s p 5 .bankRetireRequest (names [bank])
    if 16 ≤ bad.length then
      let s := s.modPn p (fun k => { k with asked := insertNat k.asked bank })
      (if holeNamed s p then s else appendRecord s 1 2 p 3 0 Ev.bankRetireRequest.code)
    else appendRecord s 3 2 p bank 0 Ev.bankRetireRequest.code

/-- The records that are due take effect (03 R89), then the holes' logical numbers move (R77, R78). -/
def applyDue (s : State) (fails : Option (List (Pid × Nat))) (origin cause : Nat) : State :=
  let due := s.col.due
  let s := { s with col := { s.col with due := [] } }
  let s := due.foldl takeEffect s
  if due.any (fun r => r.kind == 1) then relocateAll s fails origin cause else s

end Sys2Proof.Machine
end

