-- ==== Sys2Proof/Machine/OdTable.lean ====
section
/-! DEFINITION. Machine/OdTable.lean: the object dictionary's entries (17 R490, R491): index, sub-indices, type code,
value length in bytes, access kind and Write class, as the chapters' tables list them (02 R70, 03 R96, 06 R186, 10 R322,
11 R360, 12 R399, 13 R415, 14 R445, 15 R469, 16 R489, 17 R511, R514). -/

namespace Sys2Proof.Machine

/-- The access kind of an entry (17 R491). -/
inductive OdAcc where
  | ro | rw | wo | rwService | const_
  deriving DecidableEq, Repr

/-- An entry of the object dictionary: its index, its sub-indices from `lo` to `hi`, its type code, the length of its
value (0 for a STR), its access kind and its Write class. -/
structure OdEntry where
  index : Nat
  lo : Nat
  hi : Nat
  typ : Nat
  len : Nat
  acc : OdAcc
  cls : Access
  deriving DecidableEq, Repr

/-- Entries 1000 to 1FFF. -/
def odRange1 : List OdEntry :=
  [⟨0x1000, 0x01, 0x01, 9, 0, .const_, .service⟩,
   ⟨0x1000, 0x02, 0x02, 9, 0, .const_, .service⟩,
   ⟨0x1000, 0x03, 0x03, 9, 0, .const_, .service⟩,
   ⟨0x1000, 0x04, 0x04, 9, 0, .const_, .service⟩,
   ⟨0x1000, 0x05, 0x05, 4, 4, .const_, .service⟩,
   ⟨0x1000, 0x06, 0x06, 3, 2, .const_, .service⟩,
   ⟨0x1001, 0x00, 0x1F, 9, 0, .ro, .service⟩,
   ⟨0x1002, 0x00, 0x0F, 9, 0, .ro, .service⟩,
   ⟨0x1100, 0x01, 0x01, 3, 2, .rw, .scheduler⟩,
   ⟨0x1100, 0x02, 0x02, 2, 1, .ro, .service⟩,
   ⟨0x1101, 0x00, 0x01, 10, 6, .const_, .service⟩,
   ⟨0x1102, 0x00, 0x01, 10, 40, .rw, .operator⟩,
   ⟨0x1103, 0x01, 0x01, 3, 2, .const_, .service⟩,
   ⟨0x1104, 0x01, 0x01, 2, 1, .ro, .service⟩,
   ⟨0x1104, 0x02, 0x02, 2, 1, .ro, .service⟩,
   ⟨0x1105, 0x01, 0x06, 5, 8, .ro, .service⟩,
   ⟨0x1200, 0x01, 0x01, 2, 1, .ro, .service⟩,
   ⟨0x1200, 0x02, 0x02, 2, 1, .wo, .operator⟩,
   ⟨0x1200, 0x03, 0x03, 3, 2, .ro, .service⟩,
   ⟨0x1200, 0x04, 0x04, 2, 1, .ro, .service⟩,
   ⟨0x1200, 0x05, 0x05, 11, 10, .ro, .service⟩]

/-- Entries 2000 to 2FFF. -/
def odRange2 : List OdEntry :=
  [⟨0x2000, 0x01, 0x01, 2, 1, .ro, .service⟩,
   ⟨0x2000, 0x02, 0x02, 2, 1, .ro, .service⟩,
   ⟨0x2000, 0x03, 0x03, 2, 1, .ro, .service⟩,
   ⟨0x2000, 0x04, 0x04, 2, 1, .const_, .service⟩,
   ⟨0x2000, 0x05, 0x05, 3, 2, .const_, .service⟩,
   ⟨0x2000, 0x06, 0x06, 2, 1, .const_, .service⟩,
   ⟨0x2000, 0x07, 0x07, 3, 2, .ro, .service⟩,
   ⟨0x2000, 0x08, 0x08, 3, 2, .const_, .service⟩,
   ⟨0x2000, 0x09, 0x09, 2, 1, .rw, .operator⟩,
   ⟨0x2001, 0x00, 0x37, 2, 1, .ro, .service⟩,
   ⟨0x2002, 0x00, 0x3F, 5, 8, .ro, .service⟩,
   ⟨0x2003, 0x00, 0x3F, 10, 128, .ro, .service⟩,
   ⟨0x2004, 0x00, 0x3F, 10, 32, .ro, .service⟩,
   ⟨0x2005, 0x01, 0x01, 3, 2, .rw, .observer⟩,
   ⟨0x2005, 0x02, 0x02, 10, 16, .ro, .service⟩,
   ⟨0x2006, 0x01, 0x01, 2, 1, .rwService, .service⟩,
   ⟨0x2100, 0x01, 0x01, 5, 8, .rw, .scheduler⟩,
   ⟨0x2100, 0x02, 0x02, 10, 4096, .wo, .scheduler⟩,
   ⟨0x2100, 0x03, 0x03, 2, 1, .wo, .scheduler⟩,
   ⟨0x2100, 0x04, 0x04, 3, 2, .ro, .service⟩,
   ⟨0x2100, 0x05, 0x05, 1, 1, .ro, .service⟩,
   ⟨0x2100, 0x06, 0x06, 10, 64, .ro, .service⟩,
   ⟨0x2101, 0x01, 0x01, 5, 8, .rw, .scheduler⟩,
   ⟨0x2101, 0x02, 0x02, 5, 8, .rw, .scheduler⟩,
   ⟨0x2102, 0x01, 0x01, 5, 8, .rw, .scheduler⟩,
   ⟨0x2102, 0x02, 0x02, 10, 4096, .wo, .scheduler⟩,
   ⟨0x2102, 0x03, 0x03, 5, 8, .ro, .service⟩]

/-- Entries 3000 to 3FFF. -/
def odRange3 : List OdEntry :=
  [⟨0x3000, 0x01, 0x01, 3, 2, .rw, .operator⟩,
   ⟨0x3000, 0x02, 0x02, 3, 2, .ro, .service⟩,
   ⟨0x3000, 0x03, 0x03, 2, 1, .ro, .service⟩,
   ⟨0x3000, 0x04, 0x04, 2, 1, .rw, .operator⟩,
   ⟨0x3000, 0x05, 0x05, 4, 4, .ro, .service⟩,
   ⟨0x3000, 0x06, 0x06, 4, 4, .ro, .service⟩,
   ⟨0x3000, 0x07, 0x07, 4, 4, .ro, .service⟩,
   ⟨0x3000, 0x08, 0x08, 4, 4, .ro, .service⟩,
   ⟨0x3000, 0x09, 0x09, 1, 1, .ro, .service⟩,
   ⟨0x3000, 0x0A, 0x0A, 5, 8, .ro, .service⟩,
   ⟨0x3001, 0x00, 0x0F, 3, 2, .rw, .scheduler⟩,
   ⟨0x3002, 0x00, 0x3F, 10, 104, .ro, .service⟩,
   ⟨0x3003, 0x01, 0x01, 4, 4, .ro, .service⟩,
   ⟨0x3100, 0x01, 0x01, 2, 1, .rw, .operator⟩,
   ⟨0x3100, 0x02, 0x02, 2, 1, .const_, .service⟩,
   ⟨0x3100, 0x03, 0x03, 2, 1, .const_, .service⟩,
   ⟨0x3100, 0x04, 0x04, 4, 4, .rw, .operator⟩,
   ⟨0x3100, 0x05, 0x05, 2, 1, .ro, .service⟩,
   ⟨0x3100, 0x06, 0x06, 2, 1, .ro, .service⟩,
   ⟨0x3100, 0x07, 0x07, 2, 1, .ro, .service⟩,
   ⟨0x3101, 0x00, 0x3F, 2, 1, .ro, .service⟩,
   ⟨0x3102, 0x00, 0x03, 2, 1, .ro, .service⟩,
   ⟨0x3103, 0x01, 0x01, 3, 2, .ro, .service⟩,
   ⟨0x3103, 0x02, 0x02, 3, 2, .ro, .service⟩,
   ⟨0x3104, 0x01, 0x01, 4, 4, .ro, .service⟩,
   ⟨0x3104, 0x02, 0x02, 4, 4, .ro, .service⟩,
   ⟨0x3200, 0x01, 0x01, 2, 1, .rw, .operator⟩,
   ⟨0x3200, 0x02, 0x02, 2, 1, .rw, .operator⟩,
   ⟨0x3200, 0x03, 0x03, 2, 1, .ro, .service⟩,
   ⟨0x3200, 0x04, 0x04, 11, 10, .ro, .service⟩,
   ⟨0x3200, 0x05, 0x05, 5, 8, .wo, .scheduler⟩,
   ⟨0x3200, 0x06, 0x06, 4, 4, .ro, .service⟩,
   ⟨0x3200, 0x07, 0x07, 7, 8, .ro, .service⟩,
   ⟨0x3200, 0x08, 0x08, 5, 8, .ro, .service⟩,
   ⟨0x3201, 0x01, 0x06, 4, 4, .ro, .service⟩,
   ⟨0x3201, 0x07, 0x07, 4, 4, .ro, .service⟩,
   ⟨0x3202, 0x01, 0x01, 2, 1, .rw, .scheduler⟩,
   ⟨0x3202, 0x02, 0x02, 3, 2, .rw, .scheduler⟩,
   ⟨0x3202, 0x03, 0x03, 4, 4, .ro, .service⟩,
   ⟨0x3202, 0x04, 0x04, 4, 4, .ro, .service⟩,
   ⟨0x3202, 0x05, 0x05, 4, 4, .ro, .service⟩,
   ⟨0x3202, 0x06, 0x06, 4, 4, .ro, .service⟩,
   ⟨0x3202, 0x07, 0x07, 5, 8, .wo, .scheduler⟩,
   ⟨0x3203, 0x01, 0x01, 4, 4, .ro, .service⟩,
   ⟨0x3203, 0x02, 0x02, 4, 4, .ro, .service⟩,
   ⟨0x3203, 0x03, 0x03, 5, 8, .ro, .service⟩,
   ⟨0x3210, 0x00, 0x3F, 10, 16, .rw, .scheduler⟩]

/-- Entries 4000 to 4FFF. -/
def odRange4 : List OdEntry :=
  [⟨0x4000, 0x01, 0x01, 2, 1, .ro, .service⟩,
   ⟨0x4001, 0x00, 0x1F, 5, 8, .ro, .service⟩,
   ⟨0x4002, 0x00, 0x1F, 10, 128, .ro, .service⟩,
   ⟨0x4003, 0x00, 0x1F, 1, 1, .rw, .operator⟩,
   ⟨0x4004, 0x00, 0x1F, 10, 128, .ro, .service⟩,
   ⟨0x4005, 0x00, 0x1F, 10, 52, .ro, .service⟩,
   ⟨0x4010, 0x00, 0x0F, 4, 4, .ro, .service⟩,
   ⟨0x4011, 0x00, 0x0F, 1, 1, .rw, .operator⟩,
   ⟨0x4012, 0x01, 0x01, 8, 4, .rw, .operator⟩,
   ⟨0x4100, 0x01, 0x01, 2, 1, .rw, .scheduler⟩,
   ⟨0x4100, 0x02, 0x02, 2, 1, .rw, .scheduler⟩,
   ⟨0x4100, 0x03, 0x03, 1, 1, .rw, .scheduler⟩,
   ⟨0x4100, 0x04, 0x04, 5, 8, .rw, .scheduler⟩,
   ⟨0x4100, 0x05, 0x05, 1, 1, .rw, .scheduler⟩,
   ⟨0x4101, 0x01, 0x01, 3, 2, .ro, .service⟩,
   ⟨0x4101, 0x02, 0x02, 1, 1, .ro, .service⟩,
   ⟨0x4101, 0x03, 0x03, 3, 2, .wo, .scheduler⟩,
   ⟨0x4102, 0x00, 0x03, 10, 36, .ro, .service⟩,
   ⟨0x4104, 0x01, 0x01, 5, 8, .ro, .service⟩,
   ⟨0x4104, 0x02, 0x02, 5, 8, .ro, .service⟩]

/-- Entries 5000 to 5FFF. -/
def odRange5 : List OdEntry :=
  [⟨0x5000, 0x01, 0x01, 5, 8, .const_, .service⟩,
   ⟨0x5000, 0x02, 0x02, 5, 8, .const_, .service⟩,
   ⟨0x5000, 0x03, 0x03, 3, 2, .const_, .service⟩,
   ⟨0x5000, 0x04, 0x04, 5, 8, .ro, .service⟩,
   ⟨0x5000, 0x05, 0x05, 3, 2, .rw, .operator⟩,
   ⟨0x5001, 0x00, 0x1F, 5, 8, .ro, .service⟩,
   ⟨0x5002, 0x00, 0x1F, 10, 104, .ro, .service⟩,
   ⟨0x5003, 0x00, 0x0F, 10, 16, .ro, .service⟩,
   ⟨0x5004, 0x01, 0x01, 4, 4, .ro, .service⟩,
   ⟨0x5004, 0x02, 0x02, 4, 4, .ro, .service⟩,
   ⟨0x5004, 0x03, 0x03, 3, 2, .ro, .service⟩,
   ⟨0x5005, 0x01, 0x01, 3, 2, .ro, .service⟩,
   ⟨0x5010, 0x01, 0x01, 2, 1, .rw, .scheduler⟩,
   ⟨0x5010, 0x02, 0x02, 8, 4, .rw, .scheduler⟩,
   ⟨0x5010, 0x03, 0x03, 4, 4, .rw, .scheduler⟩,
   ⟨0x5010, 0x04, 0x04, 2, 1, .rw, .scheduler⟩,
   ⟨0x5010, 0x05, 0x05, 4, 4, .rw, .scheduler⟩,
   ⟨0x5010, 0x06, 0x06, 8, 4, .rw, .scheduler⟩,
   ⟨0x5010, 0x07, 0x07, 8, 4, .rw, .scheduler⟩,
   ⟨0x5010, 0x08, 0x08, 8, 4, .rw, .scheduler⟩,
   ⟨0x5010, 0x09, 0x09, 8, 4, .rw, .scheduler⟩,
   ⟨0x5010, 0x0A, 0x0A, 8, 4, .rw, .scheduler⟩,
   ⟨0x5010, 0x0B, 0x0B, 8, 4, .rw, .scheduler⟩,
   ⟨0x5010, 0x0C, 0x0C, 1, 1, .rw, .scheduler⟩,
   ⟨0x5010, 0x0D, 0x0D, 8, 4, .rw, .scheduler⟩,
   ⟨0x5010, 0x0E, 0x0E, 1, 1, .rw, .scheduler⟩,
   ⟨0x5010, 0x10, 0x13, 8, 4, .rw, .scheduler⟩,
   ⟨0x5010, 0x14, 0x17, 8, 4, .rw, .scheduler⟩,
   ⟨0x5010, 0x20, 0x20, 5, 8, .rw, .scheduler⟩,
   ⟨0x5010, 0x21, 0x21, 1, 1, .ro, .service⟩,
   ⟨0x5011, 0x00, 0x3F, 5, 8, .rw, .scheduler⟩,
   ⟨0x5020, 0x00, 0x1F, 10, 40, .ro, .service⟩,
   ⟨0x5040, 0x01, 0x01, 10, 16, .ro, .service⟩,
   ⟨0x5040, 0x02, 0x02, 5, 8, .ro, .service⟩,
   ⟨0x5040, 0x03, 0x03, 5, 8, .ro, .service⟩,
   ⟨0x5100, 0x01, 0x01, 3, 2, .rw, .operator⟩,
   ⟨0x5100, 0x02, 0x02, 5, 8, .const_, .service⟩,
   ⟨0x5100, 0x03, 0x03, 4, 4, .const_, .service⟩,
   ⟨0x5100, 0x04, 0x04, 5, 8, .ro, .service⟩,
   ⟨0x5100, 0x05, 0x05, 5, 8, .ro, .service⟩,
   ⟨0x5101, 0x00, 0x3F, 5, 8, .ro, .service⟩,
   ⟨0x5102, 0x00, 0x3F, 10, 120, .ro, .service⟩,
   ⟨0x5103, 0x00, 0x3F, 10, 120, .ro, .service⟩,
   ⟨0x5104, 0x00, 0x3F, 10, 56, .ro, .service⟩,
   ⟨0x5105, 0x00, 0x3F, 10, 16, .ro, .service⟩,
   ⟨0x5106, 0x00, 0x3F, 10, 1024, .ro, .service⟩,
   ⟨0x5107, 0x01, 0x01, 2, 1, .rw, .observer⟩,
   ⟨0x5107, 0x02, 0x02, 3, 2, .rw, .observer⟩,
   ⟨0x5107, 0x03, 0x03, 10, 16, .ro, .service⟩]

/-- Entries 6000 to 6FFF. -/
def odRange6 : List OdEntry :=
  [⟨0x6000, 0x01, 0x01, 8, 4, .rw, .operator⟩,
   ⟨0x6000, 0x02, 0x02, 3, 2, .rw, .operator⟩,
   ⟨0x6001, 0x01, 0x01, 3, 2, .ro, .service⟩,
   ⟨0x6001, 0x02, 0x02, 5, 8, .ro, .service⟩,
   ⟨0x6001, 0x03, 0x03, 2, 1, .ro, .service⟩,
   ⟨0x6001, 0x04, 0x04, 3, 2, .ro, .service⟩,
   ⟨0x6001, 0x05, 0x05, 3, 2, .ro, .service⟩,
   ⟨0x6001, 0x06, 0x06, 3, 2, .ro, .service⟩,
   ⟨0x6001, 0x07, 0x07, 5, 8, .ro, .service⟩,
   ⟨0x6002, 0x01, 0x01, 3, 2, .rw, .observer⟩,
   ⟨0x6002, 0x02, 0x02, 10, 16, .ro, .service⟩,
   ⟨0x6002, 0x03, 0x03, 10, 512, .ro, .service⟩,
   ⟨0x6002, 0x04, 0x04, 5, 8, .ro, .service⟩,
   ⟨0x6100, 0x01, 0x01, 8, 4, .rw, .operator⟩,
   ⟨0x6100, 0x02, 0x02, 3, 2, .rw, .operator⟩,
   ⟨0x6100, 0x03, 0x03, 3, 2, .ro, .service⟩,
   ⟨0x6100, 0x04, 0x04, 2, 1, .ro, .service⟩,
   ⟨0x6100, 0x05, 0x05, 8, 4, .ro, .service⟩,
   ⟨0x6100, 0x06, 0x06, 8, 4, .ro, .service⟩,
   ⟨0x6100, 0x07, 0x07, 8, 4, .ro, .service⟩,
   ⟨0x6100, 0x08, 0x08, 5, 8, .ro, .service⟩,
   ⟨0x6100, 0x09, 0x09, 2, 1, .ro, .service⟩,
   ⟨0x6100, 0x0A, 0x0A, 5, 8, .ro, .service⟩,
   ⟨0x6100, 0x0B, 0x0B, 5, 8, .ro, .service⟩,
   ⟨0x6101, 0x01, 0x01, 1, 1, .rw, .operator⟩,
   ⟨0x6101, 0x02, 0x02, 3, 2, .rw, .operator⟩,
   ⟨0x6102, 0x01, 0x01, 4, 4, .rw, .operator⟩,
   ⟨0x6102, 0x02, 0x02, 5, 8, .rw, .operator⟩,
   ⟨0x6103, 0x01, 0x01, 3, 2, .ro, .service⟩,
   ⟨0x6103, 0x02, 0x02, 3, 2, .rw, .observer⟩,
   ⟨0x6103, 0x03, 0x03, 10, 16, .ro, .service⟩,
   ⟨0x6104, 0x00, 0x1F, 5, 8, .ro, .service⟩,
   ⟨0x6105, 0x01, 0x01, 2, 1, .rw, .scheduler⟩,
   ⟨0x6106, 0x01, 0x01, 5, 8, .ro, .service⟩,
   ⟨0x6106, 0x02, 0x02, 5, 8, .ro, .service⟩,
   ⟨0x6106, 0x03, 0x03, 5, 8, .ro, .service⟩,
   ⟨0x6106, 0x04, 0x04, 5, 8, .ro, .service⟩,
   ⟨0x6106, 0x05, 0x05, 5, 8, .ro, .service⟩,
   ⟨0x6106, 0x06, 0x06, 5, 8, .ro, .service⟩,
   ⟨0x6106, 0x07, 0x07, 5, 8, .ro, .service⟩,
   ⟨0x6106, 0x08, 0x08, 5, 8, .ro, .service⟩,
   ⟨0x6106, 0x09, 0x09, 5, 8, .ro, .service⟩]

/-- Entries 7000 to 7FFF. -/
def odRange7 : List OdEntry :=
  [⟨0x7000, 0x01, 0x01, 5, 8, .ro, .service⟩,
   ⟨0x7000, 0x02, 0x02, 4, 4, .const_, .service⟩,
   ⟨0x7000, 0x03, 0x03, 5, 8, .rw, .observer⟩,
   ⟨0x7000, 0x04, 0x04, 10, 40, .ro, .service⟩,
   ⟨0x7000, 0x05, 0x05, 5, 8, .ro, .service⟩,
   ⟨0x7000, 0x06, 0x06, 5, 8, .rw, .observer⟩,
   ⟨0x7000, 0x07, 0x07, 10, 40, .ro, .service⟩,
   ⟨0x7001, 0x01, 0x01, 2, 1, .ro, .service⟩,
   ⟨0x7001, 0x02, 0x02, 2, 1, .wo, .operator⟩,
   ⟨0x7010, 0x01, 0x01, 10, 32, .ro, .service⟩,
   ⟨0x7011, 0x01, 0x01, 2, 1, .rw, .operator⟩,
   ⟨0x7011, 0x02, 0x02, 4, 4, .ro, .service⟩,
   ⟨0x7100, 0x01, 0x01, 5, 8, .ro, .service⟩,
   ⟨0x7100, 0x02, 0x02, 5, 8, .ro, .service⟩,
   ⟨0x7100, 0x03, 0x03, 5, 8, .ro, .service⟩,
   ⟨0x7100, 0x04, 0x04, 5, 8, .ro, .service⟩,
   ⟨0x7100, 0x05, 0x05, 10, 32, .ro, .service⟩,
   ⟨0x7100, 0x06, 0x06, 5, 8, .ro, .service⟩,
   ⟨0x7100, 0x07, 0x07, 10, 24, .ro, .service⟩,
   ⟨0x7100, 0x08, 0x08, 10, 24, .ro, .service⟩,
   ⟨0x7100, 0x09, 0x09, 10, 24, .ro, .service⟩,
   ⟨0x7100, 0x0A, 0x0A, 10, 16, .ro, .service⟩,
   ⟨0x7100, 0x0B, 0x0B, 10, 32, .ro, .service⟩]

/-- Entries 8000 to 8FFF. -/
def odRange8 : List OdEntry :=
  [⟨0x8000, 0x01, 0x01, 10, 2048, .const_, .service⟩,
   ⟨0x8000, 0x02, 0x02, 10, 4096, .const_, .service⟩,
   ⟨0x8000, 0x03, 0x03, 10, 64, .const_, .service⟩,
   ⟨0x8001, 0x00, 0x07, 10, 64, .ro, .service⟩,
   ⟨0x8002, 0x01, 0x01, 10, 32, .wo, .observer⟩,
   ⟨0x8002, 0x02, 0x02, 10, 680, .ro, .service⟩,
   ⟨0x8003, 0x01, 0x01, 4, 4, .ro, .service⟩,
   ⟨0x8003, 0x02, 0x02, 2, 1, .ro, .service⟩,
   ⟨0x8003, 0x03, 0x03, 2, 1, .ro, .service⟩,
   ⟨0x8003, 0x04, 0x04, 2, 1, .ro, .service⟩,
   ⟨0x8003, 0x05, 0x05, 10, 32, .ro, .service⟩,
   ⟨0x8003, 0x06, 0x06, 5, 8, .ro, .service⟩,
   ⟨0x8004, 0x01, 0x01, 5, 8, .rw, .operator⟩,
   ⟨0x8004, 0x02, 0x02, 10, 4096, .wo, .operator⟩,
   ⟨0x8004, 0x03, 0x03, 2, 1, .wo, .operator⟩,
   ⟨0x8004, 0x04, 0x04, 3, 2, .ro, .service⟩,
   ⟨0x8005, 0x01, 0x01, 10, 96, .rwService, .service⟩,
   ⟨0x8005, 0x02, 0x02, 10, 64, .ro, .service⟩,
   ⟨0x8007, 0x01, 0x01, 1, 1, .ro, .service⟩,
   ⟨0x8007, 0x02, 0x02, 10, 64, .ro, .service⟩,
   ⟨0x8007, 0x03, 0x03, 2, 1, .ro, .service⟩,
   ⟨0x8007, 0x04, 0x04, 5, 8, .ro, .service⟩,
   ⟨0x8008, 0x01, 0x01, 2, 1, .ro, .service⟩]

/-- The entries that the chapters list (17 R517). -/
def odTable : List OdEntry := odRange1 ++ odRange2 ++ odRange3 ++ odRange4 ++ odRange5 ++ odRange6 ++ odRange7 ++ odRange8

end Sys2Proof.Machine
end

