-- ==== Sys2Proof/Machine/Dict.lean ====
section
/-! DEFINITION. Machine/Dict.lean: the dictionary server's shared operations (17 R490-R497, R503, R508): sessions, the
order of the checks, and a WRITE operation with what it leaves behind. -/

namespace Sys2Proof.Machine

/-! ### Values -/

/-- The number that a scalar value spells (17 R490: big-endian). -/
def reqNat (r : Req) : Nat := beNat r.value

/-- The binary32 pattern of an F32 value. -/
def reqF32 (r : Req) : W32 := BitVec.ofNat 32 (reqNat r)

/-- The status of an F32 value against a closed range (17 R495): a NaN or an infinity first. -/
def f32Range (v : W32) (lo hi : Num) : Nat :=
  if !(f32num v).isFin then stInconsistent
  else if Num.lt (f32num v) lo then stBelow else if Num.lt hi (f32num v) then stAbove else 0

/-- The status of an integer against a closed range. -/
def natRange (v lo hi : Nat) : Nat := if v < lo then stBelow else if hi < v then stAbove else 0

/-- An accepted write: status 0 and the new state. A refused one leaves the state. -/
def accept (st : Nat) (s s' : State) : Nat × State := if st = 0 then (0, s') else (st, s)

/-! ### Sessions -/

/-- Whether the steward's dictionary server answers: it has been started and the module is not held in boot (17 R498,
16 R477). -/
def State.served (s : State) : Bool := !(s.life.st == .off || s.life.st == .stewardBoot)

/-- The session an operation names: the chain's, or an open one (17 R503, R507). -/
def State.session (s : State) (r : Req) : Option Session :=
  if r.via == .chain then (if r.src = 0 then some s.dict.chain else none)
  else s.dict.sessions.find? (fun x => x.open_ && x.num == r.session)

/-! ### Scheduled entries (02 R61, R63, R68) -/

/-- The beat on which an armed entry fires: its TIME, or where a marker moved it. -/
def SchedEntry.fireAt (e : SchedEntry) : Nat := e.moved.getD e.time

/-- Whether any entry is armed. -/
def State.anyArmed (s : State) : Bool := s.sched.entries.toList.any (fun e => e.arm)

/-- Whether an armed entry has fallen due or a window's length has ended: both come before the next beat (02 R63). -/
def State.beatDue (s : State) : Bool :=
  s.sched.entries.toList.any (fun e => e.arm && e.fireAt ≤ s.time.count)
    || s.sched.windows.any (fun w => w.close ≤ s.time.count)

/-- Whether a write reaches a server: the steward's, or in a halted boot the ROM's, which serves the update entries over the
rack chain (16 R479). On the chain it needs an open bypass (17 R502). It comes after what its beat makes due (02 R63). -/
def servedWrite (s : State) (r : Req) (index : Nat) : Bool :=
  (s.served || (s.sec.halted && s.life.st == .stewardBoot && r.via == .chain && index == 0x8004))
    && (r.via != .chain || s.dict.chainState != 0) && !s.beatDue

/-- A session replaced. -/
def State.setSession (s : State) (r : Req) (x : Session) : State :=
  if r.via == .chain then { s with dict := { s.dict with chain := x } }
  else { s with dict := { s.dict with sessions := s.dict.sessions.map (fun y => if y.num = x.num then x else y) } }

/-- The session of an operation changed. -/
def State.modSession (s : State) (r : Req) (f : Session → Session) : State :=
  match s.session r with
  | some x => s.setSession r (f x)
  | none => s

/-- The class in which an operation is served (17 R503, R492). -/
def classOf (s : State) (r : Req) (x : Session) : Access :=
  if r.via == .chain then (if s.life.st == .service then .service else .observer) else x.cls

/-- The order of the classes (17 R492). -/
def accessRank : Access → Nat
  | .observer => 0
  | .operator => 1
  | .scheduler => 2
  | .service => 3

/-- The rank of the Write class of an entry, as the guard tables raise it (16 R481, 17 R492). -/
def writeRank (s : State) (index : Nat) (c : Access) : Nat :=
  s.guard.rights.foldl (fun a g => if g.1 ≤ index && index ≤ g.2.1 then max a (accessRank g.2.2) else a) (accessRank c)

/-- READ_ONLY, WRITE_ONLY, ACCESS_CLASS, LOCKED, NO_SUCH_INDEX, NO_SUCH_SUB, TYPE_MISMATCH, LENGTH (17 R494). -/
def stNoIndex : Nat := 0x0101
/-- NO_SUCH_SUB. -/
def stNoSub : Nat := 0x0102
/-- READ_ONLY. -/
def stReadOnly : Nat := 0x0201
/-- WRITE_ONLY. -/
def stWriteOnly : Nat := 0x0202
/-- ACCESS_CLASS. -/
def stClass : Nat := 0x0203
/-- LOCKED. -/
def stLocked : Nat := 0x0204
/-- TYPE_MISMATCH. -/
def stType : Nat := 0x0301
/-- LENGTH. -/
def stLength : Nat := 0x0302
/-- SIGNATURE. -/
def stSignature : Nat := 0x0501
/-- ROLLBACK. -/
def stRollback : Nat := 0x0502
/-- IDENTITY. -/
def stIdentity : Nat := 0x0503
/-- TIMEOUT. -/
def stTimeout : Nat := 0x0602

/-- Whether an index has an entry, and the entry of a sub-index. -/
def odFind (index sub : Nat) : Bool × Option OdEntry :=
  let es := odTable.filter (fun e => e.index == index)
  (!es.isEmpty, es.find? (fun e => e.lo ≤ sub && sub ≤ e.hi))

/-- Whether the class check passes: COMMAND is also open to the chain for ENTER_SERVICE in AWAIT_ADDRESS (17 R503), and the
update entries in a halted boot (16 R479). -/
def classOk (s : State) (r : Req) (x : Session) (e : OdEntry) : Bool :=
  writeRank s e.index e.cls ≤ accessRank (classOf s r x)
    || (s.sec.halted && r.via == .chain && e.index == 0x8004)
    || (r.via == .chain && e.index == 0x1200 && e.lo == 2 && s.life.st == .awaitAddress && r.value == [5#8])

/-- The checks of R495 on a write, in their order, up to the entry's own (17 R491, R493, R495); 0 where all pass. -/
def writeChecks (s : State) (r : Req) (x : Session) (index sub : Nat) : Nat :=
  if 0x9000 ≤ index && index ≤ 0x9FFF then
    (if s.life.st == .service && classOf s r x == .service then Config.serviceStatus true index sub r.value else stLocked)
  else match odFind index sub with
    | (false, _) => stNoIndex
    | (true, none) => stNoSub
    | (true, some e) =>
      if e.acc == .ro || e.acc == .const_ then stReadOnly
      else if !classOk s r x e then stClass
      else if e.acc == .rwService && s.life.st != .service then stWrongState
      else if r.typ != e.typ then stType
      else if e.typ != 9 && r.value.length != e.len then stLength
      else if e.typ == 1 && 1 < reqNat r then stReserved
      else 0

/-- A frame that the server discards, counted with its first operation (17 R503, R507, R508). -/
def discardFrame (s : State) (r : Req) : State :=
  if r.op != 0 then s
  else if r.via == .chain then { s with dict := { s.dict with chainDiscarded := sat64 s.dict.chainDiscarded 1 } }
  else { s with dict := { s.dict with framesDiscarded := sat64 s.dict.framesDiscarded 1 } }

/-- A frame that arrives, counted with its first operation. -/
def countFrame (s : State) (r : Req) : State :=
  if r.op = 0 && r.via != .chain then { s with dict := { s.dict with framesReceived := sat64 s.dict.framesReceived 1 } } else s

/-- The answer of an operation stored with its request (17 R508). -/
def storeAnswer (s : State) (r : Req) (st : Nat) : State :=
  s.modSession r (fun x => { x with
    lastSeq := r.seq, answers := (if r.seq = x.lastSeq then x.answers else []) ++ [(r.op, st)] })

/-- Whether a request's operation is discarded in its session (17 R507-R509): a wrong tag, or a number below the last
executed one. -/
def opDiscarded (r : Req) (x : Session) : Bool :=
  (r.via != .chain && !r.tagOk) || r.seq < x.lastSeq || r.seq = 0 || 32 ≤ r.op

/-- The status of an operation by its header alone (17 R509): a reserved OP or a non-zero byte 5 is answered with 0x0305,
ahead of the checks of R495. -/
def headerStatus (r : Req) : Nat := if r.opRsv || r.rsv % 256 != 0 then stReserved else 0

/-- An operation of a request (17 R496, R497, R508). A request numbered below the last executed is discarded; an operation
of the last executed one that has an answer is answered again and not executed again. `ap` answers a status, and a state
that counts where that is 0x0000 or 0x0403. -/
def serveOp (s : State) (r : Req) (ap : Session → State → Nat × State) : State :=
  let s := countFrame s r
  match s.session r with
  | none => discardFrame s r
  | some x =>
    if opDiscarded r x then discardFrame s r
    else if r.seq = x.lastSeq && x.answers.any (fun a => a.1 == r.op) then s
    else
      let (st, s') := match headerStatus r with
        | 0 => ap x s
        | st => (st, s)
      let s' := if st = 0 || st = stPending then s'
        else { s with dict := { s.dict with opsRejected := sat64 s.dict.opsRejected 1 } }
      storeAnswer s' r st

/-- A WRITE operation on an entry (17 R495): the checks of R495, then `ap`, the entry's own checks and effect. -/
def serveWrite (s : State) (r : Req) (index sub : Nat) (ap : Req → State → Nat × State) : State :=
  if !servedWrite s r index then s
  else serveOp s r (fun x s => match writeChecks s r x index sub with
    | 0 => ap r s
    | st => (st, s))

end Sys2Proof.Machine
end

