-- ==== Sys2Proof/Machine/LinkOps.lean ====
section
/-! DEFINITION. Machine/LinkOps.lean: the links' shared operations (12): coordinates and bundles, sending a frame, taking
a frame out of a landing store, and a port that fails. -/

namespace Sys2Proof.Machine

/-! ### Ports and the torus -/

/-- A port. -/
def State.port (s : State) (n : Slice) : Port := vget s.links.ports n

/-- The state with a port changed. -/
def State.modPort (s : State) (n : Slice) (f : Port → Port) : State :=
  { s with links := { s.links with ports := vmod s.links.ports n f } }

/-- The torus settings. -/
def State.torus (s : State) : TorusSt := s.links.torus

/-- The state with the torus changed. -/
def State.modTorus (s : State) (f : TorusSt → TorusSt) : State :=
  { s with links := { s.links with torus := f s.links.torus } }

/-- The number of modules M. -/
def TorusSt.modules (t : TorusSt) : Nat := t.x * t.y

/-- Whether a coordinate is held (12 R399: 0xFFFF unknown). -/
def TorusSt.known (t : TorusSt) : Bool := t.coord != 0xFFFF

/-- x and y of the module's coordinate (12 R384: COORD = x + 32y). -/
def TorusSt.cx (t : TorusSt) : Nat := t.coord % 32
/-- y of the module's coordinate. -/
def TorusSt.cy (t : TorusSt) : Nat := t.coord / 32

/-- The shard of a coordinate (01 R44). -/
def TorusSt.shardOf (t : TorusSt) (coord : Nat) : Nat := coord % 32 + t.x * (coord / 32)

/-- The module's own shard (01 R44). -/
def TorusSt.shard (t : TorusSt) : Nat := t.shardOf t.coord

/-- The coordinate of a shard. -/
def TorusSt.coordOf (t : TorusSt) (shard : Nat) : Nat := shard % max 1 t.x + 32 * (shard / max 1 t.x)

/-- A PLOC of a port (15 R450: LP0-LP7 of a rim strip). -/
def portPloc (n : Slice) : Nat := plocRim n 0x10

/-- An event of a port, raised at its rim strip's node. -/
def raisePort (s : State) (n : Slice) (ev : Ev) (data : Nat) : State := raise s (64 + n.val / 8) ev (portPloc n) data

/-! ### Bundles (12 R377-R379) -/

/-- The bundles: +X, -X, +Y, -Y. -/
inductive Bundle where
  | xp | xm | yp | ym
  deriving DecidableEq, Repr

/-- Every bundle in the order of R399. -/
def allBundles : List Bundle := [.xp, .xm, .yp, .ym]

/-- The ports of a side by number: 0 north, 1 east, 2 south, 3 west (00 R4). -/
def sidePorts (side : Nat) : List Slice := (List.range 8).map (fun i => Fin.ofNat 32 (8 * side + i))

/-- The ports of a bundle in its order (12 R377, R378); a bundle that the torus does not use has none. -/
def bundlePorts (t : TorusSt) (b : Bundle) : List Slice :=
  let two := t.double && t.y = 1
  match b with
  | .xp => if t.x ≤ 1 then [] else sidePorts 1 ++ (if two then sidePorts 2 else [])
  | .xm => if t.x ≤ 1 then [] else sidePorts 3 ++ (if two then sidePorts 0 else [])
  | .yp => if t.y ≤ 1 then [] else sidePorts 2
  | .ym => if t.y ≤ 1 then [] else sidePorts 0

/-- Whether the torus uses a bundle. -/
def bundleUsed (t : TorusSt) (b : Bundle) : Bool := !(bundlePorts t b).isEmpty

/-- The bundle of a port, if the torus uses its side. -/
def portBundle (t : TorusSt) (n : Slice) : Option Bundle := allBundles.find? (fun b => (bundlePorts t b).contains n)

/-- The ports of a bundle that are IN_SERVICE, in order: positions 0 to n - 1 (12 R379). -/
def serviceports (s : State) (b : Bundle) : List Slice :=
  (bundlePorts s.torus b).filter (fun n => (s.port n).st == .inService)

/-- The port at a position of a bundle, if any port is in service. -/
def atPosition (s : State) (b : Bundle) (pos : Nat) : Option Slice :=
  let ps := serviceports s b
  ps[pos % max 1 ps.length]?

/-- The coordinate of the neighbour across a bundle (12 R377). -/
def neighbourCoord (t : TorusSt) (b : Bundle) : Nat :=
  let x := t.cx
  let y := t.cy
  match b with
  | .xp => (x + 1) % max 1 t.x + 32 * y
  | .xm => (x + t.x - 1) % max 1 t.x + 32 * y
  | .yp => x + 32 * ((y + 1) % max 1 t.y)
  | .ym => x + 32 * ((y + t.y - 1) % max 1 t.y)

/-- The peer port that R377 and R378 pair with a port: east with west, south with north. -/
def pairedPort (n : Slice) : Nat :=
  match n.val / 8 with
  | 0 => n.val + 16
  | 1 => n.val + 16
  | 2 => n.val - 16
  | _ => n.val - 16

/-- Whether a port's side is unused (12 R378): its ports stay DISABLED. -/
def sideUnused (t : TorusSt) (n : Slice) : Bool := (portBundle t n).isNone

/-! ### Sending (12 R369-R371) -/

/-- The place of a class in arrays. -/
def lclassIx (c : LClass) : Fin 3 :=
  match c with
  | .vermilion => 0
  | .ash => 1
  | _ => 2

/-- The places of a class in a landing store (12 R371). -/
def classPlaces (c : LClass) : Nat :=
  match c with
  | .vermilion => 2048
  | .ash => 512
  | _ => 64

/-- A frame with every field at nothing. -/
def blankContent : Content :=
  { ftype := .neighbour, cls := .control, kind := 0, repoch := 0, step := 0, hop := 0, origin := 0, count := 0, block := 0,
    sub := 0, destX := 0, destY := 0, srcX := 0, srcY := 0, hops := 0, len := 0, region := 0, addr := 0, rkind := 0,
    nport := 0, headers := [], bytes := [] }

/-- A lane of a port. -/
def Port.lane (p : Port) (l : Nat) : Lane := Tab.at p.lanes l {}

/-- A port with a lane replaced. -/
def Port.setLane (p : Port) (l : Nat) (x : Lane) : Port := { p with lanes := Tab.put p.lanes l x }

/-- A lane for the next frame: the one that a free value names, or the next that has room in its replay buffer (12 R366:
a frame is sent whole on one lane; which one is open). -/
def pickLane (p : Port) (start : Nat) : Option Nat :=
  ((List.range 32).map (fun i => (start + i) % 32)).find? (fun l => (p.lane l).replay.length < 64)

/-- A frame put on a lane (12 R369, R370): its credit is used and it stays in the replay buffer. -/
def Port.putOnLane (p : Port) (l : Nat) (c : Content) : Port :=
  let x := p.lane l
  { p.setLane l { x with next := (x.next + 1) % 256, replay := x.replay ++ [⟨x.next, c, 1⟩] } with
    credits := vmod p.credits (lclassIx c.cls) (fun n => n - 1), framesSent := sat64 p.framesSent 1 }

/-- Frames that wait are sent in order within their class, as far as credits and lanes allow (12 R370, R371). -/
def pumpList (p : Port) (start : Nat) (stuck : List LClass) (kept : List Content) : List Content → Port × List Content
  | [] => (p, kept)
  | c :: r =>
    if stuck.contains c.cls || vget p.credits (lclassIx c.cls) = 0 then pumpList p start (c.cls :: stuck) (kept ++ [c]) r
    else match pickLane p start with
      | none => pumpList p start (c.cls :: stuck) (kept ++ [c]) r
      | some l => pumpList (p.putOnLane l c) (start + 1) stuck kept r

/-- The waiting frames of a port are sent as far as may be; the cycles that others wait are timing, free values. -/
def pump (s : State) (n : Slice) : State :=
  let (start, s) := draw s
  let (p, kept) := pumpList (s.port n) (start % 32) [] [] (s.port n).tx
  let s := s.modPort n (fun _ => { p with tx := kept })
  if kept.isEmpty then s
  else
    let (c, s) := draw s
    let (w, s) := draw s
    s.modPort n (fun p => { p with creditStall := sat64 p.creditStall c, windowStall := sat64 p.windowStall w })

/-- Whether a port carries a frame of a type (12 R381): HELLO and the other NEIGHBOUR frames in the lit states, every
other frame in IN_SERVICE. -/
def mayCarry (p : Port) (t : FrameType) : Bool :=
  match t with
  | .neighbour => p.st == .verify || p.st == .held || p.st == .standby || p.st == .inService || p.st == .draining
  | _ => p.st == .inService

/-- A frame sent on a port. -/
def sendFrame (s : State) (n : Slice) (c : Content) : State :=
  if mayCarry (s.port n) c.ftype then pump (s.modPort n (fun p => { p with tx := p.tx ++ [c] })) n else s

/-- A frame sent on a bundle at a position (12 R379). -/
def sendBundle (s : State) (b : Bundle) (pos : Nat) (c : Content) : State :=
  match atPosition s b pos with
  | some n => sendFrame s n c
  | none => s

/-- A NEIGHBOUR frame (12 R384). -/
def sendNeighbour (s : State) (n : Slice) (ntype : Nat) (bytes : List Byte) : State :=
  sendFrame s n { blankContent with kind := ntype, nport := n.val, bytes := bytes }

/-- The ports that carry the beat and NEIGHBOUR broadcasts (12 R376): STANDBY, IN_SERVICE and DRAINING. -/
def livePorts (s : State) : List Slice :=
  (List.finRange 32).filter (fun n => (s.port n).st == .standby || (s.port n).st == .inService || (s.port n).st == .draining)

/-- The bundle of the next hop towards a coordinate (12 R380): along X, then along Y, the shorter way, +X and +Y where
both are equal; none at the destination. -/
def nextHop (t : TorusSt) (dx dy : Nat) : Option Bundle :=
  let way (a b n : Nat) : Bool := (b + n - a) % max 1 n ≤ (a + n - b) % max 1 n
  if t.cx != dx then some (if way t.cx dx t.x then .xp else .xm)
  else if t.cy != dy then some (if way t.cy dy t.y then .yp else .ym)
  else none

/-! ### Taking frames out of a landing store -/

/-- A place of a class freed (12 R371). -/
def freePlace (s : State) (n : Slice) (c : LClass) : State :=
  s.modPort n (fun p => { p with freed := vmod p.freed (lclassIx c) (fun x => x + 1) })

/-- The k-th frame of a landing store. -/
def landed (s : State) (n : Slice) (k : Nat) : Option Content := (s.port n).landing[k]?

/-- The k-th frame leaves the landing store (12 R371). -/
def dropLanded (s : State) (n : Slice) (k : Nat) : State :=
  match landed s n k with
  | none => s
  | some c => freePlace (s.modPort n (fun p => { p with landing := p.landing.eraseIdx k })) n c.cls

/-- A NEIGHBOUR frame of a type at a place of a landing store. -/
def landedNeighbour (s : State) (n : Slice) (k ntype : Nat) : Option Content :=
  (landed s n k).bind (fun c => if c.ftype == .neighbour && c.kind == ntype then some c else none)

/-- A reduction frame of a kind at a place of a landing store. -/
def landedReduce (s : State) (n : Slice) (k : Nat) (kinds : List Nat) : Option Content :=
  (landed s n k).bind (fun c => if c.ftype == .reduce && kinds.contains c.kind then some c else none)

/-- A recovery frame of a kind at a place of a landing store (15 R456). -/
def landedRecovery (s : State) (n : Slice) (k rkind : Nat) : Option Content :=
  (landed s n k).bind (fun c => if c.ftype == .routed && c.kind == 2 && c.rkind == rkind then some c else none)

/-! ### Failures (12 R373, R381, R387, R388) -/

/-- A port with its lanes, stores and exchanges cleared, as it leaves the lit states. -/
def Port.cleared (p : Port) : Port :=
  { p with
    lanes := [], landing := [], tx := [], joinSent := false, joinGot := false, lastSent := false, lastGot := false,
    peerPort := none, peerCoord := none, peerExpects := none }

/-- Whether the replay buffers or the landing store of a port hold a vermilion or an ash frame (12 R387). -/
def holdsTraffic (p : Port) : Bool :=
  let data (c : Content) : Bool := c.cls == .vermilion || c.cls == .ash
  p.landing.any data || p.lanes.any (fun e => e.2.replay.any (fun k => data k.content))

/-- The frames that wait at a port that has failed, of which no lane has sent any, go out on the ports that its bundle has
left (12 R379, R387: n is one smaller). DESIGN CHOICE, log 69. -/
def resend (s : State) (n : Slice) (waiting : List Content) : State :=
  match portBundle s.torus n with
  | none => s
  | some b => (waiting.filter (fun c => c.ftype != .neighbour)).foldl (fun t c => sendBundle t b n.val c) s

/-- BUNDLE_DOWN where a used bundle has just lost its last port in service (12 R388). -/
def bundleCheck (s : State) (n : Slice) (was : Bool) : State :=
  match portBundle s.torus n with
  | none => s
  | some b => if was && (serviceports s b).isEmpty then raisePort s n .bundleDown (names [n.val]) else s

/-- A port is HELD as RETIRED (12 R381). -/
def retirePort (s : State) (n : Slice) : State :=
  raisePort (s.modPort n (fun p => { p.cleared with st := .held, heldReason := 4 })) n .portRetired (names [n.val])

/-- A port fails (12 R373, R387, R388): it leaves its bundle; PORT_FAILED is CONTAINED where it held traffic. The fourth
failure within 2^32 bt retires it (R381). -/
def failPort (s : State) (n : Slice) : State :=
  let p := s.port n
  let was := p.st == .inService
  let cls : EvClass := if holdsTraffic p then .contained else .notice
  let recent := (p.fails.filter (fun t => s.time.ticks < t + 2 ^ 32)) ++ [s.time.ticks]
  let s := s.modPort n (fun p => { p.cleared with st := .failed, failures := sat64 p.failures 1, fails := recent })
  let s := raiseAs s (64 + n.val / 8) Ev.portFailed.code cls (portPloc n) (names [n.val])
  let s := bundleCheck (resend s n p.tx) n was
  if 4 ≤ recent.length then retirePort s n else s

/-- Whether a port is in a state whose lanes hold lock, so that a lane of it can fail. -/
def Port.lit (p : Port) : Bool :=
  p.st == .verify || p.st == .held || p.st == .standby || p.st == .inService || p.st == .draining

end Sys2Proof.Machine
end

