-- ==== Sys2Proof/Machine/Life.lean ====
section
/-! DEFINITION. Machine/Life.lean: the lifecycle's shared operations (17 R498-R500): a change of state with its event,
the states that a module passes straight through, and the end of a pending command. -/

namespace Sys2Proof.Machine

/-- The code of a lifecycle state (17 R498). -/
def lifeCode : Life → Nat
  | .off => 0
  | .stewardBoot => 1
  | .selfTest => 2
  | .awaitAddress => 3
  | .linkUp => 4
  | .joined => 5
  | .ready => 6
  | .running => 7
  | .paused => 8
  | .recovering => 9
  | .service => 10
  | .quarantined => 11

/-- One change of the lifecycle state (17 R498): STATE_CHANGED carries the old and the new code, STATE_SINCE the entry. -/
def changeLife (s : State) (l : Life) : State :=
  let old := s.life.st
  if old == l then s
  else
    let s := raiseMod { s with life := { s.life with st := l } } .stateChanged (lifeCode old * 256 + lifeCode l)
    { s with life := { s.life with since := s.cbc } }

/-- JOINED with a locked beat leads on to READY (02 R57, 17 R498). -/
def lockedReady (s : State) : State :=
  if s.life.st == .joined && s.time.lock == .locked then changeLife s .ready else s

/-- A change of the lifecycle state with the states it passes straight through: AWAIT_ADDRESS with a node identifier, and
JOINED with the beat locked (17 R498). -/
def setLife (s : State) (l : Life) : State :=
  let s := changeLife s l
  let s := if s.life.st == .awaitAddress && s.dict.nodeId != 0xFFFF then changeLife s .linkUp else s
  lockedReady s

/-- A pending command ends with its final status (17 R499). -/
def endCommand (s : State) (status : Nat) : State :=
  { s with life := { s.life with held := none, commandStatus := status } }

/-- Whether the module is RUNNING or PAUSED. -/
def State.runningOrPaused (s : State) : Bool := s.life.st == .running || s.life.st == .paused

end Sys2Proof.Machine
end

