-- ==== Sys2Proof/Machine/PantryOps.lean ====
section
/-! DEFINITION. Machine/PantryOps.lean: the shared operations on pantry (06): addresses, reads and writes with their
protection and counters, and the slot state machine. Masters are numbered in the order of R159 and R184: 0-3 griddles,
4 whisk, 5-12 ladles, 13 mesh port, 14 sequencer. -/

namespace Sys2Proof.Machine

/-- The first address beyond the logical pantry (06 R156). -/
def paLimit : Nat := 0x1E000000

/-- The shelf of an address (06 R155). -/
def shelfOf (a : Nat) : Nat := a / 2 ^ 25

/-- The logical bank of an address (06 R155). -/
def logBank (a : Nat) : Nat := 16 * shelfOf a + (bits a 12 9 ^^^ bits a 16 13)

/-- The word within the bank (06 R155). -/
def bankWord (a : Nat) : Nat := bits a 24 13

/-- The physical bank of an address in a skillet (03 R81). -/
def physBankOf (s : State) (p : Pid) (a : Nat) : Nat := physBank (s.skCol p).banks (logBank a)

/-- The state of a shelf; a number above 14 is none. -/
def Pantry.shelf (k : Pantry) (n : Nat) : ShelfState := if h : n < 15 then (vget k.shelves ⟨n, h⟩).st else .off

/-- The shelves that a range touches. -/
def rangeShelves (a len : Nat) : List Nat :=
  if len = 0 then [] else (List.range (shelfOf (a + len - 1) + 1 - shelfOf a)).map (fun i => shelfOf a + i)

/-- Whether every shelf that a range touches is OPEN. -/
def rangeOpen (k : Pantry) (a len : Nat) : Bool := (rangeShelves a len).all (fun n => k.shelf n == .opened)

/-- The accesses of at most 512 bytes that a range takes: first byte and length of each. -/
def accessParts (a len : Nat) : List (Nat × Nat) :=
  (List.range ((len + 511) / 512)).map (fun i => (a + 512 * i, min 512 (len - 512 * i)))

/-- Whether an access spans two bank words (06 R158). -/
def spansTwo (x : Nat × Nat) : Bool := x.1 / 512 != (x.1 + x.2 - 1) / 512

/-- The bank words that a write covers only in part of a granule, each a read-modify-write (06 R157). -/
def rmwCount (a len : Nat) : Nat :=
  if len = 0 then 0
  else
    let lo := a % 8 != 0
    let hi := (a + len) % 8 != 0
    if lo && hi then (if a / 512 = (a + len - 1) / 512 then 1 else 2) else b2n lo + b2n hi

/-- A counter of an array of counters by master. -/
def bumpAt (v : Vector Nat 15) (m n : Nat) : Vector Nat 15 :=
  if h : m < 15 then vmod v ⟨m, h⟩ (fun c => sat64 c n) else v

/-- ACCESSES, CONFLICT, ROTATOR_SPLITS and RMW of an access (06 R157, R158, R160). The cycles of CONFLICT are timing:
a free value advances it. -/
def countAccess (s : State) (p : Pid) (m a len rmw : Nat) : State :=
  let parts := accessParts a len
  let splits := (parts.filter spansTwo).length
  let (c, s) := draw s
  s.modPn p (fun k => { k with
    accesses := bumpAt k.accesses m (parts.length + splits + rmw), conflict := bumpAt k.conflict m c,
    rotatorSplits := sat64 k.rotatorSplits splits, rmw := sat64 k.rmw rmw })

/-- The part of a range that lies in a shelf: its first byte and its length. -/
def shelfPart (a len n : Nat) : Nat × Nat :=
  let lo := max a (n * 2 ^ 25)
  (lo, min (a + len) ((n + 1) * 2 ^ 25) - lo)

/-- The accesses that the banks grant (06 R160): the parts of a range in the shelves that serve it. -/
def countGranted (s : State) (p : Pid) (m a len : Nat) (write : Bool) (served : List Nat) : State :=
  if served = rangeShelves a len then countAccess s p m a len (if write then rmwCount a len else 0)
  else served.foldl (fun t n =>
    let q := shelfPart a len n
    countAccess t p m q.1 q.2 (if write then rmwCount q.1 q.2 else 0)) s

/-- What a read delivers: the bytes, the granules (address / 8) that come poisoned from a bank, and the shelves of the
range that were OFF or WAKING, whose granules come poisoned too (06 R179). -/
structure ReadRes where
  bytes : List Byte
  granules : List Nat
  off : List Nat
  deriving DecidableEq, Repr

/-- Whether poison came with the data. -/
def ReadRes.poison (r : ReadRes) : Bool := !r.off.isEmpty || !r.granules.isEmpty

/-- The granules of a range that come poisoned (06 R179, R180), counted from the range's first. -/
def ReadRes.bad (r : ReadRes) (a len : Nat) : List Nat :=
  (r.granules.map (fun g => g - a / 8)) ++
    (if r.off.isEmpty then [] else (List.range (len / 8)).filter (fun i => r.off.contains (shelfOf (8 * (a / 8 + i)))))

/-- Errors that the banks of a skillet have taken (06 R180), by granule; true is a double-bit error. They show at the next
read of the granule, whoever reads it. A pantry without compute power holds nothing that could take one (06 R183). -/
def strike (s : State) (p : Pid) (errs : List (Nat × Bool)) : State :=
  if errs.isEmpty || !s.computeOn p then s else s.modPn p (fun k => { k with errors := errs ++ k.errors })

/-- One new error in a granule of an OPEN or CLOSING shelf (06 R180): a single-bit error is corrected in the data and
waits for its write-back; a double-bit error poisons the granule and retires its bank (R182). -/
def noteError (s : State) (p : Pid) (g : Nat) (double : Bool) : State :=
  if double then
    let s := s.modPn p (fun k => { k with
      poison := insertNat k.poison g, corrupt := k.corrupt.filter (fun x => x != g), ueDetected := sat64 k.ueDetected 1 })
    retireBank s p (physBankOf s p (8 * g))
  else s.modPn p (fun k => { k with corrupt := insertNat k.corrupt g })

/-- Whether granule g lies in a range. -/
def granuleIn (a len g : Nat) : Bool := a / 8 ≤ g && 8 * g < a + len

/-- The errors that a read or a scrub meets in the granules that `live` names (06 R180, R181). -/
def meetErrors (s : State) (p : Pid) (live : Nat → Bool) : State :=
  let met := (s.pn p).errors.filter (fun e => live e.1)
  if met.isEmpty then s
  else met.foldl (fun t e => noteError t p e.1 e.2)
    (s.modPn p (fun k => { k with errors := k.errors.filter (fun e => !live e.1) }))

/-- A read of `len` bytes from address `a` by master `m`. It meets the errors that the banks hold there. A read of an OFF or
WAKING shelf reaches no bank and raises SHELF_OFF_READ (06 R179); a poisoned granule raises POISON_READ (R180). -/
def readRange (s : State) (p : Pid) (m a len : Nat) : ReadRes × State :=
  let k := s.pn p
  let offs := (rangeShelves a len).filter (fun n => k.shelf n == .off || k.shelf n == .waking)
  let s := countGranted s p m a len false ((rangeShelves a len).filter (fun n => !offs.contains n))
  let live (g : Nat) : Bool := granuleIn a len g && !offs.contains (shelfOf (8 * g))
  let s := meetErrors s p live
  let bad := (s.pn p).poison.filter live
  let s := offs.foldl (fun t n => raiseSk (t.modPn p (fun k => { k with poisonReads := sat64 k.poisonReads 1 })) p 5
    .shelfOffRead (names [n])) s
  let s := bad.foldl (fun t g => raiseSk (t.modPn p (fun k => { k with poisonReads := sat64 k.poisonReads 1 })) p 5
    .poisonRead (names [physBankOf t p (8 * g), bankWord (8 * g)])) s
  (⟨Mem.bytes (s.pn p).mem a len, bad, offs⟩, s)

/-- The part of a write that falls in one shelf: stored where the shelf is OPEN, otherwise rejected with 0x0703 (06
R178). The first rejected write of a close raises SHELF_WRITE_REJECTED. -/
def writeShelf (s : State) (p : Pid) (a : Nat) (bs : List Byte) (n : Nat) : Bool × State :=
  let lo := max a (n * 2 ^ 25)
  let part := (bs.drop (lo - a)).take ((n + 1) * 2 ^ 25 - lo)
  let hi := lo + part.length
  let kept (g : Nat) : Bool := !(lo ≤ 8 * g && 8 * g + 8 ≤ hi)
  if (s.pn p).shelf n == .opened then
    (true, s.modPn p (fun k => { k with
      mem := Mem.store k.mem lo part, poison := k.poison.filter kept, errors := k.errors.filter (fun e => kept e.1) }))
  else
    let words := (hi - 1) / 512 + 1 - lo / 512
    let s := s.modPn p (fun k => { k with writesRejected := sat64 k.writesRejected words })
    if h : n < 15 then
      if (vget (s.pn p).shelves ⟨n, h⟩).rejected then (false, s)
      else
        let s := s.modPn p (fun k => { k with shelves := vmod k.shelves ⟨n, h⟩ (fun x => { x with rejected := true }) })
        (false, raiseSk s p 5 .shelfWriteRejected (names [n]))
    else (false, s)

/-- A write of bytes from address `a` by master `m`: whether every part was accepted, and the state. -/
def writeRange (s : State) (p : Pid) (m a : Nat) (bs : List Byte) : Bool × State :=
  let s := countGranted s p m a bs.length true
    ((rangeShelves a bs.length).filter (fun n => (s.pn p).shelf n == .opened))
  (rangeShelves a bs.length).foldl (fun r n => let w := writeShelf r.2 p a bs n; (r.1 && w.1, w.2)) (true, s)

/-- Granules that are written as poisoned (07 R210). -/
def poisonRange (s : State) (p : Pid) (gs : List Nat) : State :=
  s.modPn p (fun k => { k with
    poison := (gs.filter (fun g => k.shelf (shelfOf (8 * g)) == .opened)).foldl insertNat k.poison })

/-! ### Slots (06 R164-R175) -/

/-- A slot descriptor. -/
def Pantry.slot (k : Pantry) (n : Nat) : Slot := Tab.at k.slots n {}

/-- A pantry with a slot descriptor replaced. -/
def Pantry.setSlot (k : Pantry) (n : Nat) (x : Slot) : Pantry :=
  { k with slots := if x = {} then Tab.del k.slots n else Tab.put k.slots n x }

/-- The state of a slot. -/
def State.slotSt (s : State) (p : Pid) (n : Nat) : SlotState := ((s.pn p).slot n).st

/-- Whether a slot can be written by a producer: EMPTY or FILLING (06 R168). -/
def slotWritable (s : State) (p : Pid) (n : Nat) : Bool := s.slotSt p n == .empty || s.slotSt p n == .filling

/-- Slots that are not EMPTY (06 R184). -/
def Pantry.slotsBusy (k : Pantry) : Nat := (k.slots.filter (fun e => e.2.st != .empty)).length

/-- SLOT_ORDER advanced, with SLOT_ORDER_FAULT where R172 asks for it. -/
def slotOrderFault (s : State) (p : Pid) (n : Nat) : State :=
  raiseSk (s.modPn p (fun k => { k with slotOrder := sat64 k.slotOrder 1 })) p 5 .slotOrderFault (names [n])

/-- One completion at a slot (06 R168, R172). -/
def slotCompletion (s : State) (p : Pid) (n : Nat) : State :=
  let x := (s.pn p).slot n
  if x.st == .full || x.st == .draining then slotOrderFault s p n
  else
    let c := (x.produced + 1) % 64
    s.modPn p (fun k => k.setSlot n { x with produced := c, st := if c = x.producers then .full else .filling })

/-- One release at a slot (06 R168, R172). -/
def slotRelease (s : State) (p : Pid) (n : Nat) : State :=
  let x := (s.pn p).slot n
  if x.st != .full then slotOrderFault s p n
  else
    let c := (x.released + 1) % 64
    s.modPn p (fun k => k.setSlot n { x with released := c, st := if c = x.consumers then .draining else .full })

/-- A producer write enters a slot: EMPTY becomes FILLING (06 R168). -/
def slotProduce (s : State) (p : Pid) (n : Nat) : State :=
  let x := (s.pn p).slot n
  if x.st == .empty then s.modPn p (fun k => k.setSlot n { x with st := .filling }) else s

/-- A producer's write at a slot (06 R168, R178): the slot leaves EMPTY with the first part of the write that is
accepted. Whether every part was, and the state. -/
def produceWrite (s : State) (p : Pid) (m a : Nat) (bs : List Byte) (chk : Bool) (n : Nat) : Bool × State :=
  let accepted := (rangeShelves a bs.length).any (fun i => (s.pn p).shelf i == .opened)
  writeRange (if chk && accepted then slotProduce s p n else s) p m a bs

/-- Whether a range lies in a configured slot (06 R171). -/
def Slot.covers (x : Slot) (a len : Nat) : Bool :=
  x.length != 0 && x.base * 64 ≤ a && a + len ≤ (x.base + x.length) * 64

/-- An operand word of R115 from its 64 bits. -/
def operandOf (w : Nat) : Operand :=
  { chk := bit w 63, rel := bit w 62, fin := bit w 62, slot := bits w 61 50, rsv := bits w 49 39 != 0,
    addr := bits w 38 16, stride := bits w 15 0, raw := w % 2 ^ 64 }

/-- Whether an operand of an unchecked region sets a field that only a checked slot uses (04 R115): SLOT, REL or FIN. -/
def Operand.unusedField (o : Operand) : Bool := !o.chk && (o.rel || o.fin || o.slot != 0)

end Sys2Proof.Machine
end

