-- ==== Sys2Proof/Machine/SeqOps.lean ====
section
/-! DEFINITION. Machine/SeqOps.lean: the sequencer's shared operations (08): choosing the running task, completions,
rejections and faults, and the fetch, decoding and validation of a plan word. A row of the table names an operation;
the word itself is the one at the running task's PC. -/

namespace Sys2Proof.Machine

/-- A task. -/
def State.task (s : State) (p : Pid) (t : Fin 16) : Task := vget (s.sq p).tasks t

/-- The state with a task changed. -/
def State.modTask (s : State) (p : Pid) (t : Fin 16) (f : Task → Task) : State :=
  s.modSq p (fun q => { q with tasks := vmod q.tasks t f })

/-- The first READY task in ascending index order after the one that ran last, wrapping (08 R218). -/
def nextReady (q : Seq) : Option (Fin 16) :=
  ((List.finRange 16).map (fun (i : Fin 16) => q.last + 1 + i)).find? (fun t => (vget q.tasks t).st == .ready)

/-- The sequencer takes the next READY task, if any (08 R218). -/
def selectNext (s : State) (p : Pid) : State :=
  match nextReady (s.sq p) with
  | none => s
  | some t =>
    let s := s.modTask p t (fun x => { x with st := .running })
    s.modSq p (fun q => { q with current := some t, last := t,
                                 switches := if t = q.last then q.switches else sat64 q.switches 1 })

/-- A READY task on an idle sequencer runs; the idle cycles are timing, a free value. -/
def kick (s : State) (p : Pid) : State :=
  if (s.sq p).current.isSome then s
  else match nextReady (s.sq p) with
    | none => s
    | some _ =>
      let (c, s) := draw s
      selectNext (s.modSq p (fun q => { q with idleCycles := sat64 q.idleCycles c })) p

/-- The running task leaves RUNNING for `st` and the next one is taken (08 R217, R218). -/
def leaveRunning (s : State) (p : Pid) (t : Fin 16) (st : TaskState) : State :=
  let s := s.modTask p t (fun x => { x with st := st })
  if (s.sq p).current = some t then selectNext (s.modSq p (fun q => { q with current := none, hold := none })) p else s

/-- The causes of TASK_FAULT (08 R247): 1 REJECTED, 2 FETCH_POISON, 3 PC_RANGE, 4 STATE_PARITY. -/
def taskFault (s : State) (p : Pid) (t : Fin 16) (cause : Nat) : State :=
  let s := s.modTask p t (fun x => { x with cause := cause, waitKind := 0, met := false })
  let s := leaveRunning s p t .faulted
  raiseSk s p 6 .taskFault (names [t.val, cause])

/-- A 16-bit counter that saturates with COUNTER_OVERFLOW (08 R229). -/
def overflow (s : State) (p : Pid) (which : List Nat) : State :=
  raiseSk (s.modSq p (fun q => { q with counterOverflows := sat64 q.counterOverflows 1 })) p 6 .counterOverflow (names which)

/-- A WAITING task's COUNTER wait served at its counter (08 R227, R229): where CC[c] is at least N, N is subtracted and the
wait is satisfied. -/
def serveCC (s : State) (p : Pid) (t : Fin 16) (c : Fin 8) : State :=
  let x := s.task p t
  let n := bits x.word 108 93
  if x.st == .waiting && x.waitKind == 2 && !x.met && bits x.word 111 109 == c.val && n ≤ vget x.cc c then
    s.modTask p t (fun x => { x with cc := vmod x.cc c (fun k => k - n), met := true })
  else s

/-- A WAITING task's SIGNAL wait served at SG[g] (08 R227, R229). -/
def serveSG (s : State) (p : Pid) (g : Fin 64) (t : Fin 16) : State :=
  let x := s.task p t
  let n := bits x.word 105 90
  if x.st == .waiting && x.waitKind == 3 && !x.met && bits x.word 111 106 == g.val && n ≤ vget (s.sq p).sg g then
    (s.modSq p (fun q => { q with sg := vmod q.sg g (fun k => k - n) })).modTask p t (fun x => { x with met := true })
  else s

/-- One completion counted in CC[c] of a task, and the task's wait on it served. -/
def bumpCC (s : State) (p : Pid) (t : Fin 16) (c : Fin 8) : State :=
  if vget (s.task p t).cc c = 65535 then overflow s p [t.val, c.val]
  else serveCC (s.modTask p t (fun x => { x with cc := vmod x.cc c (fun n => n + 1) })) p t c

/-- One signal counted in SG[g] (08 R228), and the waits on it served in ascending task index (R229). -/
def bumpSG (s : State) (p : Pid) (g : Nat) : State :=
  if h : g < 64 then
    if vget (s.sq p).sg ⟨g, h⟩ = 65535 then overflow s p [64 + g]
    else (List.finRange 16).foldl (fun t i => serveSG t p ⟨g, h⟩ i)
      (s.modSq p (fun q => { q with sg := vmod q.sg ⟨g, h⟩ (fun n => n + 1) }))
  else s

/-- What a rejection or a failed completion does to its task (08 R226): STATUS where it is zero, REJECTS, and without
SOFT the task faults. -/
def failTask (s : State) (p : Pid) (t : Fin 16) (soft : Bool) (status : Nat) : State :=
  let s := s.modSq p (fun q => { q with rejects := sat64 q.rejects 1 })
  let s := s.modTask p t (fun x => { x with status := if x.status = 0 then status else x.status })
  if soft then s else taskFault s p t 1

/-- The completion of an asynchronous word posted to its task (08 R223, R226, R231). It is discarded where the task has
ended since; a task that has faulted meanwhile takes the status and is not faulted again. -/
def postCompletion (s : State) (p : Pid) (i : Issuer) (status : Nat) : State :=
  let x := s.task p i.task
  if x.inc != i.inc || x.st == .free then s
  else
    let s := if i.cen then bumpCC s p i.task i.cnt else s
    if status = 0 then s else failTask s p i.task (i.soft || x.st == .faulted) status

/-- The running task goes on to its next word. -/
def advance (s : State) (p : Pid) (t : Fin 16) : State :=
  s.modTask p t (fun x => { x with pc := (x.pc + 1) % 2 ^ 25, waitKind := 0, word := 0, met := false })

/-- The running task continues at a PC. -/
def jumpTo (s : State) (p : Pid) (t : Fin 16) (pc : Nat) : State :=
  s.modTask p t (fun x => { x with pc := pc % 2 ^ 25, waitKind := 0, word := 0, met := false })

/-- The running task enters WAITING on its word `w` (08 R217). A word that waits for acceptance is presented again when the
task next runs (R218); a wait word is done once its condition holds. -/
def waitTask (s : State) (p : Pid) (t : Fin 16) (kind w : Nat) : State :=
  leaveRunning (s.modTask p t (fun x => { x with waitKind := kind, word := w, met := false })) p t .waiting

/-- A rejected word (08 R226). -/
def rejectWord (s : State) (p : Pid) (t : Fin 16) (soft : Bool) (status : Nat) : State :=
  let s := failTask s p t soft status
  if soft then advance s p t else s

/-! ### Plan words (08 R222-R225) -/

/-- The operations of a plan word (08 R223). -/
inductive WordOp where
  | issue | flush | arm | stop | run | set | reset | resetAll | complete | release | memop | open_ | close
  | load | store | slotFull | slotEmpty | counter | signal | send | remoteComplete | remoteRelease | for_ | next
  | jump | jumpIf | loadi | addi | readreg | spawn | end_ | yield_ | abs | rel | raise_
  deriving DecidableEq, Repr

/-- The operation that FAMILY and OP name (08 R223); every other code is reserved. -/
def wordOp (w : Nat) : Option WordOp :=
  match bits w 127 124, bits w 123 120 with
  | 1, 0 => some .issue
  | 1, 1 => some .flush
  | 2, 0 => some .arm
  | 2, 1 => some .stop
  | 3, 0 => some .run
  | 4, 0 => some .set
  | 4, 1 => some .reset
  | 4, 2 => some .resetAll
  | 4, 3 => some .complete
  | 4, 4 => some .release
  | 4, 5 => some .memop
  | 4, 6 => some .open_
  | 4, 7 => some .close
  | 4, 8 => some .load
  | 4, 9 => some .store
  | 5, 0 => some .slotFull
  | 5, 1 => some .slotEmpty
  | 5, 2 => some .counter
  | 5, 3 => some .signal
  | 6, 0 => some .send
  | 6, 1 => some .remoteComplete
  | 6, 2 => some .remoteRelease
  | 7, 0 => some .for_
  | 7, 1 => some .next
  | 8, 0 => some .jump
  | 8, 1 => some .jumpIf
  | 8, 2 => some .loadi
  | 8, 3 => some .addi
  | 8, 4 => some .readreg
  | 8, 5 => some .spawn
  | 8, 6 => some .end_
  | 9, 0 => some .yield_
  | 10, 0 => some .abs
  | 10, 1 => some .rel
  | 11, 0 => some .raise_
  | _, _ => none

/-- Whether an operation is asynchronous (08 R223). -/
def WordOp.async : WordOp → Bool
  | .issue | .flush | .arm | .stop | .run | .memop => true
  | _ => false

/-- The operand fields of an operation, as bit ranges in [111:0] (08 R224). -/
def WordOp.fields : WordOp → List (Nat × Nat)
  | .issue => [(111, 110), (109, 87)]
  | .flush => [(111, 110)]
  | .arm => [(111, 109), (108, 86)]
  | .stop => [(111, 109)]
  | .run => [(111, 89)]
  | .set => [(111, 100), (63, 0)]
  | .reset | .complete | .release | .slotEmpty => [(111, 100)]
  | .resetAll | .next | .end_ | .yield_ => []
  | .memop => [(111, 88)]
  | .open_ | .close => [(111, 108)]
  | .load | .store => [(111, 109), (108, 108), (107, 96), (92, 64)]
  | .slotFull => [(111, 100), (99, 99), (98, 91)]
  | .counter => [(111, 109), (108, 93)]
  | .signal => [(111, 106), (105, 90)]
  | .send => [(111, 106), (55, 0)]
  | .remoteComplete | .remoteRelease => [(111, 106), (105, 94)]
  | .for_ => [(111, 111), (110, 108), (107, 91), (88, 64)]
  | .jump => [(88, 64)]
  | .jumpIf => [(111, 109), (108, 106), (88, 64), (63, 0)]
  | .loadi => [(111, 109), (63, 0)]
  | .addi => [(111, 109), (108, 106), (63, 0)]
  | .readreg => [(111, 109), (108, 104), (103, 92)]
  | .spawn => [(111, 108), (88, 64)]
  | .abs => [(73, 64), (63, 0)]
  | .rel => [(111, 109), (73, 64), (63, 0)]
  | .raise_ => [(111, 104), (103, 103), (102, 100)]

/-- The last register offset of a unit's block by its READREG code (04 R130, 08 R246, R248, 06 R184, 14 R443, 07 R214,
09 R280); other codes are reserved. -/
def unitLast (unit : Nat) : Option Nat :=
  if unit ≤ 3 then some 0x48 else if unit = 4 then some 0x48 else if unit = 5 then some 0x138
  else if unit = 6 then some 0x3F8 else if unit = 7 then some 0x60 else if unit ≤ 0xF then some 0x58
  else if unit = 0x10 then some 0x3F8 else none

/-- Whether a reserved field of a word is not zero: [114:112], the bits of [111:0] that the operation does not list, those
of D0 in a SET (06 R165), and a field that its own enable bit makes zero (08 R222, R224). -/
def wordReserved (op : WordOp) (w : Nat) : Bool :=
  let listed := op.fields.foldl (fun a f => a + bits w f.1 f.2 * 2 ^ f.2) 0
  bits w 114 0 != listed
    || ((op == .load || op == .store) && !bit w 108 && bits w 107 96 != 0)
    || (op == .set && bits w 5 0 != 0) || (op == .slotFull && !bit w 99 && bits w 98 91 != 0)
    || (op == .readreg && (unitLast (bits w 108 104)).isNone)
    || (op == .jumpIf && 5 ≤ bits w 108 106)

/-- Whether a PC lies beyond 480 MiB. -/
def pcBeyond (pc : Nat) : Bool := paLimit ≤ 16 * pc

/-- The register that a 3-bit field names. -/
def trOf (x : Task) (n : Nat) : W64 := if h : n < 8 then vget x.tr ⟨n, h⟩ else 0

/-- The count of a FOR word (08 R224). -/
def forCount (x : Task) (w : Nat) : Nat := if bit w 111 then (trOf x (bits w 110 108)).toNat else bits w 107 91

/-- The first status of R225 whose condition holds, 0 where the word stands. -/
def wordStatus (s : State) (p : Pid) (t : Fin 16) (op : WordOp) (w : Nat) : Nat :=
  let x := s.task p t
  if wordReserved op w then stReserved
  else if (bit w 118 && !op.async) || (!bit w 118 && bits w 117 115 != 0) || (op == .send && bits w 55 0 == 0)
      || (op == .jumpIf && bits w 108 106 == 4 && (bits w 111 109 != 0 || bits w 63 0 != 0))
      || (op == .next && x.loops.isEmpty) || (op == .spawn && bits w 111 108 == t.val) then stInconsistent
  else if op == .for_ && 4 ≤ x.loops.length then stNoResource
  else if (op == .counter && bits w 108 93 == 0) || (op == .signal && bits w 105 90 == 0)
      || ((op == .remoteComplete || op == .remoteRelease) && 55 < bits w 111 106)
      || ((op == .jump || op == .jumpIf || op == .spawn || op == .for_) && pcBeyond (bits w 88 64))
      || ((op == .load || op == .store) && paLimit < bits w 92 64 + 8)
      || (op == .readreg && ((unitLast (bits w 108 104)).getD 0 < bits w 103 92 || bits w 103 92 % 8 != 0))
      || (op == .for_ && !bit w 111 && 65536 < bits w 107 91) then stDescRange
  else if op == .for_ && bit w 111 && 65536 < forCount x w then stAbove
  else if op == .spawn && (s.task p (Fin.ofNat 16 (bits w 111 108))).st != .free then stBusy
  else 0

/-- Who issues a word: its task, incarnation, CEN, CNT and SOFT. -/
def issuerOf (s : State) (p : Pid) (t : Fin 16) (w : Nat) : Issuer :=
  { task := t, inc := (s.task p t).inc, cen := bit w 118, cnt := Fin.ofNat 8 (bits w 117 115), soft := bit w 119 }

/-- The running task issues the word at its PC (08 R218, R222, R225, R226). A fetch past the end and a poisoned word
fault the task; a reserved word is rejected whichever row it stands under; a word of another operation is another row
and nothing comes about here. WORDS counts a word once, however often it is presented. `act` is the operation on a word that stands. -/
def issueWord (s : State) (p : Pid) (op : WordOp) (act : State → Fin 16 → Nat → State) : State :=
  match (s.sq p).current with
  | none => s
  | some t =>
    if (s.sq p).hold.isSome || !s.sequences p then s
    else
      let x := s.task p t
      if pcBeyond x.pc then taskFault s p t 3
      else
        let w := leNat (Mem.bytes (s.pn p).mem (16 * x.pc) 16)
        if (match wordOp w with | some o => o != op | none => false) then s
        else
          let (r, s) := readRange s p 14 (16 * x.pc) 16
          if r.poison then taskFault s p t 2
          else
            let s := if x.word = 0 then s.modSq p (fun q => { q with words := sat64 q.words 1 }) else s
            match wordOp w with
            | none => rejectWord s p t (bit w 119) stReserved
            | some _ =>
              match wordStatus s p t op w with
              | 0 => act s t w
              | st => rejectWord s p t (bit w 119) st

/-- The end of a synchronous word or of the acceptance of an asynchronous one: status 0 and PENDING are acceptance,
every other status a rejection (08 R225). -/
def finishWord (s : State) (p : Pid) (t : Fin 16) (w status : Nat) : State :=
  if status = 0 || status = stPending then advance s p t else rejectWord s p t (bit w 119) status

end Sys2Proof.Machine
end

