-- ==== Sys2Proof/Machine/MeshOps.lean ====
section
/-! DEFINITION. Machine/MeshOps.lean: the mesh (09): where a flit goes next, how it is queued, merged, copied and
delivered, and what an acknowledgement or a memory answer does to the ladle portion it belongs to. Outputs of a
skillet's router: 0 north, 1 east, 2 south, 3 west, 4 its own port, 5 what its port injects, 6 the elastic buffer of its
seam crossing; of a rim crossbar: 0-7 its attachment links, 8 its units, 9 what its units inject, 10 and 11 the elastic buffers
of its seam path eastwards and westwards. -/

namespace Sys2Proof.Machine

/-- The place of a class in arrays and in priority order (09 R257). -/
def TClassIx (c : TClass) : Fin 4 :=
  match c with
  | .vermilion => 0
  | .amber => 1
  | .slate => 2
  | .ash => 3

/-- A 64-bit saturating counter of an array. -/
def bump4 (v : Vector Nat 4) (c : TClass) (n : Nat) : Vector Nat 4 := vmod v (TClassIx c) (fun x => sat64 x n)

/-! ### Geometry and routes -/

/-- The skillet on attachment link i of a rim side (03 R73): N (i,0), E (7,i), S (i,7), W (0,i). -/
def attached (side i : Nat) : Nat :=
  match side with
  | 0 => i
  | 1 => 8 * i + 7
  | 2 => 56 + i
  | _ => 8 * i

/-- What an output leads to: the next node and the input it arrives by. -/
def linkEnd (node out : Nat) : Nat × Nat :=
  if node < 64 then
    let x := node % 8
    let y := node / 8
    match out with
    | 0 => if y = 0 then (64, x) else (node - 8, 2)
    | 1 => if x = 7 then (65, y) else (node + 1, 3)
    | 2 => if y = 7 then (66, x) else (node + 8, 0)
    | _ => if x = 0 then (67, y) else (node - 1, 1)
  else
    let side := node - 64
    (attached side out, side)

/-- The node whose units a port belongs to (09 R250). -/
def portNode (port : Nat) : Nat :=
  if port < 64 then port else if port < 96 then 64 + (port - 64) / 8 else if port < 100 then port - 32 else 67

/-- The attachment index of a rim port: a slice's own (03 R73); a rim buffer or the bridge has none. -/
def portIndex (port : Nat) : Option Nat := if 64 ≤ port && port < 96 then some ((port - 64) % 8) else none

/-- One dimension-ordered step from one skillet towards another (09 R254): along X, then along Y. -/
def stepTo (x y tx ty : Nat) : Nat :=
  if x < tx then 1 else if tx < x then 3 else if y < ty then 2 else if ty < y then 0 else 4

/-- The output a rim side lies behind from its edge skillets. -/
def sideOut (side : Nat) : Nat := match side with | 0 => 0 | 1 => 1 | 2 => 2 | _ => 3

/-- Whether a skillet lies on a side's edge. -/
def onEdge (x y side : Nat) : Bool :=
  match side with
  | 0 => y == 0
  | 1 => x == 7
  | 2 => y == 7
  | _ => x == 0

/-- The output towards a port while no region is isolated and no link is down (09 R254). A flit from a skillet on the
edge of the destination's strip takes the rim hop from its own position (`inp` 4); any other enters at the slice's
own attachment link. A rim buffer is reached, and left, by the attachment link of the sender's row or column; the bridge leaves
RIM.W in the row of the destination (R256). `inp` 8-15 are the slices of a strip, 16 its units without an index. -/
def defaultOut (node inp dest : Nat) : Nat :=
  if node < 64 then
    let x := node % 8
    let y := node / 8
    if dest < 64 then stepTo x y (dest % 8) (dest / 8)
    else
      let side := portNode dest - 64
      match portIndex dest with
      | some i =>
        let t := attached side i
        if node = t || (inp = 4 && onEdge x y side) then sideOut side else stepTo x y (t % 8) (t / 8)
      | none => sideOut side
  else if portNode dest = node then 8
  else
    let side := node - 64
    let across := 64 ≤ dest && (portIndex dest).isNone && portNode dest - 64 = (side + 2) % 4
    let t := if dest < 64 then dest else
      match portIndex dest with
      | some i => attached (portNode dest - 64) i
      | none => attached (portNode dest - 64) 0
    if 8 ≤ inp && inp < 16 && (across || side = 1 || side = 3) then inp - 8
    else if side = 0 || side = 2 then t % 8 else t / 8

/-- The place along its strip by which a flit enters a crossbar: its attachment link, or the slice that sends it. -/
def stripIndex (inp : Nat) : Option Nat := if inp < 8 then some inp else if inp < 16 then some (inp - 8) else none

/-- The output at a node, and the least VC where the table bank in force gives the route (09 R255). Each place along a rim
strip is a position of its own, with its own entries from 128 × (place + 1) on. -/
def routeAt (s : State) (node : Fin 68) (inp dest : Nat) : Nat × Option Nat :=
  let t := vget (s.rt node).tables (Fin.ofNat 2 s.mesh.bank)
  let own := if node.val < 64 then none else (stripIndex inp).bind (fun i => Tab.find t (128 * (i + 1) + dest))
  match own.orElse (fun _ => Tab.find t dest) with
  | some e => (e.1, some e.2)
  | none => (defaultOut node.val inp dest, none)

/-- The VC on leaving a node. A default route keeps VC0 (09 R254). On a route of the tables a turn from Y into X begins a new
segment, and a route only moves to a higher VC (R255): at a skillet's router, or within a strip, where a passage along RIM.N
or RIM.S is a move along X after the entry along Y, and the exit from RIM.E or RIM.W a move along X after the passage. -/
def nextVc (node : Fin 68) (inp out : Nat) (floor : Option Nat) (vc : Nat) : Nat :=
  match floor with
  | none => vc
  | some f =>
    let turn :=
      if node.val < 64 then (inp == 0 || inp == 2) && (out == 1 || out == 3)
      else if inp < 8 then out < 8 && inp != out
      else (node.val == 65 || node.val == 67) && inp < 16 && out < 8 && inp - 8 != out
    min 2 (max f (if turn then vc + 1 else vc))

/-! ### The seam (09 R267, R269) -/

/-- The half of a place along RIM.N or RIM.S: slices 0-3 are west. -/
def eastOf (i : Nat) : Bool := 4 ≤ i

/-- The queue of the elastic buffer through which a flit passes on its way from an input to an output of a node, where that
way crosses the seam: a link between columns 3 and 4, or the path between slices 3 and 4 of RIM.N and RIM.S. -/
def seamOut (node inp out dest : Nat) : Option Nat :=
  if node < 64 then (if (node % 8 = 3 && out = 1) || (node % 8 = 4 && out = 3) then some 6 else none)
  else if node = 64 || node = 66 then
    match stripIndex inp, (if out < 8 then some out else portIndex dest) with
    | some a, some b => if eastOf a = eastOf b then none else if eastOf b then some 10 else some 11
    | _, _ => none
  else none

/-- How many flits a seam buffer takes before it raises back-pressure (09 R267, R269): 32, or 24 while the halves run at
different clocks. -/
def seamLevel (m : MeshSt) : Nat := if m.westHalf != m.eastHalf then 24 else 32

/-- The key of an output queue. -/
def qKey (node out : Nat) : Nat := 16 * node + out

/-- The queue of an output. -/
def State.outQ (s : State) (node out : Nat) : List QFlit := Tab.at s.mesh.outQ (qKey node out) []

/-- The state with the queue of an output replaced. -/
def State.setOutQ (s : State) (node out : Nat) (q : List QFlit) : State :=
  { s with mesh := { s.mesh with outQ := if q.isEmpty then Tab.del s.mesh.outQ (qKey node out)
                                         else Tab.put s.mesh.outQ (qKey node out) q } }

/-- The slack store of a branch (09 R265). -/
def State.slackQ (s : State) (node out : Nat) : List QFlit := Tab.at s.mesh.slack (qKey node out) []

/-- The state with the slack store of a branch replaced. -/
def State.setSlackQ (s : State) (node out : Nat) (q : List QFlit) : State :=
  { s with mesh := { s.mesh with slack := if q.isEmpty then Tab.del s.mesh.slack (qKey node out)
                                          else Tab.put s.mesh.slack (qKey node out) q } }

/-- Whether the hold discards a flit (09 R270): every flit but MEM flits and acknowledgements. -/
def heldKind (k : FlitKind) : Bool :=
  match k with
  | .write | .mcastWrite | .merge | .rimWrite | .rimAdd => true
  | _ => false

/-- The output whose link a queue feeds: a seam buffer of a skillet's router feeds its link across the seam. -/
def linkOf (node : Fin 68) (out : Nat) : Nat :=
  if node.val < 64 && out = 6 then (if node.val % 8 = 3 then 1 else 3) else out

/-- Whether an output has credit for one more flit of a class and VC (09 R265, R267, 06 R174): room in the seam's elastic
buffer, in the 16 flits of the next router's input, or in the 64 flits of the skillet's landing buffer. -/
def hasCredit (s : State) (node : Fin 68) (out : Nat) (cls : TClass) (vc : Nat) : Bool :=
  if node.val < 64 && out = 4 then (vget (s.rt node).landing (TClassIx cls)).length < 64
  else if node.val < 64 && out < 4 && (seamOut node.val 4 out 0).isSome then (s.outQ node.val 6).length < seamLevel s.mesh
  else if 64 ≤ node.val && 8 ≤ out then true
  else
    let (n, i) := linkEnd node.val (linkOf node out)
    let held := (List.range 16).foldl (fun a o =>
      a + ((s.outQ n o).filter (fun q => q.inp == i && q.flit.cls == cls && q.flit.vc == vc)).length) 0
    held < 16

/-! ### Acknowledgements -/

/-- The ladle of a flit. -/
def flitLadle (f : Flit) : Fin 8 := Fin.ofNat 8 f.ladle

/-- A portion of a ladle changed. -/
def Ladle.modPortion (l : Ladle) (tag : Nat) (f : Portion → Portion) : Ladle :=
  { l with portions := l.portions.map (fun x => if x.tag = tag then f x else x) }

/-- One flit acknowledged by a receiver (07 R197): a status other than 0 stays with the portion. -/
def Portion.acked (x : Portion) (from_ status : Nat) : Portion :=
  let n := Tab.at x.acks from_ 0
  { x with acks := if n ≤ 1 then Tab.del x.acks from_ else Tab.put x.acks from_ (n - 1),
           status := if x.status = 0 then status else x.status }

/-- An acknowledgement of the FIN of a block without data (07 R202): a rejection is a fault that a running ladle has met (07
R211). -/
def Ladle.finAcked (l : Ladle) (tag status : Nat) : Ladle :=
  match Tab.find l.emptyFins tag with
  | none => l
  | some n =>
    let l := { l with emptyFins := if n ≤ 1 then Tab.del l.emptyFins tag else Tab.put l.emptyFins tag (n - 1) }
    if status != 0 && l.fault = 0 && (l.st == .active || l.st == .tail) then
      { l with fault := if status = stBankClosed then 1 else 2 }
    else l

/-- An acknowledgement reaches the unit that sent the flit: a ladle portion, or the griddle whose emit a rejection
meets (09 R253, 04 R127 cause 5). For a MERGE flit `ladle` names the griddle. The last receiver of a multicast portion adds
the cycles that the portion has waited for it alone to its LAG, a free number (09 R266). -/
def takeAck (s : State) (origin : Nat) (merge : Bool) (unit tag from_ status : Nat) : State :=
  if h : origin < 64 then
    let p : Pid := ⟨origin, h⟩
    if merge then
      if status = 0 then s else s.modGr p (Fin.ofNat 4 unit) (fun g => { g with rejected := true })
    else
      let late := ((s.ld p (Fin.ofNat 8 unit)).portions.any (fun x => x.tag == tag && x.space == .multicast
        && x.acks == [(from_, 1)]))
      let s := s.modLd p (Fin.ofNat 8 unit) (fun l => (l.finAcked tag status).modPortion tag (fun x => x.acked from_ status))
      if late then
        let (c, s) := draw s
        s.modRt (nodeOf p) (fun r => { r with lag := Tab.put r.lag from_ (sat64 (Tab.at r.lag from_ 0) c) })
      else s
  else s

/-- The acknowledgements of a flit that ends at a port with a status, taken at once: of a MERGE flit one to each
contributor it holds. -/
def ackNow (s : State) (f : Flit) (at_ status : Nat) : State :=
  match f.kind with
  | .merge => f.sources.foldl (fun t o => takeAck t o true f.ladle f.tag at_ status) s
  | .write | .mcastWrite => takeAck s f.src false f.ladle f.tag at_ status
  | _ => s

/-- DISCARDED of a node advanced. -/
def countDiscard (s : State) (node : Fin 68) (n : Nat) : State :=
  s.modRt node (fun r => { r with discarded := sat64 r.discarded n })

/-- The receivers of a flit in a hold's discard: of a multicast flit every PID of its mask. -/
def flitReceivers (f : Flit) : List Nat :=
  match f.kind with
  | .mcastWrite => (List.range 64).filter (fun i => bit f.mask.toNat i)
  | _ => [f.dest]

/-- A flit discarded under a hold: its origin receives acknowledgements with status 0 (09 R270). -/
def holdDiscard (s : State) (node : Fin 68) (f : Flit) : State :=
  (flitReceivers f).foldl (fun t d => ackNow t f d 0) (countDiscard s node 1)

/-! ### Queueing -/

/-- Element-wise sum of two 16-bit payloads, each addition computed exactly and rounded once (09 R260). -/
def addPayload (bf : Bool) (a b : List Byte) : List Byte :=
  let f := if bf then bf16 else fp16
  (List.range (a.length / 2)).flatMap (fun i =>
    let x := f.decode (leNat ((a.drop (2 * i)).take 2))
    let y := f.decode (leNat ((b.drop (2 * i)).take 2))
    leBytes 2 (f.encode (Num.add x y)))

/-- Whether two MERGE flits merge in a router (09 R260). -/
def mergeable (a b : Flit) : Bool :=
  a.kind == .merge && b.kind == .merge && a.dest == b.dest && a.sumTag == b.sumTag && a.addr == b.addr
    && a.bf16 == b.bf16 && a.vc == b.vc

/-- A waiting flit with an arriving one added into it (09 R260). -/
def mergeFlits (w a : Flit) : Flit :=
  { w with payload := addPayload w.bf16 w.payload a.payload, cnt := w.cnt + a.cnt, sources := w.sources ++ a.sources,
           poison := a.poison.foldl insertNat w.poison }

/-- The first waiting flit that an arriving one joins, merged; none where no partner waits. -/
def mergeInto (q : List QFlit) (f : Flit) : Option (List QFlit) :=
  match q with
  | [] => none
  | x :: r => if mergeable x.flit f then some ({ x with flit := mergeFlits x.flit f } :: r)
              else (mergeInto r f).map (fun r' => x :: r')

/-- A flit queued on an output of a node. -/
def pushOut (s : State) (node : Fin 68) (out inp : Nat) (f : Flit) : State :=
  match (if s.mesh.ordered then none else mergeInto (s.outQ node.val out) f) with
  | some q => (s.setOutQ node.val out q).modRt node (fun r => { r with merges := sat64 r.merges 1 })
  | none => s.setOutQ node.val out (s.outQ node.val out ++ [⟨inp, f⟩])

/-- The branches of a multicast flit at a node: output, VC and the part of the mask (09 R265). -/
def branches (s : State) (node : Fin 68) (inp : Nat) (f : Flit) : List (Nat × Nat × Nat) :=
  let add (acc : List (Nat × Nat × Nat)) (d : Nat) : List (Nat × Nat × Nat) :=
    let (o, fl) := routeAt s node inp d
    let vc := nextVc node inp o fl f.vc
    match acc.findIdx? (fun e => e.1 == o && e.2.1 == vc) with
    | some _ => acc.map (fun e => if e.1 == o && e.2.1 == vc then (o, vc, e.2.2 + 2 ^ d) else e)
    | none => acc ++ [(o, vc, 2 ^ d)]
  ((List.range 64).filter (fun i => bit f.mask.toNat i)).foldl add []

/-- Whether a stored copy of a class and VC waits on a branch: later flits of its stream stay behind it (09 R258, R265). -/
def behindStored (s : State) (node : Fin 68) (out : Nat) (cls : TClass) (vc : Nat) : Bool :=
  (s.slackQ node.val out).any (fun q => q.flit.cls == cls && q.flit.vc == vc)

/-- Whether the path of a flit through a crossbar has room in its seam buffer (09 R267). -/
def seamRoom (s : State) (node : Fin 68) (inp out dest : Nat) : Bool :=
  match (if node.val < 64 then none else seamOut node.val inp out dest) with
  | some b => (s.outQ node.val b).length < seamLevel s.mesh
  | none => true

/-- Whether a router can accept a flit: at a branch point every branch has credit or room in its slack store; a flit behind
stored copies needs room there, and one across the seam in its buffer (09 R265, R267). -/
def canAccept (s : State) (node : Fin 68) (inp : Nat) (f : Flit) : Bool :=
  match f.kind with
  | .mcastWrite =>
    let bs := branches s node inp f
    bs.all (fun b => (s.slackQ node.val b.1).length < 8 || (s.slackQ node.val b.1).isEmpty
      && (bs.length ≤ 1 || hasCredit s node b.1 f.cls b.2.1))
  | _ =>
    let (o, fl) := routeAt s node inp f.dest
    (!behindStored s node o f.cls (nextVc node inp o fl f.vc) || (s.slackQ node.val o).length < 8)
      && seamRoom s node inp o f.dest

/-- One copy of a multicast flit on its branch: forwarded where the branch has credit and no stored copy, otherwise
stored (09 R265). -/
def pushBranch (s : State) (node : Fin 68) (inp : Nat) (f : Flit) (many : Bool) (b : Nat × Nat × Nat) : State :=
  let g := { f with vc := b.2.1, mask := BitVec.ofNat 64 b.2.2 }
  let stored := s.slackQ node.val b.1
  if many && !(stored.isEmpty && hasCredit s node b.1 f.cls b.2.1) then s.setSlackQ node.val b.1 (stored ++ [⟨inp, g⟩])
  else if !stored.isEmpty then s.setSlackQ node.val b.1 (stored ++ [⟨inp, g⟩])
  else pushOut s node b.1 inp g

/-- A flit queued on its way out of a node: by way of the seam buffer where its path through a crossbar crosses the seam (09
R267). -/
def pushPath (s : State) (node : Fin 68) (out inp : Nat) (f : Flit) : State :=
  match (if node.val < 64 then none else seamOut node.val inp out f.dest) with
  | some b => s.setOutQ node.val b (s.outQ node.val b ++ [⟨inp, f⟩])
  | none => pushOut s node out inp f

/-- A flit enters a node's router (09 R258, R260, R265): queued on its route, copied at a branch point. A flit stays
behind the stored copies of its class and VC (R258, R272). -/
def enterNode (s : State) (node : Fin 68) (inp : Nat) (f : Flit) : State :=
  if s.mesh.hold && heldKind f.kind then holdDiscard s node f
  else match f.kind with
    | .mcastWrite =>
      let bs := branches s node inp f
      bs.foldl (fun t b => pushBranch t node inp f (1 < bs.length) b) s
    | _ =>
      let (o, fl) := routeAt s node inp f.dest
      let g := { f with vc := nextVc node inp o fl f.vc }
      if behindStored s node o g.cls g.vc then s.setSlackQ node.val o (s.slackQ node.val o ++ [⟨inp, g⟩])
      else pushPath s node o inp g

/-- The node of a port as a router. -/
def portRouter (port : Nat) : Fin 68 := Fin.ofNat 68 (portNode port)

/-- The queue of what a node's units inject. -/
def injectOut (node : Fin 68) : Nat := if node.val < 64 then 5 else 9

/-- The key of a contributor's credit at a port (09 R264). -/
def creditKey (f : Flit) : Nat := 64 * f.src + f.dest

/-- Whether a contributor has credit for one more MERGE flit in ordered mode (09 R264): ⌊2,048 / FANIN⌋ at a time. -/
def mergeCredit (s : State) (f : Flit) : Bool :=
  !s.mesh.ordered || f.kind != .merge || Tab.at s.mesh.credit (creditKey f) 0 < 2048 / max 1 f.fanin

/-- A contributor's credit taken or given back (09 R264). -/
def takeCredit (s : State) (f : Flit) : State :=
  if s.mesh.ordered && f.kind == .merge then
    { s with mesh := { s.mesh with credit := Tab.put s.mesh.credit (creditKey f) (Tab.at s.mesh.credit (creditKey f) 0 + 1) } }
  else s

/-- A contributor's credit given back as its flit leaves the port (09 R264). -/
def giveCredit (s : State) (f : Flit) : State :=
  let n := Tab.at s.mesh.credit (creditKey f) 0
  if n = 0 then s
  else { s with mesh := { s.mesh with credit := if n = 1 then Tab.del s.mesh.credit (creditKey f)
                                                else Tab.put s.mesh.credit (creditKey f) (n - 1) } }

/-- A flit may leave its unit for the router: the router can accept it and its contributor has credit. -/
def mayInject (s : State) (node : Fin 68) (inp : Nat) (f : Flit) : Bool := canAccept s node inp f && mergeCredit s f

/-- A unit at a port injects a flit, with the epoch in force (09 R252, R271): into the router, or behind what waits before
it. A hold discards traffic here (R270). -/
def inject (s : State) (f : Flit) : State :=
  let inp := if f.src < 64 then 4 else match portIndex f.src with
    | some i => 8 + i
    | none => 16
  let node := portRouter f.src
  let g := { f with vc := 0, epoch := s.mesh.epoch }
  let waiting := s.outQ node.val (injectOut node)
  if s.mesh.hold && heldKind g.kind then holdDiscard s node g
  else if waiting.any (fun q => q.flit.cls == g.cls) || !mayInject s node inp g then
    s.setOutQ node.val (injectOut node) (waiting ++ [⟨inp, g⟩])
  else enterNode (takeCredit s g) node inp g

/-- A flit with every field at nothing. -/
def blankFlit : Flit :=
  { cls := .slate, kind := .ack, vc := 0, epoch := 0, src := 0, dest := 0, addr := 0, chk := false, slot := 0, fin := false,
    ladle := 0, mask := 0, sumTag := 0, fanin := 0, bf16 := false, cnt := 0, positions := 0, sources := [], block := 0,
    headers := [], status := 0, loc := 0, len := 0, tag := 0, part := 0, last := false, poison := [], payload := [] }

/-- The acknowledgement flits of a landed flit (09 R253, R261): back to the ladle's skillet, or to each contributor of a
MERGE flit. `fin` marks an acknowledgement of a MERGE flit. -/
def sendAcks (s : State) (at_ : Nat) (f : Flit) (status : Nat) : State :=
  let ack (merge : Bool) (o : Nat) : Flit :=
    { blankFlit with cls := f.cls, kind := .ack, src := at_, dest := o, ladle := f.ladle, tag := f.tag, fin := merge,
                     status := status }
  match f.kind with
  | .merge => f.sources.foldl (fun t o => inject t (ack true o)) s
  | .write | .mcastWrite => inject s (ack false f.src)
  | _ => s

/-! ### Ladle portions on the mesh -/

/-- The 256-byte pieces of a byte list with their offsets. -/
def pieces (bs : List Byte) : List (Nat × List Byte) :=
  (List.range ((bs.length + 255) / 256)).map (fun i => (256 * i, (bs.drop (256 * i)).take 256))

/-- The data of a portion in order. -/
def Portion.bytes (x : Portion) : List Byte := x.data.flatMap (fun e => e.2)

/-- The flits of a portion leave for its receivers (07 R196, R197, R208): one WRITE flit per piece to a REMOTE
destination, one MCAST_WRITE flit per piece to the PID mask of a MULTICAST destination. FIN stands on the block's
final flit. -/
def sendPortion (s : State) (p : Pid) (l : Fin 8) (x : Portion) : State :=
  let ps := pieces x.bytes
  let s := s.modLd p l (fun d => d.modPortion x.tag (fun y => { y with
    sent := true, acks := x.receivers.foldl (fun a q => Tab.put a q.val ps.length) [] }))
  let mask := x.receivers.foldl (fun a (q : Pid) => a + 2 ^ q.val) 0
  ps.foldl (fun t e =>
    let f : Flit := { blankFlit with
      cls := x.cls, kind := if x.space == .multicast then .mcastWrite else .write, src := p.val,
      dest := (x.receivers.head?.map (fun q => q.val)).getD 0, addr := (x.dstAddr + e.1) / 64, chk := x.dstChk,
      slot := x.dstSlot, fin := x.fin && e.1 + 256 ≥ x.len, ladle := l.val, mask := BitVec.ofNat 64 mask, tag := x.tag,
      len := e.2.length, part := e.1,
      poison := (x.poison.filter (fun g => e.1 ≤ 8 * g && 8 * g < e.1 + 256)).map (fun g => g - e.1 / 8),
      payload := e.2 }
    inject t f) s

/-- Portions with a remote destination leave in order, each once its data is whole (07 R197: FIN travels on the block's
final flit). -/
def sendReady (fuel : Nat) (s : State) (p : Pid) (l : Fin 8) : State :=
  match fuel with
  | 0 => s
  | fuel + 1 =>
    match (s.ld p l).portions.find? (fun x => !x.sent && (x.space == .remote || x.space == .multicast)) with
    | none => s
    | some x => if x.dataLeft = 0 then sendReady fuel (sendPortion s p l x) p l else s

/-- A DATA flit reaches its ladle (10 R299). -/
def takeData (s : State) (p : Pid) (f : Flit) : State :=
  let l := flitLadle f
  let s := s.modLd p l (fun d => d.modPortion f.tag (fun x => { x with
    data := Tab.put x.data f.part f.payload, dataLeft := x.dataLeft - f.payload.length,
    poison := f.poison.foldl (fun a g => insertNat a (f.part / 8 + g)) x.poison }))
  sendReady 512 s p l

/-- A DONE flit reaches its ladle (10 R299): a write answered, or a read part refused with its length. -/
def takeDone (s : State) (p : Pid) (f : Flit) : State :=
  let l := flitLadle f
  let s := s.modLd p l (fun d => d.modPortion f.tag (fun x => { x with
    doneLeft := if f.len = 0 then x.doneLeft - 1 else x.doneLeft, dataLeft := x.dataLeft - f.len,
    status := if x.status = 0 then f.status else x.status }))
  sendReady 512 s p l

/-- A flit arrives at a port (09 R271, R270): one of another epoch is discarded; under a hold traffic is discarded;
answers go to their unit; the rest waits in the landing buffer of its class or at the rim port. -/
def deliver (s : State) (node : Fin 68) (port : Nat) (f : Flit) : State :=
  if f.epoch != s.mesh.epoch then countDiscard s node 1
  else if s.mesh.hold && heldKind f.kind then ackNow (countDiscard s node 1) f port 0
  else if h : port < 64 then
    match f.kind with
    | .ack => takeAck s port f.fin f.ladle f.tag f.src f.status
    | .memData => takeData s ⟨port, h⟩ f
    | .memDone => takeDone s ⟨port, h⟩ f
    | _ => s.modRt node (fun r => { r with landing := vmod r.landing (TClassIx f.cls) (fun q => q ++ [f]) })
  else { s with mesh := { s.mesh with rimLanding := Tab.put s.mesh.rimLanding port (Tab.at s.mesh.rimLanding port [] ++ [f]) } }

end Sys2Proof.Machine
end

