-- ==== Sys2Proof/Machine/Operands.lean ====
section
/-! DEFINITION. Machine/Operands.lean: the operand forms: plan addresses and the region table (10 R289-R297), block
lists (07 R188-R193), pass descriptors (04 R112-R117), memory-operation descriptors (06 R162) and whisk descriptors (08
R234, R235); and the watch taps (13 R400, 08 R245). -/

namespace Sys2Proof.Machine

/-! ### Plan addresses -/

/-- 128 KiB, the unit of the region table. -/
def regUnit : Nat := 131072

/-- The region that holds a plan address. -/
def regionAt (rs : List Region) (a : Nat) : Option Region :=
  rs.find? (fun r => r.kind != 0 && r.base * regUnit ≤ a && a < (r.base + r.size) * regUnit)

/-- The granule of a region's GRAN code (10 R291). -/
def granBytes (g : Nat) : Nat := 4096 / 2 ^ g

/-- Where a plan address lies: stack, local offset and the bytes left in its granule (10 R290, R297). In a compound
region the R sub-array, behind 3U × 128 KiB, has a granule of 2 KiB. -/
def mapPlan (rs : List Region) (a : Nat) : Option (Nat × Nat × Nat) :=
  (regionAt rs a).map (fun r =>
    let b := r.base * regUnit
    let o := a - b
    let g := granBytes r.gran
    let sub := 3 * r.stripes * regUnit
    if 4 ≤ r.kind && r.kind ≤ 7 && sub ≤ o then
      let q := o - sub
      (q / 2048 % 32, b / 32 + 3 * r.stripes * 4096 + q / 65536 * 2048 + q % 2048, 2048 - q % 2048)
    else (o / g % 32, b / 32 + o / (32 * g) * g + o % g, g - o % g))

/-- Where a steward address lies: stack, local offset and the bytes left in its granule (10 R294). -/
def mapSteward (a : Nat) : Nat × Nat × Nat :=
  (a / 4096 % 32, 95 * 2 ^ 30 + a / 131072 * 4096 + a % 4096, 4096 - a % 4096)

/-- Whether every byte of a plan range lies in a region (10 R290), in a SCRATCH region where `scratch` asks for it. -/
def planRangeOk (rs : List Region) (a len : Nat) (scratch : Bool) : Bool :=
  len = 0 || (List.range ((a + len - 1) / regUnit + 1 - a / regUnit)).all (fun i =>
    match regionAt rs (max a ((a / regUnit + i) * regUnit)) with
    | some r => !scratch || r.kind == 9
    | none => false)

/-- A part of a portion: its port, local byte offset, offset in the portion and length (10 R299). -/
structure Part where
  port : Nat
  loc : Nat
  off : Nat
  len : Nat
  deriving DecidableEq, Repr

/-- The parts of a memory range, one granule run each (10 R299): of plan space, of a rim buffer (R194) or of the staging
window. -/
def memParts (s : State) (space : Space) (fuel a off len : Nat) : List Part :=
  match fuel with
  | 0 => []
  | fuel + 1 =>
    if len = 0 then []
    else
      let at' : Option (Nat × Nat × Nat) :=
        match space with
        | .stack => (mapPlan s.regions a).map (fun x => (64 + x.1, x.2.1, x.2.2))
        | .rimBuffer => some (96 + a / 2 ^ 28, a % 2 ^ 28, 2 ^ 28 - a % 2 ^ 28)
        | _ => let x := mapSteward (s.guard.stageBase + a); some (64 + x.1, x.2.1, x.2.2)
      match at' with
      | none => []
      | some (port, loc, run) =>
        let n := min len run
        ⟨port, loc, off, n⟩ :: memParts s space fuel (a + n) (off + n) (len - n)

/-! ### Block lists (07 R188-R193) -/

/-- A 64-bit word of pantry without side effects, for re-reading what a counted read has delivered. -/
def word64 (bs : List Byte) (off : Nat) : Nat := leNat ((bs.drop off).take 8)

/-- The class of a list (07 R189); 0b11 is reserved. -/
def listClass (c : Nat) : TClass :=
  match c with
  | 0 => .amber
  | 1 => .slate
  | _ => .ash

/-- A list header from its 32 bytes. -/
def listHead (bs : List Byte) : ListHead :=
  let h := word64 bs 0
  { cls := listClass (bits h 59 58), deep := bit h 57, depth := bits h 56 47, count := bits h 46 38, linkEn := bit h 37,
    mcast := bit h 36, link := bits h 22 0, mask := bits (word64 bs 8) 55 0, listId := bits (word64 bs 16) 15 0 }

/-- An endpoint space by its code; 0b110 and 0b111 are reserved. -/
def spaceOf (c : Nat) : Option Space :=
  match c with
  | 0 => some .pantry
  | 1 => some .stack
  | 2 => some .rimBuffer
  | 3 => some .remote
  | 4 => some .multicast
  | 5 => some .stage
  | _ => none

/-- A block record from its 32 bytes; a reserved space code reads as PANTRY here and is refused by validation. -/
def blockOf (bs : List Byte) : Block :=
  let b0 := word64 bs 0
  let b1 := word64 bs 8
  let b2 := word64 bs 16
  let b3 := word64 bs 24
  { srcSpace := (spaceOf (bits b0 63 61)).getD .pantry, dstSpace := (spaceOf (bits b0 60 58)).getD .pantry,
    target := bits b0 57 52, rows := bits b0 51 33, rowUnits := bits b0 32 14, srcStride := bits b1 63 40,
    dstStride := bits b1 39 16, tapEn := bit b1 15, tapFmt := bits b1 14 11, tap := bits b1 9 0,
    srcChk := bit b2 63, rel := bit b2 62, srcSlot := bits b2 61 50, srcAddr := bits b2 35 0,
    dstChk := bit b3 63, fin := bit b3 62, dstSlot := bits b3 61 50, dstAddr := bits b3 35 0 }

/-- Block j of a list's bytes. -/
def listBlock (bs : List Byte) (j : Nat) : Block := blockOf (bs.drop (32 + 32 * j))

/-- Whether a block moves no data (07 R202). -/
def Block.empty (b : Block) : Bool := b.rows = 0 || b.rowUnits = 0

/-- The units an endpoint's range spans (07 R201); a block without rows spans none. -/
def Block.span (b : Block) (stride : Nat) : Nat := if b.rows = 0 then 0 else (b.rows - 1) * stride + b.rowUnits

/-- Whether a space is a pantry (07 R194). -/
def Space.isPantry (x : Space) : Bool := x == .pantry || x == .remote || x == .multicast

/-- The limit of a space in 64-byte units (07 R194). -/
def spaceLimit (s : State) (x : Space) : Nat :=
  match x with
  | .stack => 3040 * 2 ^ 24
  | .rimBuffer => 0x1000000
  | .stage => s.guard.stageSize / 64
  | _ => 0x780000

/-- The reserved fields of a list's header and blocks (07 R189-R193). -/
def listReserved (bs : List Byte) (h : ListHead) : Bool :=
  let h0 := word64 bs 0
  bits h0 35 23 != 0 || bits h0 59 58 == 3 || (!h.linkEn && h.link != 0) || bits (word64 bs 8) 63 56 != 0
    || bits (word64 bs 16) 63 16 != 0 || word64 bs 24 != 0
    || (List.range h.count).any (fun j =>
        let b := bs.drop (32 + 32 * j)
        let b0 := word64 b 0
        let b1 := word64 b 8
        bits b0 13 0 != 0 || 6 ≤ bits b0 63 61 || 6 ≤ bits b0 60 58 || bit b1 10 || (!bit b1 15 && bits b1 14 11 != 0)
          || bits (word64 b 16) 49 36 != 0 || bits (word64 b 24) 49 36 != 0)

/-- The inconsistencies of a list (07 R201, 0x0306). -/
def listInconsistent (bs : List Byte) (h : ListHead) : Bool :=
  (!h.deep && h.depth != 0) || (h.mcast && h.mask == 0) || (!h.mcast && word64 bs 8 != 0)
    || (List.range h.count).any (fun j =>
        let b := listBlock bs j
        b.srcSpace == .remote || b.srcSpace == .multicast || b.dstSpace == .stage
          || (!b.srcSpace.isPantry && !b.dstSpace.isPantry) || (b.srcChk && !b.srcSpace.isPantry)
          || (b.dstChk && !b.dstSpace.isPantry) || (!b.srcChk && (b.rel || b.srcSlot != 0))
          || (!b.dstChk && (b.fin || b.dstSlot != 0)) || (b.target != 0 && b.dstSpace != .remote)
          || (b.dstSpace == .multicast && !h.mcast)
          || (b.srcChk && b.dstChk && b.srcSpace == .pantry && b.dstSpace == .pantry && b.srcSlot == b.dstSlot)
          || (b.tapEn && 1 < b.tapFmt))

/-- The range failures of one block (07 R201, 0x0702). -/
def blockRange (s : State) (k : Pantry) (b : Block) : Bool :=
  let se := b.span b.srcStride
  let de := b.span b.dstStride
  2 ^ 24 < b.rows * b.rowUnits * 64 || (b.dstStride < b.rowUnits && 1 < b.rows) || 55 < b.target
    || spaceLimit s b.srcSpace < b.srcAddr + se || spaceLimit s b.dstSpace < b.dstAddr + de
    || (b.srcSpace == .stack && !planRangeOk s.regions (b.srcAddr * 64) (se * 64) false)
    || (b.dstSpace == .stack && !planRangeOk s.regions (b.dstAddr * 64) (de * 64) true)
    || (b.srcChk && !(k.slot b.srcSlot).covers (b.srcAddr * 64) (se * 64))
    || (b.dstChk && b.dstSpace == .pantry && !(k.slot b.dstSlot).covers (b.dstAddr * 64) (de * 64))

/-- Whether a local range of a block touches a shelf that is not OPEN (07 R201, 0x0703). -/
def blockClosed (k : Pantry) (b : Block) : Bool :=
  (b.srcSpace == .pantry && !rangeOpen k (b.srcAddr * 64) (b.span b.srcStride * 64))
    || (b.dstSpace == .pantry && !rangeOpen k (b.dstAddr * 64) (b.span b.dstStride * 64))

/-- The first status of R201 whose condition holds for a list at a unit address with its bytes; 0 where it stands. -/
def listStatus (s : State) (p : Pid) (addr : Nat) (bs : List Byte) : Nat :=
  let h := listHead bs
  let k := s.pn p
  if paLimit < addr * 64 + 32 + 32 * h.count || bits (word64 bs 0) 63 60 != 1 then stDescFormat
  else if listReserved bs h then stReserved
  else if listInconsistent bs h then stInconsistent
  else if h.count = 0 || 256 < h.count || (h.deep && (h.depth == 0 || 512 < h.depth))
      || (List.range h.count).any (fun j => blockRange s k (listBlock bs j)) then stDescRange
  else if (List.range h.count).any (fun j => blockClosed k (listBlock bs j)) then stBankClosed
  else 0

/-! ### Memory-operation descriptors (06 R162) and operands -/

/-- The bytes an operand's rows span from its address. -/
def Operand.range (o : Operand) (rows rowLen : Nat) : Nat := if rows = 0 then 0 else (rows - 1) * (o.stride * 64) + rowLen

/-- The first byte of an operand. -/
def Operand.base (o : Operand) : Nat := o.addr * 64

/-! ### Pass descriptors (04 R112-R117) -/

/-- A pass descriptor from its 64 bytes. -/
def passDescOf (bs : List Byte) : PassDesc :=
  let w0 := word64 bs 0
  let w1 := word64 bs 8
  let w3 := word64 bs 24
  let w7 := word64 bs 56
  { aFmt := bits w0 63 60, wFmt := bits w0 59 56, oFmt := bits w0 55 52,
    load := match bits w0 51 50 with | 0 => .reuse | 1 => .native | 2 => .transposed | _ => .reservedLoad,
    init := match bits w0 49 48 with | 0 => .zero | 1 => .continue_ | 2 => .source | _ => .reservedInit,
    emit := bit w0 47,
    order := match bits w0 46 45 with | 0 => .row | 1 => .column | 2 => .both | _ => .reservedOrder,
    dest := match bits w0 44 43 with | 0 => .pantry | 1 => .merge | 2 => .rim | _ => .reservedDest,
    hold := bit w0 42, noRetry := bit w0 41, tapEn := bit w0 40, gbWrite := bit w0 39,
    rsv := bits w0 38 36 != 0 || bits w1 63 26 != 0 || bits w1 15 10 != 0 || bits w3 63 46 != 0,
    n := bits w0 35 28, k := bits w0 27 17, m := bits w0 16 0, tap := bits w1 25 16, accBase := bits w1 9 0,
    w2 := operandOf (word64 bs 16), wScale := bits w3 45 23, aScale := bits w3 22 0, w4 := operandOf (word64 bs 32),
    w5 := operandOf (word64 bs 40), w6 := operandOf (word64 bs 48), sumTag := bits w7 63 48, target := bits w7 47 42,
    fanin := bits w7 41 36, blockBase := bits w7 35 0 }

/-! ### Whisk descriptors (08 R234, R235) -/

/-- A whisk descriptor from its 64 bytes. -/
def whiskDescOf (bs : List Byte) : WhiskDesc :=
  let w0 := word64 bs 0
  let w1 := word64 bs 8
  let w2 := word64 bs 16
  { op := bits w0 63 56, inFmt := bits w0 55 52, outFmt := bits w0 51 48, sat := bit w0 47, tapEn := bit w0 46,
    tap := bits w0 45 36, cols := bits w0 35 18, rows := bits w0 17 0, p0 := BitVec.ofNat 32 (bits w1 63 32),
    p1 := BitVec.ofNat 32 (bits w1 31 0), p2 := BitVec.ofNat 32 (bits w2 63 32), p3 := BitVec.ofNat 32 (bits w2 31 0),
    inScale := bits w2 22 0, outScale := bits w2 45 23, w2rsv := bits w2 63 46, a := operandOf (word64 bs 24),
    b := operandOf (word64 bs 32), c := operandOf (word64 bs 40), d := operandOf (word64 bs 48),
    e := operandOf (word64 bs 56) }

/-! ### Watch taps (13 R400, 08 R244, R245) -/

/-- The bin of a watched value (13 R400). -/
def tapBin (x : Num) : Nat :=
  match x with
  | .fin _ m e =>
    if m = 0 then 0
    else
      let k := e + Nat.log2 m
      if k < -45 then 1 else if 14 < k then 62 else (k + 47).toNat
  | _ => 63

/-- The counters of a bank by entry. -/
def TapBank.entries (b : TapBank) : List (Tab Nat) := b.points.map (fun e => e.2) ++ b.left.drop b.points.length

/-- One value counted in a bank: the bank and whether it was dropped for a 65th watch point (08 R245). A new point takes the
next entry; DESIGN CHOICE, log 65: with the counters that the entry has, where nothing has cleared them. -/
def TapBank.count (b : TapBank) (w bin : Nat) : TapBank × Bool :=
  match b.points.find? (fun e => e.1 == w) with
  | some _ => ({ b with points := b.points.map (fun e =>
      if e.1 = w then (w, Tab.put e.2 bin (sat32 (Tab.at e.2 bin 0) 1)) else e) }, false)
  | none =>
    let c := b.left.getD b.points.length []
    if b.points.length < 64 then ({ b with points := b.points ++ [(w, Tab.put c bin (sat32 (Tab.at c bin 0) 1))] }, false)
    else (b, true)

/-- Values binned by a tap of a skillet into the bank in force (08 R245): a dropped value counts in TAP_DROPPED, and
TAP_TABLE_FULL is raised once while a bank is in force. -/
def tapValues (s : State) (p : Pid) (w : Nat) (xs : List Num) : State :=
  let r := xs.foldl (fun (a : TapBank × Nat) x =>
    let c := a.1.count w (tapBin x); (c.1, if c.2 then a.2 + 1 else a.2)) ((s.sk p).taps.active, 0)
  let first := 0 < r.2 && !r.1.fullRaised
  let s := s.modSk p (fun k => { k with
    taps := { k.taps with active := { r.1 with fullRaised := r.1.fullRaised || first } },
    whisk := { k.whisk with tapDropped := sat64 k.whisk.tapDropped r.2 } })
  if first then raiseSk s p 4 .tapTableFull (names [w]) else s

end Sys2Proof.Machine
end

