-- ==== Sys2Proof/Machine/Griddle.lean ====
section
/-! DEFINITION. Machine/Griddle.lean: the griddle matrix arrays (04): validation, loads, passes, emits and faults. -/

namespace Sys2Proof.Machine

/-- MACs per cell per cycle of a format pair (04 R99); 0 where the pair is not allowed. -/
def pairRate (a w : Nat) : Nat :=
  if a ≤ 1 then (if w = a || (2 ≤ w && w ≤ 6) then 1 else 0)
  else if a ≤ 3 then (if 2 ≤ w && w ≤ 6 then 2 else 0)
  else if a ≤ 6 then (if w = 2 || w = 3 then 2 else if 4 ≤ w && w ≤ 6 then 4 else 0)
  else if a = 7 then (if w = 7 || w = 8 then 2 else 0)
  else if a = 8 then (if w = 7 then 2 else if w = 8 then 4 else 0)
  else 0

/-- Whether a pass moves no data (04 R123). -/
def PassDesc.empty (d : PassDesc) : Bool := d.m = 0 || d.n = 0

/-- Whether a pass loads a stationary tile (04 R102, R123). -/
def PassDesc.loads (d : PassDesc) : Bool := !d.empty && d.k != 0 && d.load != .reuse

/-- The window rows of a pass (04 R106): a ring for a single-pass chain that emits in ROW order. -/
def PassDesc.rows (d : PassDesc) : Nat :=
  if d.empty then 0
  else if d.emit && d.init != .continue_ && d.order == .row then min d.m 256 else d.m

/-- Blocks of 32 along k (04 R100). -/
def PassDesc.kBlocks (d : PassDesc) : Nat := (d.k + 31) / 32

/-- Whether W5 is used (04 R117). -/
def PassDesc.usesW5 (d : PassDesc) : Bool := d.init == .source || d.order == .both

/-- The rows and row bytes of W6: ROW and BOTH by token, COLUMN by feature (04 R108). -/
def PassDesc.destShape (d : PassDesc) : Nat × Nat := if d.order == .column then (d.n, 2 * d.m) else (d.m, 2 * d.n)

/-- The pantry ranges of a pass, each with its operand where it has one: stationary, streaming, scales, init source,
column destination and destination (04 R102, R100, R110, R108). -/
def PassDesc.ranges (d : PassDesc) : List (Option Operand × Nat × Nat) :=
  if d.empty then []
  else
    (if d.loads then
      [(some d.w2, d.w2.base, if d.load == .native then d.w2.range d.n (rowBytes d.wFmt d.k)
        else d.w2.range d.k (rowBytes d.wFmt d.n))] else [])
    ++ (if d.loads && fmtScaled d.wFmt then [(none, d.wScale * 64, d.n * d.kBlocks)] else [])
    ++ (if d.k != 0 then [(some d.w4, d.w4.base, d.w4.range d.m (rowBytes d.aFmt d.k))] else [])
    ++ (if d.k != 0 && fmtScaled d.aFmt then [(none, d.aScale * 64, d.m * d.kBlocks)] else [])
    ++ (if d.init == .source then [(some d.w5, d.w5.base, d.w5.range d.m (2 * d.n))] else [])
    ++ (if d.emit && d.dest == .pantry && d.order == .both then [(some d.w5, d.w5.base, d.w5.range d.n (2 * d.m))] else [])
    ++ (if d.emit && d.dest == .pantry then [(some d.w6, d.w6.base, d.w6.range d.destShape.1 d.destShape.2)] else [])

/-- A non-zero unused word or field (04 R116-R118). -/
def PassDesc.unusedSet (d : PassDesc) : Bool :=
  [d.w2, d.w4, d.w5, d.w6].any Operand.unusedField
    || ((d.load == .reuse || d.k = 0) && d.w2.raw != 0) || (!d.usesW5 && d.w5.raw != 0) || (!d.emit && d.w6.raw != 0)
    || (d.dest == .rim && (d.w6.addr != 0 || d.w6.slot != 0 || d.w6.chk))
    || ((!d.emit || d.dest == .pantry) && (d.sumTag != 0 || d.target != 0 || d.fanin != 0 || d.blockBase != 0))
    || (d.dest == .merge && d.blockBase != 0) || (d.dest == .rim && (d.sumTag != 0 || d.target != 0 || d.fanin != 0))
    || (!fmtScaled d.wFmt && d.wScale != 0) || (!fmtScaled d.aFmt && d.aScale != 0)

/-- What a queued pass leaves for the checks of the next (04 R118): the front tile's shape and the open windows with
their pass counts. -/
structure Ahead where
  front : Option (Nat × Nat × Nat × Bool)
  open_ : List (PassDesc × Nat)
  deriving DecidableEq, Repr

/-- Whether two windows overlap. -/
def overlaps (b1 r1 b2 r2 : Nat) : Bool := b1 < b2 + r2 && b2 < b1 + r1 && r1 != 0 && r2 != 0

/-- Whether a pass continues the chain of another's window (04 R107). -/
def PassDesc.sameChain (a b : PassDesc) : Bool :=
  a.accBase == b.accBase && a.m == b.m && a.n == b.n && a.aFmt == b.aFmt && a.wFmt == b.wFmt && a.oFmt == b.oFmt

/-- The state ahead after a pass has run. -/
def Ahead.after (x : Ahead) (d : PassDesc) : Ahead :=
  let front := if d.loads then some (d.k, d.n, d.wFmt, d.load == .transposed) else x.front
  let o := if d.init == .continue_ then
      x.open_.map (fun e => if e.1.sameChain d then (e.1, e.2 + 1) else e)
    else x.open_.filter (fun e => !overlaps e.1.accBase e.1.rows d.accBase d.rows && !e.1.sameChain d) ++ [(d, 1)]
  { front := front, open_ := if d.emit then o.filter (fun e => !e.1.sameChain d) else o }

/-- The state the griddle will have with every queued pass accepted (04 R118). -/
def Griddle.ahead (g : Griddle) : Ahead :=
  let start : Ahead := {
    front := g.front.map (fun t => (t.k, t.n, t.wFmt, t.transposed))
    open_ := (g.windows.filter (fun w => !w.closing)).filterMap (fun w => w.passes.head?.map (fun q => (q.desc, w.passes.length))) }
  (g.retryQueue ++ g.queue).foldl (fun x q => x.after q.desc) start

/-- The first status of R118 whose condition holds for a descriptor at a unit address; 0 where it stands. DESIGN CHOICE, log
63: REUSE carries no orientation of its own, so none is compared with the tile's. -/
def passStatus (s : State) (p : Pid) (g : Fin 4) (addr : Nat) (d : PassDesc) : Nat :=
  let k := s.pn p
  let rate := pairRate d.aFmt d.wFmt
  let x := (s.gr p g).ahead
  let rs := d.ranges
  let checked (r : Option Operand × Nat × Nat) : Bool := match r.1 with
    | some o => o.chk && !(k.slot o.slot).covers r.2.1 r.2.2
    | none => false
  let win := x.open_.find? (fun e => e.1.sameChain d)
  if paLimit < addr * 64 + 64 then stDescFormat
  else if d.rsv || 11 ≤ d.aFmt || 11 ≤ d.wFmt || 11 ≤ d.oFmt || d.load == .reservedLoad || d.init == .reservedInit
      || d.order == .reservedOrder || d.dest == .reservedDest || d.w2.rsv || d.w4.rsv || d.w5.rsv || d.w6.rsv then stReserved
  else if rate = 0 || !(d.oFmt = 0 || d.oFmt = 1 || d.oFmt = 9) || d.unusedSet then stInconsistent
  else if 65536 < d.m || 248 < d.n || 256 * rate < d.k then stDescRange
  else if (1024 < d.m && (!d.emit || d.init == .continue_ || d.order != .row)) || 1024 < d.accBase + d.rows then stDescRange
  else if rs.any (fun r => paLimit < r.2.1 + r.2.2) || rs.any checked
      || (d.emit && d.dest != .rim && d.w6.stride * 64 < d.destShape.2)
      || (d.emit && d.order == .both && d.w5.stride * 64 < 2 * d.m)
      || (d.emit && d.dest == .merge && (55 < d.target || d.fanin = 0 || 56 < d.fanin
        || (!d.empty && paLimit < d.w6.base + d.w6.range d.destShape.1 d.destShape.2))) then stDescRange
  else if d.init == .continue_ && win.isNone then stInconsistent
  else if d.init == .continue_ && 64 ≤ (win.map (fun e => e.2)).getD 0 then stDescRange
  else if d.load == .reuse && (match x.front with
      | some f => !(f.1 == d.k && f.2.1 == d.n && f.2.2.1 == d.wFmt)
      | none => true) then stInconsistent
  else if (d.dest == .rim && !(d.oFmt = 9 && d.order == .column && d.m % 32 = 0)) || (d.oFmt = 9 && d.dest != .rim)
    then stInconsistent
  else if (d.init == .source && (d.oFmt = 9 || d.order == .both)) || (d.order == .both && d.dest != .pantry)
      || (d.init == .source && d.emit && d.dest == .pantry && d.w5.chk && d.w6.chk && d.w5.slot == d.w6.slot)
    then stInconsistent
  else if rs.any (fun r => !rangeOpen k r.2.1 r.2.2) then stBankClosed
  else 0

/-- A rejected pass (04 R118). -/
def rejectPass (s : State) (p : Pid) (g : Fin 4) (st addr : Nat) : State :=
  let s := s.modGr p g (fun x => { x with lastStatus := st, passesRejected := sat64 x.passesRejected 1 })
  raiseSk s p g.val .passRejected (names [addr, st])

/-- PASS_ISSUE (04 R118, R119): the descriptor is copied, validated and queued; a full queue makes the task wait. DESIGN
CHOICE, log 63: a descriptor that comes poisoned, or from a shelf that is not open, is judged by the bytes that memory
holds; its read raises the events of 06 R179 and R180 (R112 is silent). -/
def execPassIssue (p : Pid) (s : State) : Out :=
  .next (issueWord s p .issue (fun s t w =>
    let g : Fin 4 := Fin.ofNat 4 (bits w 111 110)
    let addr := bits w 109 87
    if 4 ≤ (s.gr p g).queue.length then waitTask s p t 5 w
    else
      let i := issuerOf s p t w
      let (r, s) := if paLimit < addr * 64 + 64 then (⟨List.replicate 64 0, [], []⟩, s)
                    else readRange s p g.val (addr * 64) 64
      let d := passDescOf r.bytes
      match passStatus s p g addr d with
      | 0 =>
        let s := s.modGr p g (fun x => { x with
          queue := x.queue ++ [{ desc := d, issuer := i, id := x.serial }], serial := x.serial + 1 })
        finishWord s p t w 0
      | st => finishWord (rejectPass s p g st addr) p t w st))

/-- The end of a flush (04 R126, 08 R223): its completion is posted when the griddle is idle. -/
def flushDone (s : State) (p : Pid) (g : Fin 4) : State :=
  let x := s.gr p g
  if x.flushPending || !x.active.isEmpty || x.flushers.isEmpty then s
  else x.flushers.foldl (fun t i => postCompletion t p i 0) (s.modGr p g (fun x => { x with flushers := [] }))

/-- A flush takes effect at a pass boundary (04 R126, R130): the queue and every open window go, HALTED clears and the
front tile is no longer valid; passes in DRAIN and EMIT complete. A pass whose issue a fault has stopped goes too. -/
def doFlush (s : State) (p : Pid) (g : Fin 4) : State :=
  flushDone (s.modGr p g (fun x => { x with
    queue := [], retryQueue := [], active := x.active.filter (fun a => a.st != .issue),
    windows := x.windows.filter (fun w => w.closing), front := none, back := none, saved := none,
    loadFault := none, halted := false, flushPending := false })) p g

/-- Whether a pass streams its rows: one is in ISSUE and no fault has halted the griddle (04 R122, R128). -/
def Griddle.issuing (g : Griddle) : Bool := !g.halted && g.active.any (fun a => a.st == .issue)

/-- Whether a fault has been met and not yet handled: issue stands still (04 R128). -/
def Griddle.faulted (g : Griddle) : Bool := g.loadFault.isSome || g.active.any (fun a => a.fault != 0)

/-- PASS_FLUSH (04 R126): at once where no pass streams, otherwise at the next pass boundary. -/
def execPassFlush (p : Pid) (s : State) : Out :=
  .next (issueWord s p .flush (fun s t w =>
    let g : Fin 4 := Fin.ofNat 4 (bits w 111 110)
    let i := issuerOf s p t w
    let s := advance s p t
    let s := s.modGr p g (fun x => { x with flushers := x.flushers ++ [i], flushPending := true })
    if (s.gr p g).issuing then s else doFlush s p g))

/-! ### Loads -/

/-- Rows of bytes read by a griddle: each row's bytes, whether poison came, and the state. -/
def readRows (s : State) (p : Pid) (m base stride rows len : Nat) : List (List Byte) × Bool × State :=
  (List.range rows).foldl (fun (a : List (List Byte) × Bool × State) i =>
    let (r, s) := readRange a.2.2 p m (base + i * stride) len
    (a.1 ++ [r.bytes], a.2.1 || r.poison, s)) ([], false, s)

/-- The elements of a packed row with their block scales (04 R100, 05 R139, R140). -/
def rowNums (code n : Nat) (row scales : List Byte) : List Num :=
  (List.range n).map (fun j => scaledNum code (rowElem code row j) ((scales.getD (j / 32) 127#8).toNat))

/-- The scale bytes of an operand row (04 R100). -/
def readScales (s : State) (p : Pid) (m code base rows b : Nat) : List (List Byte) × Bool × State :=
  if fmtScaled code then readRows s p m base b rows b else (List.replicate rows [], false, s)

/-- The stationary tile of a pass read from pantry (04 R102): row k, column n. Scales go by column along k (R100). -/
def readTile (s : State) (p : Pid) (g : Fin 4) (d : PassDesc) : Tile × Bool × State :=
  let (sc, p1, s) := readScales s p g.val d.wFmt (d.wScale * 64) d.n d.kBlocks
  let scale (k n : Nat) : Nat := (((sc.getD n []).getD (k / 32) 127#8)).toNat
  let native := d.load == .native
  let (rows, p2, s) := readRows s p g.val d.w2.base (d.w2.stride * 64) (if native then d.n else d.k)
    (rowBytes d.wFmt (if native then d.k else d.n))
  let elem (k n : Nat) : Num :=
    scaledNum d.wFmt (if native then rowElem d.wFmt (rows.getD n []) k else rowElem d.wFmt (rows.getD k []) n) (scale k n)
  (⟨d.wFmt, d.k, d.n, !native, (List.range d.k).map (fun k => (List.range d.n).map (fun n => elem k n))⟩, p1 || p2, s)

/-- The release of a source slot whose operand carries REL (04 R120). -/
def releaseOperand (s : State) (p : Pid) (o : Operand) : State := if o.chk && o.rel then slotRelease s p o.slot else s

/-- The passes of a griddle that wait, in the order in which they issue. -/
def Griddle.waiting (g : Griddle) : List Pass := g.retryQueue ++ g.queue

/-- A word that waits for room in a queue may be presented again: nothing is done here; TASK_WAKE sees the room. -/
def queueRoom (g : Griddle) : Bool := g.queue.length < 4

/-- STATIONARY_LOAD_START (04 R102, R103, R120): the next pass that needs a tile, once the back registers are free and
its stationary slot is FULL. The slot is released at the end of the load where REL is 1 and HOLD is 0. `errs` are errors
that the banks have taken (06 R180). -/
def execStationaryLoadStart (p : Pid) (g : Fin 4) (errs : List (Nat × Bool)) (s : State) : Out :=
  let s := strike s p errs
  let x := s.gr p g
  match x.waiting.find? (fun q => q.desc.loads) with
  | none => .next s
  | some q =>
    let d := q.desc
    if x.halted || x.flushPending || x.back.isSome || x.loadFault.isSome || !s.computeOn p
        || (d.w2.chk && s.slotSt p d.w2.slot != .full) then .next s
    else
      let (tile, bad, s) := readTile s p g d
      let s := s.modGr p g (fun x => { x with
        back := some (q.id, tile), loadFault := if bad then some (q.id, 4) else none })
      .next (if d.hold then s else releaseOperand s p d.w2)

/-! ### Issue -/

/-- The exact sum of the products of one cell (04 R101): of products that are all −0 it is −0 (05 R136), so the sum begins
with −0, which changes no other sum. -/
def cellSum (rate i : Nat) (row : List Num) (col : List Num) : Num :=
  (List.range rate).foldl (fun a j =>
    match row[rate * i + j]?, col[rate * i + j]? with
    | some x, some y => Num.add a (Num.mul x y)
    | _, _ => a) (.fin true 0 0)

/-- The sum that leaves the last cell row: one binary32 rounding per cell row (04 R101). -/
def columnSum (rate k : Nat) (row col : List Num) : Num :=
  (List.range ((k + rate - 1) / rate)).foldl (fun a i => b32.rnd (Num.add a (cellSum rate i row col))) (.fin false 0 0)

/-- Column n of a tile. -/
def Tile.column (t : Tile) (n : Nat) : List Num := t.vals.map (fun r => r.getD n .nan)

/-- A window row with a pass added into it (04 R101); K = 0 leaves it as it is (R123). -/
def addRow (d : PassDesc) (cols : List (List Num)) (row : List Num) (w : List W32) : List W32 :=
  if d.k = 0 then w
  else
    let rate := pairRate d.aFmt d.wFmt
    (List.zip w cols).map (fun e => f32of (Num.add (f32num e.1) (columnSum rate d.k row e.2)))

/-- The initial window of a chain: +0, or the init source converted exactly (04 R110). -/
def initRows (s : State) (p : Pid) (g : Fin 4) (d : PassDesc) : List (List W32) × Bool × State :=
  if d.init == .source then
    let (rows, bad, s) := readRows s p g.val d.w5.base (d.w5.stride * 64) d.m (2 * d.n)
    (rows.map (fun r => (List.range d.n).map (fun j => f32of ((fmt16 d.oFmt).decode (rowElem d.oFmt r j)))), bad, s)
  else (List.replicate d.m (List.replicate d.n 0), false, s)

/-- The pantry destination operands of an emitting pass (04 R108, R121). -/
def PassDesc.dests (d : PassDesc) : List Operand :=
  if d.emit && d.dest == .pantry then (if d.order == .both then [d.w6, d.w5] else [d.w6]) else []

/-- The source operands of a pass (04 R120). -/
def PassDesc.sources (d : PassDesc) : List Operand :=
  (if d.load == .reuse || d.k = 0 then [] else [d.w2]) ++ [d.w4] ++ (if d.init == .source then [d.w5] else [])

/-- Whether a stop meets a step whose gate outcome is not known and nothing past its gate (01 R35). -/
def stopsAtBoundary (s : State) : Bool := s.life.st == .running && s.run.active && s.run.ended.isEmpty && !s.run.aRunning

/-- Whether a stop is held that takes effect at pass boundaries (01 R35, 04 R125): no griddle begins a pass meanwhile. -/
def stopHeld (s : State) : Bool := s.life.held = some 3 && stopsAtBoundary s

/-- Whether an emit may enter a slot (04 R121): EMPTY, or FILLING since an emit with FIN = 0. -/
def emitWritable (s : State) (p : Pid) (n : Nat) : Bool :=
  s.slotSt p n == .empty || (s.slotSt p n == .filling && ((s.pn p).slot n).emitFill)

/-- An emit enters a slot (04 R121): it is FILLING from the beginning of issue. -/
def emitEnter (s : State) (p : Pid) (o : Operand) : State :=
  if !o.chk then s
  else (slotProduce s p o.slot).modPn p (fun k =>
    let x := k.slot o.slot
    k.setSlot o.slot { x with emitFill := x.emitFill || !o.fin })

/-- Whether a pass may leave WAIT (04 R104, R120, R121, R107). -/
def passReady (s : State) (p : Pid) (g : Fin 4) (q : Pass) : Bool :=
  let x := s.gr p g
  let d := q.desc
  !x.halted && !x.flushPending && !x.faulted && !stopHeld s && s.computeOn p && !x.active.any (fun a => a.st == .issue)
    && (d.empty || (
      (!d.loads || (match x.back with | some b => b.1 == q.id | none => false))
      && (!d.w4.chk || s.slotSt p d.w4.slot == .full)
      && (!(d.init == .source && d.w5.chk) || s.slotSt p d.w5.slot == .full)
      && (d.init == .continue_ || !x.windows.any (fun w => w.closing && overlaps w.base w.rows d.accBase d.rows))
      && d.dests.all (fun o => !o.chk || emitWritable s p o.slot)))
    && (d.init != .continue_ || x.windows.any (fun w => !w.closing && w.base == d.accBase && w.m == d.m && w.n == d.n
      && w.aFmt == d.aFmt && w.wFmt == d.wFmt && w.oFmt == d.oFmt))

/-- A waiting pass leaves the queue. -/
def Griddle.dropHead (g : Griddle) : Griddle :=
  match g.retryQueue with
  | [] => { g with queue := g.queue.drop 1 }
  | _ :: r => { g with retryQueue := r }

/-- The window a pass works in: the chain's own, or a fresh one that voids the open windows it overlaps (04 R107). -/
def Griddle.enterWindow (g : Griddle) (q : Pass) (vals : List (List W32)) : Griddle × Nat :=
  let d := q.desc
  match (if d.init == .continue_ then g.windows.find? (fun w => !w.closing && w.base == d.accBase && w.m == d.m && w.n == d.n
      && w.aFmt == d.aFmt && w.wFmt == d.wFmt && w.oFmt == d.oFmt) else none) with
  | some w =>
    ({ g with windows := g.windows.map (fun y =>
        if y.id = w.id then { y with passes := y.passes ++ [q], vals := vals, closing := d.emit } else y) }, w.id)
  | none =>
    ({ g with
      serial := g.serial + 1
      windows := g.windows.filter (fun y => y.closing || !overlaps y.base y.rows d.accBase d.rows) ++
        [{ id := g.serial, base := d.accBase, rows := d.rows, m := d.m, n := d.n, aFmt := d.aFmt, wFmt := d.wFmt, oFmt := d.oFmt,
           passes := [q], vals := vals, closing := d.emit, retry := q.retry, tile := g.front }] }, g.serial)

/-- The releases that HOLD = 1 deferred to the end of the chain's emit (04 R120). -/
def releaseHeld (s : State) (p : Pid) (qs : List Pass) : State :=
  (qs.filter (fun q => q.desc.hold)).foldl (fun t q => q.desc.sources.foldl (fun t o => releaseOperand t p o) t) s

/-- A pass reaches DONE (04 R122): PASSES counts it and its completion is posted once. -/
def passDone (s : State) (p : Pid) (g : Fin 4) (q : Pass) : State :=
  let s := s.modGr p g (fun x => { x with
    passes := sat64 x.passes 1,
    active := x.active.filter (fun a => a.pass.id != q.id),
    windows := x.windows.map (fun w => { w with passes := w.passes.map (fun y => if y.id = q.id then { y with posted := true } else y) }) })
  let s := if q.posted then s else postCompletion s p q.issuer 0
  flushDone s p g

/-- The end of a chain: deferred releases, FIN of its destinations, PASS_RETRIED, and the window is free (04 R108, R120,
R121, R128). -/
def chainDone (s : State) (p : Pid) (g : Fin 4) (w : Win) (q : Pass) : State :=
  let s := releaseHeld s p w.passes
  let s := q.desc.dests.foldl (fun t o => if o.chk && o.fin then slotCompletion t p o.slot else t) s
  let s := s.modGr p g (fun x => { x with windows := x.windows.filter (fun y => y.id != w.id) })
  let s := if w.retry then raiseSk s p g.val .passRetried (names [w.passes.length]) else s
  passDone s p g q

/-- A pass of a degenerate shape at the head of the queue (04 R123): no data and no wait; releases and FINs as named.
DESIGN CHOICE, log 63: "FIN destinations" are those in this skillet's pantry; a MERGE emit without rows sends no flit, and
the remote slot is not marked. -/
def emptyPass (s : State) (p : Pid) (g : Fin 4) (q : Pass) : State :=
  let d := q.desc
  let s := s.modGr p g (fun x => (x.dropHead.enterWindow q []).1)
  let s := if d.hold then s else d.sources.foldl (fun t o => releaseOperand t p o) s
  if d.emit then
    match (s.gr p g).windows.find? (fun w => w.passes.any (fun y => y.id == q.id)) with
    | some w => chainDone s p g w q
    | none => passDone s p g q
  else passDone s p g q

/-- The front tile with which a pass multiplies (04 R102, R103, R128): its own load, the tile loaded afresh for a retried
chain, what the passes before a retry left in front, or the tile that is there. -/
def frontFor (x : Griddle) (q : Pass) : Option Tile :=
  if q.desc.loads then (match x.back with | some b => some b.2 | none => x.front)
  else if q.tile.isSome then q.tile
  else if !q.retry && x.saved.isSome then x.saved
  else x.front

/-- PASS_ISSUE_BEGIN (04 R101, R104, R121): the pass streams its rows. What it adds to its window is computed here; DRAIN
and EMIT follow. `accCorrected` accumulator words are corrected in place (R127); `errs` are errors that the banks have
taken (06 R180). -/
def execPassIssueBegin (p : Pid) (g : Fin 4) (errs : List (Nat × Bool)) (accCorrected : Nat) (s : State) : Out :=
  let s := strike s p errs
  match (s.gr p g).waiting.head? with
  | none => .next s
  | some q =>
    if !passReady s p g q then .next s
    else if q.desc.empty then .next (emptyPass s p g q)
    else
      let d := q.desc
      let (c1, s) := draw s
      let (c2, s) := draw s
      let (c3, s) := draw s
      let s := s.modGr p g (fun x => { x with
        stallInput := sat64 x.stallInput c1, stallLoad := sat64 x.stallLoad c2, stallOutput := sat64 x.stallOutput c3,
        accCorrected := sat64 x.accCorrected accCorrected,
        front := frontFor x q, back := if d.loads then none else x.back, saved := if q.retry then x.saved else none })
      let s := (List.range accCorrected).foldl (fun t _ => raiseSk t p g.val .accCorrected (names [])) s
      let (sc, p1, s) := readScales s p g.val (if d.k = 0 then 0 else d.aFmt) (d.aScale * 64) d.m d.kBlocks
      let (rows, p2, s) := if d.k = 0 then (List.replicate d.m [], false, s)
        else readRows s p g.val d.w4.base (d.w4.stride * 64) d.m (rowBytes d.aFmt d.k)
      let (start, p3, s) := match (if d.init == .continue_ then (s.gr p g).windows.find? (fun w => !w.closing
            && w.base == d.accBase && w.m == d.m && w.n == d.n && w.aFmt == d.aFmt && w.wFmt == d.wFmt && w.oFmt == d.oFmt) else none) with
        | some w => (w.vals, false, s)
        | none => initRows s p g d
      let cols := match (s.gr p g).front with
        | some t => (List.range d.n).map t.column
        | none => []
      let vals := (List.zip (List.zip rows sc) start).map (fun e => addRow d cols (rowNums d.aFmt d.k e.1.1 e.1.2) e.2)
      let s := d.dests.foldl (fun t o => emitEnter t p o) s
      .next (s.modGr p g (fun x =>
        let (y, chain) := x.dropHead.enterWindow q vals
        { y with active := y.active ++ [{ pass := q, st := .issue, chain := chain, fault := if p1 || p2 || p3 then 4 else 0 }] }))

/-- A pass boundary (04 R120, R122, R124, R125): the last row is issued; the streaming and init slots are released where
REL is 1 and HOLD is 0; a pending flush takes effect. None where no pass meets its boundary. -/
def passBoundary (s : State) (p : Pid) (g : Fin 4) (skipped : Nat) : Option State :=
  match (s.gr p g).active.find? (fun a => a.st == .issue) with
  | none => none
  | some a =>
    if (s.gr p g).faulted || (s.gr p g).halted then none
    else
      let d := a.pass.desc
      let s := s.modGr p g (fun x => { x with
        rowsIssued := sat64 x.rowsIssued d.m, skipped := sat64 x.skipped skipped,
        active := x.active.map (fun y => if y.pass.id = a.pass.id then { y with st := .drain } else y) })
      let s := if d.hold then s else
        let s := releaseOperand s p d.w4
        if d.init == .source then releaseOperand s p d.w5 else s
      some (if (s.gr p g).flushPending then doFlush s p g else s)

/-- A drain's end (04 R122): the oldest draining pass has updated its last window row. -/
def drainEnd (s : State) (p : Pid) (g : Fin 4) : State :=
  match (s.gr p g).active.find? (fun a => a.st == .drain) with
  | none => s
  | some a =>
    if a.fault != 0 then s
    else if a.pass.desc.emit then
      s.modGr p g (fun x => { x with
        active := x.active.map (fun y => if y.pass.id = a.pass.id then { y with st := .emit } else y) })
    else passDone s p g a.pass

/-- PASS_DRAIN_END (04 R122). -/
def execPassDrainEnd (p : Pid) (g : Fin 4) (s : State) : Out := .next (drainEnd s p g)

/-! ### Emit -/

/-- Column n of a window. -/
def winColumn (vals : List (List W32)) (n : Nat) : List W32 := vals.map (fun r => r.getD n 0)

/-- One emitted row in O_FMT (04 R108). -/
def emitRow (o : Nat) (r : List W32) : List Byte := r.flatMap (fun v => leBytes 2 (toFmt16 o false (f32num v)))

/-- The rows of an emit in an order: (byte address, bytes). -/
def emitRows (d : PassDesc) (vals : List (List W32)) (column : Bool) (o : Operand) : List (Nat × List Byte) :=
  let rows := if column then (List.range d.n).map (winColumn vals) else vals
  rows.zipIdx.map (fun e => (o.base + e.2 * o.stride * 64, emitRow d.oFmt e.1))

/-- Pantry writes of an emit: whether every write was accepted (04 R108, R127 cause 5). -/
def emitPantry (s : State) (p : Pid) (g : Fin 4) (rows : List (Nat × List Byte)) : Bool × State :=
  rows.foldl (fun r e => let w := writeRange r.2 p g.val e.1 e.2; (r.1 && w.1, w.2)) (true, s)

/-- MERGE flits of an emit (04 R109, 09 R253, R261): each piece of a row is one position. `ladle` names the griddle. -/
def emitMerge (s : State) (p : Pid) (g : Fin 4) (d : PassDesc) (rows : List (Nat × List Byte)) : State :=
  let ps := rows.flatMap (fun r => (pieces r.2).map (fun e => (r.1 + e.1, e.2)))
  match s.pidOf d.target with
  | none => s
  | some q => ps.foldl (fun t e => inject t { blankFlit with
      cls := .vermilion, kind := .merge, src := p.val, dest := q.val, addr := e.1 / 64, chk := d.w6.chk, slot := d.w6.slot,
      fin := d.w6.fin, ladle := g.val, sumTag := d.sumTag, fanin := d.fanin, bf16 := d.oFmt == 1, cnt := 1,
      positions := ps.length, sources := [p.val], len := e.2.length, payload := e.2 }) s

/-- The G16 blocks of a weight-gradient emit with their numbers: block j of column n is BLOCK_BASE + n × STRIDE + j (04
R109). -/
def emitBlocks (d : PassDesc) (vals : List (List W32)) : List (List (Nat × G16)) :=
  (List.range d.n).map (fun n =>
    let col := winColumn vals n
    (List.range (d.m / 32)).map (fun j =>
      (d.blockBase + n * d.w6.stride + j, G16.emit (((col.drop (32 * j)).take 32).map f32num))))

/-- Consecutive blocks in flits of one to four that lie in one stack (09 R253, 10 R295). -/
def rimGroups (bs : List (Nat × G16)) : List (List (Nat × G16)) :=
  bs.foldl (fun (acc : List (List (Nat × G16))) b =>
    match acc.getLast? with
    | some g =>
      if g.length < 4 && (g.head?.map (fun x => x.1 / 64)) == some (b.1 / 64) then acc.dropLast ++ [g ++ [b]] else acc ++ [[b]]
    | none => [[b]]) []

/-- RIM flits of an emit (04 R109, 09 R253). -/
def emitRim (s : State) (p : Pid) (d : PassDesc) (vals : List (List W32)) : State :=
  ((emitBlocks d vals).flatMap rimGroups).foldl (fun t grp =>
    let j := (grp.head?.map (fun x => x.1)).getD 0
    inject t { blankFlit with
      cls := .vermilion, kind := if d.gbWrite then .rimWrite else .rimAdd, src := p.val, dest := 64 + j / 64 % 32, block := j,
      headers := grp.map (fun x => x.2.header), len := 64 * grp.length, payload := grp.flatMap (fun x => x.2.bytes) }) s

/-- The values that a griddle tap sees (08 R244): each emitted value in O_FMT. -/
def emitTap (d : PassDesc) (vals : List (List W32)) : List Num :=
  if d.oFmt = 9 then ((emitBlocks d vals).flatten).flatMap (fun b => (List.range 32).map b.2.num)
  else vals.flatMap (fun r => r.map (fun v => (fmt16 d.oFmt).decode (toFmt16 d.oFmt false (f32num v))))

/-- What an emit has done when a fault strikes it (04 R108, R109, R128): the first n rows of its pantry destination or the
first n output rows or columns that leave as flits. Whether a flit has left the skillet, and the state. -/
def emitPart (s : State) (p : Pid) (g : Fin 4) (d : PassDesc) (w : Win) (n : Nat) : Bool × State :=
  match d.dest with
  | .pantry => (false, (emitPantry s p g ((emitRows d w.vals (d.order == .column) d.w6).take n)).2)
  | .merge => (n != 0, emitMerge s p g d ((emitRows d w.vals (d.order == .column) d.w6).take n))
  | _ => (n != 0, emitRim s p { d with n := min n d.n } w.vals)

/-- A window written to its destinations (04 R108, R109): whether every pantry write was accepted. -/
def emitAll (s : State) (p : Pid) (g : Fin 4) (d : PassDesc) (w : Win) : Bool × State :=
  match d.dest with
  | .pantry =>
    let (ok1, s) := emitPantry s p g (emitRows d w.vals (d.order == .column) d.w6)
    if d.order == .both then
      let (ok2, s) := emitPantry s p g (emitRows d w.vals true d.w5)
      (ok1 && ok2, s)
    else (ok1, s)
  | .merge => (true, emitMerge s p g d (emitRows d w.vals (d.order == .column) d.w6))
  | _ => (true, emitRim s p d w.vals)

/-- An emit's end (04 R108, R109, R120-R122): the window is written to its destinations; a rejected pantry write is
cause 5; otherwise the chain ends. -/
def emitEnd (s : State) (p : Pid) (g : Fin 4) : State :=
  match (s.gr p g).active.find? (fun a => a.st == .emit) with
  | none => s
  | some a =>
    match (s.gr p g).windows.find? (fun w => w.id == a.chain) with
    | none => s
    | some w =>
      if a.fault != 0 then s
      else
        let d : PassDesc := a.pass.desc
        let (ok, s) := emitAll s p g d w
        if !ok then
          s.modGr p g (fun x => { x with
            active := x.active.map (fun (y : ActivePass) => if y.pass.id = a.pass.id then { y with fault := 5 } else y) })
        else
          let s := if d.tapEn then tapValues s p d.tap (emitTap d w.vals) else s
          chainDone s p g w a.pass

/-- PASS_EMIT_END (04 R120-R122). -/
def execPassEmitEnd (p : Pid) (g : Fin 4) (s : State) : Out := .next (emitEnd s p g)

/-! ### Faults -/

/-- The open chain whose pass was issued last, if any: the one that multiplies by the front tile next (04 R127). -/
def lastOpen (g : Griddle) : Option (Option Nat × Pass) :=
  ((g.windows.filter (fun w => !w.closing)).getLast?).bind (fun w => w.passes.getLast?.map (fun q => (some w.id, q)))

/-- The chain that a fault strikes: its window if it has one, and the pass that meets it. Causes 4 and 5 are met by a read
or a write; cause 6 by a load; cause 2 by the pass that multiplies by the front registers, or between passes by the open
chain; cause 3 by the oldest pass with rows in the columns; cause 1 by the oldest pass in the array (04 R127). -/
def faultTarget (g : Griddle) (cause : Nat) : Option (Option Nat × Pass) :=
  match g.active.find? (fun a => a.fault != 0 && a.fault == cause) with
  | some a => some (some a.chain, a.pass)
  | none =>
    match g.loadFault with
    | some (id, c) =>
      if c = cause then (g.waiting.find? (fun q => q.id == id)).map (fun q => (none, q)) else none
    | none =>
      if cause = 6 then
        match g.back with
        | some b => (g.waiting.find? (fun q => q.id == b.1)).map (fun q => (none, q))
        | none => none
      else if cause = 2 then
        match g.active.find? (fun a => a.st == .issue) with
        | some a => some (some a.chain, a.pass)
        | none => if g.front.isSome then lastOpen g else none
      else if cause = 3 then (g.active.find? (fun a => a.st != .emit)).map (fun a => (some a.chain, a.pass))
      else if cause = 1 then g.active.head?.map (fun a => (some a.chain, a.pass))
      else none

/-- The window of a fault's chain: the named one, or the open one that a loading pass continues. -/
def faultWindow (g : Griddle) (t : Option Nat × Pass) : Option Win :=
  match t.1 with
  | some id => g.windows.find? (fun w => w.id == id)
  | none => if t.2.desc.init == .continue_ then
      g.windows.find? (fun w => !w.closing && w.base == t.2.desc.accBase) else none

/-- Whether a faulted chain is retried (04 R128). `left` says that a flit of its emit has left the skillet. -/
def mayRetry (s : State) (p : Pid) (cause : Nat) (chain : List Pass) (again left : Bool) : Bool :=
  !again && !left && (cause = 1 || cause = 2 || cause = 3 || cause = 6) && chain.all (fun q => !q.desc.noRetry)
    && chain.all (fun q => q.desc.sources.all (fun o => !o.chk || s.slotSt p o.slot == .full))

/-- A griddle halts after a fault that is not retried (04 R128): PASS_FAULT, and issue stops until a flush. -/
def passFault (s : State) (p : Pid) (g : Fin 4) (cause col : Nat) : State :=
  raiseSk (s.modGr p g (fun x => { x with halted := true })) p g.val .passFault (names [cause, col])

/-- The count of faults that name a physical column (04 R129): the second appends a record. -/
def noteColumn (s : State) (p : Pid) (g : Fin 4) (cause col : Nat) : State :=
  if cause = 2 || cause = 3 || cause = 6 then
    let n := Tab.at (s.gr p g).colFaults col 0 + 1
    let s := s.modGr p g (fun x => { x with colFaults := Tab.put x.colFaults col n })
    if n = 2 then suspectColumn s p g col else s
  else s

/-- What the emit of a faulted chain has done already: nothing before its last pass is in EMIT, then a free part of it (04
R128). Whether a flit has left, and the state. -/
def emitBefore (s : State) (p : Pid) (g : Fin 4) (w : Option Win) (chain : List Pass) : Bool × State :=
  match w, (s.gr p g).active.find? (fun a => a.st == .emit && chain.any (fun q => q.id == a.pass.id)) with
  | some w, some a =>
    let (c, s) := draw s
    emitPart s p g a.pass.desc w (c % (a.pass.desc.destShape.1 + 1))
  | _, _ => (false, s)

/-- The faulted chain is gone from the griddle: its window is voided and its FILLING destination slots are EMPTY (04
R128). -/
def voidChain (s : State) (p : Pid) (g : Fin 4) (w : Option Win) (chain : List Pass) : State :=
  let s := chain.foldl (fun s q => q.desc.dests.foldl (fun s o =>
    if o.chk && s.slotSt p o.slot == .filling then
      s.modPn p (fun k => k.setSlot o.slot (k.slot o.slot).emptied) else s) s) s
  s.modGr p g (fun x => { x with
    active := x.active.filter (fun a => !chain.any (fun q => q.id == a.pass.id)),
    windows := x.windows.filter (fun y => some y.id != w.map (fun w => w.id)),
    back := none, loadFault := none })

/-- A chain is retried from its first pass (04 R128): ahead of the queue, a tile that it reused loaded afresh, the front
tile kept for the passes behind it. A pass that has not left the queue is only marked. -/
def retryChain (s : State) (p : Pid) (g : Fin 4) (w : Option Win) (chain : List Pass) (met : Pass) : State :=
  let again := chain.zipIdx.map (fun e => { e.1 with
    retry := true, tile := if e.2 = 0 && e.1.desc.load == .reuse then w.bind (fun w => w.tile) else none })
  s.modGr p g (fun x => { x with
    retries := sat64 x.retries 1, saved := if chain.isEmpty then x.saved else x.front,
    retryQueue := again ++ x.retryQueue,
    queue := x.queue.map (fun q => if chain.isEmpty && q.id = met.id then { q with retry := true } else q) })

/-- A fault of a griddle (04 R127-R129): the open chain is voided; it is retried once from its first pass, or PASS_FAULT is
raised. A parity fault of the front tile between chains has no chain to retry. A rejected emit that comes back from the
mesh (cause 5) is never retried. A flush that waits takes effect where issue has stopped (R126). -/
def griddleFault (p : Pid) (g : Fin 4) (cause : Nat) (col : Fin 256) (s : State) : State :=
  let x := s.gr p g
  if (cause = 2 || cause = 3 || cause = 6) && !colInUse (vget (s.skCol p).cols g) col.val then s
  else if x.rejected && cause = 5 then
    passFault (s.modGr p g (fun x => { x with rejected := false })) p g 5 0
  else match faultTarget x cause with
    | none =>
      if cause = 2 && x.front.isSome && !x.halted then
        passFault (noteColumn (s.modGr p g (fun x => { x with front := none })) p g cause col.val) p g cause col.val
      else s
    | some t =>
      let w := faultWindow x t
      let chain := match w with
        | some w => w.passes
        | none => if t.1.isSome then [t.2] else []
      let whole := if chain.any (fun q => q.id == t.2.id) then chain else chain ++ [t.2]
      let again := (w.map (fun w => w.retry)).getD t.2.retry
      let (left, s) := emitBefore s p g w chain
      let s := noteColumn (voidChain s p g w chain) p g cause col.val
      let s := if mayRetry s p cause whole again left then retryChain s p g w chain t.2 else passFault s p g cause col.val
      if (s.gr p g).flushPending && !(s.gr p g).issuing then doFlush s p g else s

/-- Whether a griddle waits on a slot (06 R166): a load or the head pass needs it and it is not in the state it needs. -/
def griddleWaits (s : State) (p : Pid) (g : Fin 4) (slot : Nat) : Bool :=
  let x := s.gr p g
  (match x.waiting.find? (fun q => q.desc.loads) with
   | some q => x.back.isNone && q.desc.w2.chk && q.desc.w2.slot = slot && s.slotSt p slot != .full
   | none => false)
  || (match x.waiting.head? with
      | some q =>
        let d := q.desc
        !d.empty && ((d.w4.chk && d.w4.slot = slot && s.slotSt p slot != .full)
          || (d.init == .source && d.w5.chk && d.w5.slot = slot && s.slotSt p slot != .full)
          || d.dests.any (fun o => o.chk && o.slot = slot && !emitWritable s p slot))
      | none => false)

end Sys2Proof.Machine
end

