-- ==== Sys2Proof/Machine/Ladle.lean ====
section
/-! DEFINITION. Machine/Ladle.lean: the ladles (07): arming, stopping, blocks, portions and faults. -/

namespace Sys2Proof.Machine

/-- The PLOC unit of a ladle (15 R450). -/
def ldUnit (l : Fin 8) : Nat := 8 + l.val

/-- The pantry master of a ladle (06 R159). -/
def ldMaster (l : Fin 8) : Nat := 5 + l.val

/-- The header of the list at a unit address, as pantry holds it. -/
def headAt (k : Pantry) (addr : Nat) : ListHead := listHead (Mem.bytes k.mem (addr * 64) 32)

/-- The bytes of the list at a unit address, read by the ladle: nothing beyond the logical pantry is read (06 R156). -/
def readList (s : State) (p : Pid) (l : Fin 8) (addr : Nat) : List Byte × State :=
  let n := 32 + 32 * (headAt (s.pn p) addr).count
  if paLimit < addr * 64 + 32 then ([], s)
  else
    let (r, s) := readRange s p (ldMaster l) (addr * 64) (if paLimit < addr * 64 + n then 32 else n)
    (r.bytes, s)

/-- The lists of a chain from a unit address, in chain order, each validated (07 R199): the status of the first that
fails, the chain and the place a LINK closes to. -/
def walkChain (fuel : Nat) (s : State) (p : Pid) (l : Fin 8) (chain : List Nat) (addr : Nat) :
    Nat × List Nat × Option Nat × State :=
  match fuel with
  | 0 => (stDescRange, chain, none, s)
  | fuel + 1 =>
    let (bs, s) := readList s p l addr
    match listStatus s p addr bs with
    | 0 =>
      let chain := chain ++ [addr]
      let h := listHead bs
      if !h.linkEn then (0, chain, none, s)
      else match chain.findIdx? (fun a => a == h.link) with
        | some i => (0, chain, some i, s)
        | none => walkChain fuel s p l chain h.link
    | st => (st, chain, none, s)

/-- A stream starts on a chain (07 R205, R206). -/
def startStream (s : State) (p : Pid) (l : Fin 8) (addr : Nat) (i : Issuer) : State :=
  s.modLd p l (fun d => { d with
    st := .active, chain := [addr], loopTo := none, listPos := 0, blockIx := 0, head := some (headAt (s.pn p) addr),
    list := none, allStarted := false, issuer := some i, blocks := [], emptyFins := [], faultAt := none, lateRaised := false, poisonRaised := false, lagRaised := false })

/-- A rejected ARM (07 R201, R206): LAST_STATUS and ARMS_REJECTED; LADLE_ARM_REJECTED where validation failed. -/
def rejectArm (s : State) (p : Pid) (l : Fin 8) (st : Nat) (event : Bool) (addr : Nat) : State :=
  let s := s.modLd p l (fun d => { d with lastStatus := st, armsRejected := sat64 d.armsRejected 1 })
  if event then raiseSk s p (ldUnit l) .ladleArmRejected (names [(headAt (s.pn p) addr).listId, 0])
  else s

/-- LADLE_ARM (07 R199-R206): the chain is validated, then started, held as pending or rejected by the ladle's state. -/
def execLadleArm (p : Pid) (s : State) : Out :=
  .next (issueWord s p .arm (fun s t w =>
    let l : Fin 8 := Fin.ofNat 8 (bits w 111 109)
    let addr := bits w 108 86
    let i := issuerOf s p t w
    let (st, _, _, s) := walkChain 64 s p l [] addr
    if st != 0 then finishWord (rejectArm s p l st true addr) p t w st
    else
      let d := s.ld p l
      match d.st with
      | .idle => finishWord (startStream s p l addr i) p t w 0
      | .active => finishWord (rejectArm s p l stBusy false addr) p t w stBusy
      | .stopping => finishWord (rejectArm s p l stBusy false addr) p t w stBusy
      | .halted => finishWord (rejectArm s p l stWrongState false addr) p t w stWrongState
      | .tail =>
        if d.pending.isSome then finishWord (rejectArm s p l stRearmPending false addr) p t w stRearmPending
        else finishWord (s.modLd p l (fun d => { d with pending := some (addr, i) })) p t w stPending))

/-- A pending arm is discarded by a STOP or a fault (07 R207, R212). -/
def discardPending (s : State) (p : Pid) (l : Fin 8) : State :=
  match (s.ld p l).pending with
  | none => s
  | some (addr, _) =>
    let s := s.modLd p l (fun d => { d with pending := none, pendingDiscarded := sat64 d.pendingDiscarded 1 })
    raiseSk s p (ldUnit l) .ladlePendingDiscarded (names [(headAt (s.pn p) addr).listId, 0])

/-- The flits of a ladle that are not yet injected are dropped (09 R272). -/
def dropWaiting (s : State) (p : Pid) (l : Fin 8) : State :=
  s.setOutQ p.val 5 ((s.outQ p.val 5).filter (fun q =>
    !((q.flit.kind == .write || q.flit.kind == .mcastWrite) && q.flit.ladle = l.val)))

/-- The CANCEL flits of a stopped ladle: one on each class and route that its remote portions used (09 R272). -/
def sendCancels (s : State) (p : Pid) (l : Fin 8) (xs : List Portion) : State :=
  let routes := xs.foldl (fun (a : List (TClass × Pid)) x =>
    if x.sent then x.receivers.foldl (fun a q => if a.contains (x.cls, q) then a else a ++ [(x.cls, q)]) a else a) []
  routes.foldl (fun t r => inject t { blankFlit with
    cls := r.1, kind := .cancel, src := p.val, dest := r.2.val, ladle := l.val }) s

/-- STOP of a ladle (07 R207): issue ends, a pending arm is discarded, remote portions return their tags at once and are
cancelled, memory and local portions go on, and no unfinished block performs its REL or FIN. -/
def stopLadle (s : State) (p : Pid) (l : Fin 8) : State :=
  let s := discardPending s p l
  let remote := (s.ld p l).portions.filter (fun x => x.space == .remote || x.space == .multicast)
  let s := s.modLd p l (fun d => { d with
    st := .stopping, portions := d.portions.filter (fun x => !(x.space == .remote || x.space == .multicast)), blocks := [],
    issuer := none, fault := 0, allStarted := true })
  sendCancels (dropWaiting s p l) p l remote

/-- LADLE_STOP (07 R205, R207): in IDLE it completes at once and has no effect. -/
def execLadleStop (p : Pid) (s : State) : Out :=
  .next (issueWord s p .stop (fun s t w =>
    let l : Fin 8 := Fin.ofNat 8 (bits w 111 109)
    let i := issuerOf s p t w
    let s := advance s p t
    match (s.ld p l).st with
    | .idle => postCompletion s p i 0
    | .stopping => s.modLd p l (fun d => { d with stopIssuers := d.stopIssuers ++ [i] })
    | _ => (stopLadle s p l).modLd p l (fun d => { d with stopIssuers := d.stopIssuers ++ [i] })))

/-- LADLE_STOP_DONE (07 R205): a STOPPING ladle without outstanding portions is IDLE, and its STOPs complete. -/
def execLadleStopDone (p : Pid) (l : Fin 8) (s : State) : Out :=
  let d := s.ld p l
  if d.st != .stopping || !d.portions.isEmpty then .next s
  else
    let s := s.modLd p l (fun d => { d with st := .idle, stopIssuers := [], chain := [] })
    .next (d.stopIssuers.foldl (fun t i => postCompletion t p i 0) s)

/-- The LIST_ID and the block now issuing (07 R215). -/
def Ladle.now (d : Ladle) : Nat × Nat := ((d.head.map (fun h => h.listId)).getD 0, d.blockIx)

/-- A ladle fault (07 R211, R212): HALTED with its cause, a pending arm discarded, blocks left unfinished: what is
outstanding completes without a FIN. The event names the list and block `at_` (R215). -/
def faultLadle (s : State) (p : Pid) (l : Fin 8) (cause : Nat) (at_ : Nat × Nat) : State :=
  let s := discardPending s p l
  let s := s.modLd p l (fun d => { d with
    st := .halted, cause := cause, fault := 0, faultAt := none, issuer := none, blocks := [], allStarted := true,
    portions := d.portions.map (fun x => { x with fin := false }) })
  raiseSk s p (ldUnit l) .ladleFault (names [cause, at_.1, at_.2])

/-- LADLE_FAULT (07 R211): causes 1-3 as the ladle has met them, 5 a parity error at any time. -/
def execLadleFault (p : Pid) (l : Fin 8) (cause : Nat) (s : State) : Out :=
  let d := s.ld p l
  if (d.st == .active || d.st == .tail) && (cause = 5 || (cause != 0 && d.fault = cause)) then
    .next (faultLadle s p l cause (if d.fault = cause then d.faultAt.getD d.now else d.now))
  else .next s

/-- The chain's next list, or TAIL after the last (07 R199, R205): a LINK to a list of the chain closes a loop. -/
def nextList (s : State) (p : Pid) (l : Fin 8) (h : ListHead) : State :=
  let next := some (headAt (s.pn p) h.link)
  s.modLd p l (fun d =>
    if !h.linkEn then { d with st := .tail, allStarted := true }
    else match d.chain.findIdx? (fun a => a == h.link) with
      | some i => { d with listPos := i, blockIx := 0, head := next, list := none }
      | none =>
        if d.chain.length < 64 then
          { d with chain := d.chain ++ [h.link], listPos := d.chain.length, blockIx := 0, head := next, list := none }
        else { d with fault := 3, faultAt := some (h.listId, d.blockIx) })

/-- The ladle goes on to the next block of its list. -/
def nextBlock (s : State) (p : Pid) (l : Fin 8) (h : ListHead) : State :=
  let s := s.modLd p l (fun d => { d with blockIx := d.blockIx + 1 })
  if h.count ≤ (s.ld p l).blockIx then nextList s p l h else s

/-- A stream whose last outstanding portion is complete (07 R205, R206): its ARM completes; then IDLE, or ACTIVE with the
pending chain. -/
def finishStream (s : State) (p : Pid) (l : Fin 8) : State :=
  let d := s.ld p l
  if d.st != .tail || !d.portions.isEmpty || d.fault != 0 then s
  else
    let s := s.modLd p l (fun d => { d with st := .idle, issuer := none, blocks := [] })
    let s := match d.issuer with
      | some i => postCompletion s p i 0
      | none => s
    match d.pending with
    | some (addr, i) => startStream (s.modLd p l (fun d => { d with pending := none })) p l addr i
    | none => s

/-- The receivers of a block (07 R194, 09 R265): the PIDs that carry TARGET or the logical numbers of MASK. -/
def blockReceivers (s : State) (h : ListHead) (b : Block) : List Pid :=
  match b.dstSpace with
  | .remote => (s.pidOf b.target).toList
  | .multicast => ((List.range 56).filter (fun i => bit h.mask i)).filterMap (fun i => s.pidOf i)
  | _ => []

/-- A block without data performs its REL and FIN at the head of the stream (07 R202): a FIN for another skillet travels in
a flit without payload, under a tag of its own. -/
def emptyBlock (s : State) (p : Pid) (l : Fin 8) (h : ListHead) (b : Block) : State :=
  let s := if b.rel then slotRelease s p b.srcSlot else s
  if !b.fin then s
  else if b.dstSpace == .pantry then slotCompletion s p b.dstSlot
  else
    let tag := (s.ld p l).tags
    let to_ := blockReceivers s h b
    let s := s.modLd p l (fun d => { d with tags := tag + 1, emptyFins := Tab.put d.emptyFins tag to_.length })
    to_.foldl (fun t q => inject t { blankFlit with
      cls := h.cls, kind := .write, src := p.val, dest := q.val, addr := b.dstAddr, chk := b.dstChk, slot := b.dstSlot,
      fin := true, ladle := l.val, tag := tag }) s

/-- Whether a block's slots let it begin (07 R198). -/
def blockReady (s : State) (p : Pid) (b : Block) : Bool :=
  b.empty || ((!b.srcChk || s.slotSt p b.srcSlot == .full)
    && (!(b.dstChk && b.dstSpace == .pantry) || slotWritable s p b.dstSlot))

/-- The list at the ladle's place in its chain is read again and validated as its blocks begin (07 R200), once for each
time that the stream comes to it; one that fails is LIST_CHANGED (cause 3). -/
def loadList (s : State) (p : Pid) (l : Fin 8) : State :=
  let d := s.ld p l
  if d.list.isSome then s
  else match d.chain[d.listPos]? with
    | none => s
    | some addr =>
      let (bs, s) := readList s p l addr
      let h := listHead bs
      if listStatus s p addr bs != 0 then s.modLd p l (fun d => { d with fault := 3, faultAt := some (h.listId, 0) })
      else s.modLd p l (fun d => { d with head := some h, list := some ((List.range h.count).map (listBlock bs)) })

/-- LADLE_BLOCK_START (07 R198, R200, R202): the next block of the list begins once its slots let it; a list that fails as
it is read again stops the stream. -/
def execLadleBlockStart (p : Pid) (l : Fin 8) (s : State) : Out :=
  let d := s.ld p l
  if d.st != .active || d.allStarted || d.fault != 0 || d.blocks.any (fun b => !b.issuedAll) then .next s
  else
    let s := loadList s p l
    let d := s.ld p l
    match d.head, d.list.bind (fun bs => bs[d.blockIx]?) with
    | some h, some b =>
      if d.fault != 0 || !blockReady s p b then .next s
      else
        let (c, s) := draw s
        let s := s.modLd p l (fun d => { d with stallSlot := sat64 d.stallSlot c })
        if b.empty then .next (finishStream (nextBlock (emptyBlock s p l h b) p l h) p l)
        else .next (s.modLd p l (fun d => { d with
          serial := d.serial + 1,
          blocks := d.blocks ++ [{ serial := d.serial, listPos := d.listPos, index := d.blockIx, head := h, block := b }] }))
    | _, _ => .next s

/-- Tags of the skillet's pool in use (07 R203). -/
def poolUsed (s : State) (p : Pid) : Nat :=
  (s.sk p).ladles.toList.foldl (fun a d => a + (d.portions.filter (fun x => x.deep)).length) 0

/-- Whether a ladle holds a free tag for a list (07 R203): 8 of its own, or up to DEPTH of the pool of 2,048. -/
def tagFree (s : State) (p : Pid) (l : Fin 8) (h : ListHead) : Bool :=
  let own := ((s.ld p l).portions.filter (fun x => x.deep == h.deep)).length
  if h.deep then own < h.depth && poolUsed s p < 2048 else own < 8

/-- The row a block is cut in (07 R196): contiguous at both ends, it is one row. -/
def blockRows (b : Block) : Nat × Nat :=
  if b.srcStride = b.rowUnits && b.dstStride = b.rowUnits then (1, b.rows * b.rowUnits * 64) else (b.rows, b.rowUnits * 64)

/-- The source of a portion is read (07 R194, R210): its own pantry at once, memory by READ parts. -/
def readSource (s : State) (p : Pid) (l : Fin 8) (h : ListHead) (b : Block) (tag src len : Nat) : State :=
  if b.srcSpace == .pantry then
    let (r, s) := readRange s p (ldMaster l) src len
    let s := s.modLd p l (fun d => d.modPortion tag (fun x => { x with
      data := [(0, r.bytes)], dataLeft := 0, poison := r.bad src len }))
    if r.poison && !(s.ld p l).poisonRaised then
      raiseSk (s.modLd p l (fun d => { d with poisonRaised := true })) p (ldUnit l) .ladlePoisonForwarded
        (names [h.listId, (s.ld p l).blockIx])
    else s
  else
    (memParts s b.srcSpace 64 src 0 len).foldl (fun t q => inject t { blankFlit with
      cls := h.cls, kind := .memRead, src := p.val, dest := q.port, ladle := l.val, tag := tag, part := q.off, loc := q.loc,
      len := q.len, chk := b.srcSpace == .stage }) s

/-- A pantry source on its way to a memory destination (10 R299): WRITE flits by parts, the last of each part marked. -/
def writeMemory (s : State) (p : Pid) (l : Fin 8) (h : ListHead) (b : Block) (tag dst len : Nat) : State :=
  match (s.ld p l).portions.find? (fun x => x.tag == tag) with
  | none => s
  | some x =>
    let ps := memParts s b.dstSpace 64 dst 0 len
    let s := s.modLd p l (fun d => d.modPortion tag (fun x => { x with doneLeft := ps.length }))
    ps.foldl (fun t q =>
      (pieces ((x.bytes.drop q.off).take q.len)).foldl (fun t e => inject t { blankFlit with
        cls := h.cls, kind := .memWrite, src := p.val, dest := q.port, ladle := l.val, tag := tag, part := q.off,
        loc := q.loc + e.1, len := q.len, last := e.1 + 256 ≥ q.len, payload := e.2,
        poison := (x.poison.filter (fun g => q.off + e.1 ≤ 8 * g && 8 * g < q.off + e.1 + e.2.length)).map
          (fun g => g - (q.off + e.1) / 8) }) t) s

/-- LADLE_PORTION_ISSUE (07 R196, R197, R203): the next portion of the block that issues. The source slot of a pantry
source is released when the block's last read has returned. -/
def execLadlePortionIssue (p : Pid) (l : Fin 8) (s : State) : Out :=
  let d := s.ld p l
  match d.blocks.find? (fun b => !b.issuedAll) with
  | none => .next s
  | some r =>
    if d.st != .active || d.fault != 0 || !tagFree s p l r.head then .next s
    else
      let b := r.block
      let (rows, rowLen) := blockRows b
      let len := min 4096 (rowLen - r.off)
      let src := b.srcAddr * 64 + r.row * b.srcStride * 64 + r.off
      let dst := b.dstAddr * 64 + r.row * b.dstStride * 64 + r.off
      let rowEnd := r.off + len = rowLen
      let last := rowEnd && r.row + 1 = rows
      let tag := d.tags
      let x : Portion := { tag := tag, serial := r.serial, cls := r.head.cls, deep := r.head.deep,
                           mem := !b.srcSpace.isPantry || !b.dstSpace.isPantry, space := b.dstSpace, len := len,
                           dstAddr := dst, dstChk := b.dstChk, dstSlot := b.dstSlot, fin := b.fin && last,
                           listId := r.head.listId, block := r.index,
                           receivers := blockReceivers s r.head b, tap := if b.tapEn then some (b.tap, b.tapFmt) else none,
                           dataLeft := if b.srcSpace == .pantry then 0 else len }
      let (c, s) := draw s
      let (c2, s) := draw s
      let s := s.modLd p l (fun d => { d with
        tags := tag + 1, portions := d.portions ++ [x], stallTags := sat64 d.stallTags c,
        stallCredit := sat64 d.stallCredit c2,
        blocks := d.blocks.map (fun y => if y.serial = r.serial then { y with
          row := if rowEnd then y.row + 1 else y.row, off := if rowEnd then 0 else y.off + len, issuedAll := last,
          inFlight := y.inFlight + 1 } else y) })
      let s := readSource s p l r.head b tag src len
      let s := if b.dstSpace == .stack || b.dstSpace == .rimBuffer then writeMemory s p l r.head b tag dst len
               else sendReady 512 s p l
      if !last then .next s
      else
        let s := if b.rel then slotRelease s p b.srcSlot else s
        .next (nextBlock s p l r.head)

/-- Whether a portion has all its answers (07 R197). -/
def Portion.answered (x : Portion) : Bool :=
  x.dataLeft = 0 && x.doneLeft = 0 && (!(x.space == .remote || x.space == .multicast) || (x.sent && x.acks.isEmpty))

/-- The 16-bit elements that a ladle tap sees (08 R244). -/
def tapElems (fmt : Nat) (bs : List Byte) : List Num :=
  (List.range (bs.length / 2)).map (fun i => (fmt16 fmt).decode (leNat ((bs.drop (2 * i)).take 2)))

/-- LATE_PORTIONS, LAT_MAX and LADLE_LATE (07 R209). -/
def noteLatency (s : State) (p : Pid) (l : Fin 8) (x : Portion) (cycles : Nat) : State :=
  let d := s.ld p l
  let late := d.lateLimit < cycles
  let s := s.modLd p l (fun d => { d with
    latMax := max d.latMax (min cycles (2 ^ 64 - 1)), latePortions := sat64 d.latePortions (b2n late),
    lateRaised := d.lateRaised || late })
  if late && !d.lateRaised then
    raiseSk s p (ldUnit l) .ladleLate (names [x.listId, x.block])
  else s

/-- The block of a complete portion (07 R197): with its last portion complete it is done, and a local destination slot
receives its completion. -/
def finishBlock (s : State) (p : Pid) (l : Fin 8) (serial : Nat) : State :=
  let s := s.modLd p l (fun d => { d with blocks := d.blocks.map (fun y =>
    if y.serial = serial then { y with inFlight := y.inFlight - 1 } else y) })
  match (s.ld p l).blocks.find? (fun y => y.serial == serial) with
  | none => s
  | some y =>
    if y.issuedAll && y.inFlight = 0 then
      let s := s.modLd p l (fun d => { d with blocks := d.blocks.filter (fun z => z.serial != serial) })
      if y.block.fin && y.block.dstSpace == .pantry then slotCompletion s p y.block.dstSlot else s
    else s

/-- The local write of a portion as a producer (06 R168): whether it was accepted. -/
def writeLocal (s : State) (p : Pid) (l : Fin 8) (x : Portion) : Bool × State :=
  let (ok, s) := produceWrite s p (ldMaster l) x.dstAddr x.bytes x.dstChk x.dstSlot
  (ok, poisonRange s p (x.poison.map (fun g => x.dstAddr / 8 + g)))

/-- LADLE_PORTION_COMPLETE (07 R197, R205-R211): the tag returns; a status other than 0 or a rejected write is a fault
that the ladle has met; the block may be done, and the stream may end or the pending chain start. -/
def execLadlePortionComplete (p : Pid) (l : Fin 8) (tag : Nat) (cycles : Nat) (s : State) : Out :=
  match (s.ld p l).portions.find? (fun x => x.tag == tag) with
  | none => .next s
  | some x =>
    if !x.answered || (x.space == .pantry && x.dstChk && !slotWritable s p x.dstSlot) then .next s
    else
      let live := (s.ld p l).st == .active || (s.ld p l).st == .tail
      let (ok, s) := if x.space == .pantry && x.status = 0 then writeLocal s p l x else (true, s)
      let s := s.modLd p l (fun d => { d with portions := d.portions.filter (fun y => y.tag != tag) })
      let cause := if !ok || x.status = stBankClosed then 1 else if x.status != 0 then 2 else 0
      if cause != 0 then
        .next (if live && (s.ld p l).fault = 0 then
          s.modLd p l (fun d => { d with fault := cause, faultAt := some (x.listId, x.block) }) else s)
      else
        let s := s.modLd p l (fun d => { d with
          portionsDone := sat64 d.portionsDone 1, bytes := sat64 d.bytes x.len })
        let s := noteLatency s p l x cycles
        let s := match x.tap with
          | some (w, f) => tapValues s p w (tapElems f x.bytes)
          | none => s
        .next (if live then finishStream (finishBlock s p l x.serial) p l else s)

/-- MEM_TIMEOUT (07 R211): a portion with a memory end that is not complete within 1.0 ms; a running ladle faults with
cause 4. -/
def execMemTimeout (p : Pid) (l : Fin 8) (tag : Nat) (s : State) : Out :=
  match (s.ld p l).portions.find? (fun x => x.tag == tag) with
  | none => .next s
  | some x =>
    if !x.mem || x.answered then .next s
    else
      let live := (s.ld p l).st == .active || (s.ld p l).st == .tail
      let s := s.modLd p l (fun d => { d with portions := d.portions.filter (fun y => y.tag != tag) })
      .next (if live then faultLadle s p l 4 (x.listId, x.block) else s)

/-- The record of the block that comes next, of the list as the ladle has read it or as pantry holds it (07 R200). -/
def nextRecord (s : State) (p : Pid) (d : Ladle) : Option Block :=
  match d.list with
  | some bs => bs[d.blockIx]?
  | none => d.chain[d.listPos]?.map (fun addr => listBlock (Mem.bytes (s.pn p).mem (addr * 64) (32 + 32 * 256)) d.blockIx)

/-- Whether a ladle waits on a slot (06 R166): its next block may not begin because of it, or a local portion meets it
not writable. -/
def ladleWaits (s : State) (p : Pid) (l : Fin 8) (slot : Nat) : Bool :=
  let d := s.ld p l
  (d.st == .active && !d.allStarted && d.fault = 0 && d.blocks.all (fun b => b.issuedAll) &&
    (match nextRecord s p d with
     | none => false
     | some b =>
       !b.empty && ((b.srcChk && b.srcSlot = slot && s.slotSt p slot != .full)
         || (b.dstChk && b.dstSpace == .pantry && b.dstSlot = slot && !slotWritable s p slot))))
  || d.portions.any (fun x => x.space == .pantry && x.dstChk && x.dstSlot = slot && x.answered && !slotWritable s p slot)

end Sys2Proof.Machine
end

