-- ==== Sys2Proof/Machine/Mesh.lean ====
section
/-! DEFINITION. Machine/Mesh.lean: the mesh and the cobalt network (09): hops, landings, merges, holds, clocks, tables and
faults. -/

namespace Sys2Proof.Machine

/-- The PLOC unit of a router (15 R450): MR of a skillet, the crossbar of a rim strip. -/
def routerPloc (node : Fin 68) : Nat := plocUnit node.val (if node.val < 64 then 0x10 else 0x21)

/-- An event of a router. -/
def raiseRt (s : State) (node : Fin 68) (ev : Ev) (data : Nat) : State := raise s node.val ev (routerPloc node) data

/-- LINK_DOWN bit of an output of a skillet's router (09 R280): bits 3-0 north, east, south, west. -/
def downBit (out : Nat) : Nat := 3 - out

/-- Whether the link of an output is up: the mark stands at the skillet ends of a link (09 R274). -/
def linkUp (s : State) (node : Fin 68) (out : Nat) : Bool :=
  let out := linkOf node out
  if node.val < 64 then 4 ≤ out || !(s.rt node).linkDown.getLsbD (downBit out)
  else
    let (n, i) := linkEnd node.val out
    8 ≤ out || !(s.rt (Fin.ofNat 68 n)).linkDown.getLsbD (downBit i)

/-- A link marked down at both its ends (09 R274). -/
def markDown (s : State) (node : Fin 68) (out : Nat) : State :=
  let mark (s : State) (n : Fin 68) (o : Nat) : State :=
    if n.val < 64 && o < 4 then s.modRt n (fun r => { r with linkDown := r.linkDown ||| BitVec.ofNat 4 (2 ^ downBit o) }) else s
  let (n, i) := linkEnd node.val out
  mark (mark s node out) (Fin.ofNat 68 n) i

/-- LINK_RETRIES and MESH_LINK_RETRY (09 R274): raised for the first retry on a link in each window of 2²⁰ bt. -/
def noteRetry (s : State) (node : Fin 68) (out n : Nat) : State :=
  if n = 0 then s
  else
    let win := s.time.count / 2 ^ 20
    let first := Tab.find (s.rt node).retryWindow out != some win
    let s := s.modRt node (fun r => { r with
      linkRetries := sat64 r.linkRetries n, retryWindow := Tab.put r.retryWindow out win })
    if first then raiseRt s node .meshLinkRetry (names [out]) else s

/-- The first waiting flit of a class and VC taken out of a queue. -/
def takeFlit (q : List QFlit) (cls : TClass) (vc : Nat) : Option (QFlit × List QFlit) :=
  match q with
  | [] => none
  | x :: r => if x.flit.cls == cls && x.flit.vc == vc then some (x, r)
              else (takeFlit r cls vc).map (fun y => (y.1, x :: y.2))

/-- Whether a router routes (00 R2, 03 R74, 09 R252, R274): the module is powered, the region's supply has not been
isolated, and the router is not faulty. -/
def State.routes (s : State) (node : Fin 68) : Bool :=
  s.life.st != .off && (if h : node.val < 64 then !vget s.col.isolated ⟨node.val, h⟩ else true) && !(s.rt node).faulty

/-- A link failure (09 R274): the fourth failure of a flit on one hop marks the link down. -/
def failLink (s : State) (node : Fin 68) (out : Nat) : State :=
  raiseRt (markDown (noteRetry s node out 3) node out) node .meshLinkDown (names [out])

/-- The cycles that a multicast stream waits at a branch point whose slack store is full, a free number (09 R280). -/
def noteSlackFull (s : State) (node : Fin 68) : State :=
  let (c, s) := draw s
  s.modRt node (fun r => { r with slackFull := sat64 r.slackFull c })

/-- The cycles that a seam buffer is at its back-pressure level, a free number (09 R269, R280). -/
def noteSeamFull (s : State) (node : Fin 68) : State :=
  let (c, s) := draw s
  s.modRt node (fun r => { r with seamFull := sat64 r.seamFull c })

/-- What a node's units have injected moves into its router (09 R252, R264, R265). -/
def hopInject (s : State) (node : Fin 68) (x : QFlit) (rest : List QFlit) : State :=
  if !mayInject s node x.inp x.flit then (if x.flit.kind == .mcastWrite then noteSlackFull s node else s)
  else enterNode (takeCredit (s.setOutQ node.val (injectOut node) rest) x.flit) node x.inp x.flit

/-- A flit leaves its output for the node's own units. -/
def hopLocal (s : State) (node : Fin 68) (out : Nat) (x : QFlit) (rest : List QFlit) : State :=
  if !hasCredit s node out x.flit.cls x.flit.vc then s
  else
    let s := (s.setOutQ node.val out rest).modRt node (fun r => { r with flitsOut := bump4 r.flitsOut x.flit.cls 1 })
    deliver s node (if node.val < 64 then node.val else x.flit.dest) x.flit

/-- A flit leaves its output for the seam's elastic buffer (09 R267, R269). -/
def hopSeam (s : State) (node : Fin 68) (out : Nat) (x : QFlit) (rest : List QFlit) : State :=
  if !hasCredit s node out x.flit.cls x.flit.vc then noteSeamFull s node
  else
    let s := (s.setOutQ node.val out rest).modRt node (fun r => { r with flitsOut := bump4 r.flitsOut x.flit.cls 1 })
    s.setOutQ node.val 6 (s.outQ node.val 6 ++ [x])

/-- A flit that a crossbar cannot take because its seam buffer is full waits, and the crossbar counts (09 R269, R280). -/
def noteSeamWait (s : State) (node : Fin 68) (inp : Nat) (f : Flit) : State :=
  if seamRoom s node inp (routeAt s node inp f.dest).1 f.dest then s else noteSeamFull s node

/-- A flit crosses a link (09 R258, R265, R274), from an output or from the seam buffer before the link; it counts as sent
once, on leaving the output. -/
def hopLink (s : State) (node : Fin 68) (out fails : Nat) (x : QFlit) (rest : List QFlit) : State :=
  let (n, i) := linkEnd node.val (linkOf node out)
  let next : Fin 68 := Fin.ofNat 68 n
  if !linkUp s node out || !s.routes next then s
  else if 4 ≤ fails then failLink s node (linkOf node out)
  else if !hasCredit s node out x.flit.cls x.flit.vc then s
  else if !canAccept s next i x.flit then (if x.flit.kind == .mcastWrite then noteSlackFull s next else noteSeamWait s next i x.flit)
  else
    let s := noteRetry s node (linkOf node out) fails
    let s := s.setOutQ node.val out rest
    let s := if out = 6 then s else s.modRt node (fun r => { r with flitsOut := bump4 r.flitsOut x.flit.cls 1 })
    enterNode s next i x.flit

/-- A flit leaves a crossbar's seam buffer for its output (09 R267). -/
def hopStrip (s : State) (node : Fin 68) (out : Nat) (x : QFlit) (rest : List QFlit) : State :=
  pushOut (s.setOutQ node.val out rest) node (routeAt s node x.inp x.flit.dest).1 x.inp x.flit

/-- A beat on a cobalt link (09 R276): protected as a flit is under R274. `fails` is how often it fails its CRC; the
fourth failure marks the cobalt link down. -/
def cobaltHop (s : State) (node : Fin 68) (dir fails : Nat) : State :=
  if (s.rt node).cobaltDown.getLsbD (downBit dir) then s
  else if 4 ≤ fails then
    raiseRt ((noteRetry s node (8 + dir) 3).modRt node (fun r => { r with
      cobaltDown := r.cobaltDown ||| BitVec.ofNat 4 (2 ^ downBit dir) })) node .meshLinkDown (names [8 + dir])
  else noteRetry s node (8 + dir) fails

/-- FLIT_HOP (09 R258, R260, R265, R267, R274, R276): the oldest flit of a class and VC on an output crosses its link, or
leaves what its node injects or a seam buffer. `fails` is how often it fails CHECK on the way: the fourth failure marks the
link down and the flit stays. Without credit, or at a router that cannot accept, nothing comes about but its counters. At a
skillet's node the outputs 8-11 stand for the cobalt links north, east, south and west. -/
def execFlitHop (node : Fin 68) (out : Fin 16) (cls : TClass) (vc : Fin 3) (fails : Nat) (s : State) : Out :=
  if node.val < 64 && 8 ≤ out.val && out.val < 12 then
    .next (if s.nodeLive node.val then cobaltHop s node (out.val - 8) fails else s)
  else match takeFlit (s.outQ node.val out.val) cls vc.val with
  | none => .next s
  | some (x, rest) =>
    if !s.routes node then .next s
    else if out.val = injectOut node then .next (hopInject s node x rest)
    else if (node.val < 64 && out.val = 4) || (64 ≤ node.val && out.val = 8) then .next (hopLocal s node out.val x rest)
    else if node.val < 64 && (seamOut node.val 4 out.val 0).isSome then .next (hopSeam s node out.val x rest)
    else if 64 ≤ node.val && 10 ≤ out.val then .next (hopStrip s node out.val x rest)
    else .next (hopLink s node out.val fails x rest)

/-- MCAST_BRANCH_RELEASE (09 R265): the stored copies of a branch leave in order as long as the branch has credit. -/
def releaseBranch (fuel : Nat) (s : State) (node : Fin 68) (out : Nat) : State :=
  match fuel with
  | 0 => s
  | fuel + 1 =>
    match s.slackQ node.val out with
    | [] => s
    | x :: r =>
      if hasCredit s node out x.flit.cls x.flit.vc then
        releaseBranch fuel (pushOut (s.setSlackQ node.val out r) node out x.inp x.flit) node out
      else s

/-- MCAST_BRANCH_RELEASE (09 R265). -/
def execMcastBranchRelease (node : Fin 68) (out : Fin 16) (s : State) : Out :=
  .next (releaseBranch 16 s node out.val)

/-- ROUTER_PARITY (09 R274): the router, or the cobalt node, is marked faulty. -/
def execRouterParity (node : Fin 68) (cobalt : Bool) (s : State) : Out :=
  if !s.nodeLive node.val then .next s
  else
    let s := raise s node.val .routerParity (if cobalt && node.val < 64 then plocUnit node.val 0x11 else routerPloc node)
      (names [b2n cobalt])
    .next (s.modRt node (fun r => if cobalt then { r with cobaltFaulty := true } else { r with faulty := true }))

/-- The landing buffer of a class at a skillet. -/
def landingOf (s : State) (p : Pid) (cls : TClass) : List Flit := vget (s.rt (nodeOf p)).landing (TClassIx cls)

/-- A landing buffer replaced. -/
def setLanding (s : State) (p : Pid) (cls : TClass) (q : List Flit) : State :=
  s.modRt (nodeOf p) (fun r => { r with landing := vset r.landing (TClassIx cls) q })

/-- A flit that meets a skillet whose compute domain is off (09 R273): acknowledged with 0x0703, counted, and MESH_DISCARD
raised once per switch-off. -/
def offDiscard (s : State) (p : Pid) (f : Flit) : State :=
  let first := !(s.rt (nodeOf p)).discardRaised
  let s := (countDiscard s (nodeOf p) 1).modRt (nodeOf p) (fun r => { r with discardRaised := true })
  let s := sendAcks s p.val f stBankClosed
  if first then raiseRt s (nodeOf p) .meshDiscard (names [f.src]) else s

/-- Whether the mesh port waits with a flit on its slot (06 R174). -/
def slotHolds (s : State) (p : Pid) (f : Flit) : Bool := f.chk && !slotWritable s p f.slot

/-- The write of a landed flit by the mesh port as a producer (06 R168, R174): the status for its sender. -/
def landWrite (s : State) (p : Pid) (f : Flit) : Nat × State :=
  let a := f.addr * 64
  if f.chk && !((s.pn p).slot f.slot).covers a f.payload.length then (stDescRange, s)
  else
    let (ok, s) := produceWrite s p 13 a f.payload f.chk f.slot
    let s := poisonRange s p (f.poison.map (fun g => a / 8 + g))
    if !ok then (stBankClosed, s)
    else (0, if f.fin && f.chk then slotCompletion s p f.slot else s)

/-- FLITS_LANDED of a class. -/
def countLanded (s : State) (p : Pid) (cls : TClass) : State :=
  s.modRt (nodeOf p) (fun r => { r with flitsLanded := bump4 r.flitsLanded cls 1 })

/-- FLIT_LANDING (06 R174, 09 R273): the WRITE or MCAST_WRITE flit at the head of a class's landing buffer lands, or
waits for its slot. The FIN of a block without data waits for nothing (07 R202, 06 R172). -/
def execFlitLanding (p : Pid) (cls : TClass) (s : State) : Out :=
  match landingOf s p cls with
  | [] => .next s
  | f :: rest =>
    if !(f.kind == .write || f.kind == .mcastWrite) then .next s
    else if !s.computeOn p then .next (offDiscard (setLanding s p cls rest) p f)
    else if !f.payload.isEmpty && slotHolds s p f && ((s.pn p).slot f.slot).covers (f.addr * 64) f.payload.length then .next s
    else
      let (st, s) := landWrite (countLanded (setLanding s p cls rest) p cls) p f
      .next (sendAcks s p.val f st)

/-- The open merge entry of a tag. -/
def mergeEntry (s : State) (p : Pid) (tag : Nat) : Option MergeEntry :=
  (s.rt (nodeOf p)).merge.find? (fun e => e.sumTag == tag)

/-- A flit against its open entry (09 R262). -/
def mergeMismatch (e : MergeEntry) (f : Flit) : Bool :=
  e.fanin != f.fanin || e.positions != f.positions || e.fin != f.fin || e.bf16 != f.bf16 || e.slot != f.slot
    || e.fanin * e.positions < e.total + f.cnt

/-- The entry that the first flit of a tag opens (09 R261). -/
def openEntry (f : Flit) : MergeEntry :=
  { sumTag := f.sumTag, fanin := f.fanin, positions := f.positions, fin := f.fin, bf16 := f.bf16, slot := f.slot,
    chk := f.chk, total := 0, marked := [] }

/-- A MERGE flit written at its position: plainly where it is unmarked, added with one rounding per element where it is
marked (09 R261). The entry closes at FANIN × POSITIONS and completes its slot. -/
def mergeWrite (s : State) (p : Pid) (e : MergeEntry) (f : Flit) : State :=
  let a := f.addr * 64
  let seen := e.marked.contains f.addr
  let (old, s) := if seen then readRange s p 13 a f.payload.length else (⟨[], [], []⟩, s)
  let bytes := if seen then addPayload f.bf16 old.bytes f.payload else f.payload
  let (ok, s) := produceWrite s p 13 a bytes f.chk f.slot
  let s := poisonRange s p ((f.poison ++ old.bad a f.payload.length).map (fun g => a / 8 + g))
  let e := { e with total := e.total + f.cnt, marked := insertNat e.marked f.addr }
  let done := e.total = e.fanin * e.positions
  let s := s.modRt (nodeOf p) (fun r => { r with
    landingAdds := sat64 r.landingAdds (b2n seen),
    merge := let m := r.merge.filter (fun x => x.sumTag != e.sumTag); if done then m else m ++ [e] })
  let s := sendAcks s p.val f (if ok then 0 else stBankClosed)
  if done && e.fin && e.chk then slotCompletion s p e.slot else s

/-- The entry for a flit (09 R261-R263): its open entry, a new one, or none while all 16 are open or its slot holds it. -/
def entryFor (s : State) (p : Pid) (f : Flit) : Option MergeEntry :=
  match mergeEntry s p f.sumTag with
  | some e => some e
  | none => if 16 ≤ (s.rt (nodeOf p)).merge.length || slotHolds s p f then none else some (openEntry f)

/-- MERGE_WAIT and MERGE_TABLE_WAIT (09 R263): raised once per step. -/
def noteMergeWait (s : State) (p : Pid) : State :=
  let (c, s) := draw s
  let first := (s.rt (nodeOf p)).mergeWaitStep != some s.commit.step
  let s := s.modRt (nodeOf p) (fun r => { r with
    mergeWait := sat64 r.mergeWait c, mergeWaitStep := some s.commit.step })
  if first then raiseRt s (nodeOf p) .mergeTableWait (names []) else s

/-- A MERGE flit that its entry does not admit is discarded (09 R262). -/
def refuseMerge (s : State) (p : Pid) (f : Flit) : State :=
  raiseRt (giveCredit s f) (nodeOf p) .mergeMismatch (names [f.sumTag, f.src])

/-- A checked MERGE flit outside its slot, or for an unconfigured one (06 R171, 07 R211). -/
def mergeOutside (s : State) (p : Pid) (f : Flit) : Bool :=
  f.chk && !((s.pn p).slot f.slot).covers (f.addr * 64) f.payload.length

/-- The entry against which a MERGE flit is held in ordered mode (09 R262, R264): the open one, or what the first flit of its
tag that is held opens, with the contributions held counted. -/
def heldEntry (s : State) (p : Pid) (f : Flit) : MergeEntry :=
  let held := (s.rt (nodeOf p)).reorder.filter (fun g => g.sumTag == f.sumTag)
  let e := (mergeEntry s p f.sumTag).getD (openEntry ((held.head?).getD f))
  { e with total := held.foldl (fun n g => n + g.cnt) e.total }

/-- MERGE_LANDING (09 R261-R264, 06 R171): the MERGE flit at the head of the vermilion landing buffer. In ordered mode it goes
to the reorder store. -/
def execMergeLanding (p : Pid) (s : State) : Out :=
  match landingOf s p .vermilion with
  | [] => .next s
  | f :: rest =>
    if f.kind != .merge then .next s
    else if !s.computeOn p then .next (offDiscard (setLanding s p .vermilion rest) p f)
    else if s.mesh.ordered then
      if 2048 ≤ (s.rt (nodeOf p)).reorder.length then .next s
      else
        let t := setLanding s p .vermilion rest
        if mergeMismatch (heldEntry s p f) f then .next (refuseMerge t p f)
        else if mergeOutside s p f then .next (sendAcks (giveCredit t f) p.val f stDescRange)
        else .next ((countLanded t p .vermilion).modRt (nodeOf p) (fun r => { r with reorder := r.reorder ++ [f] }))
    else
      let t := setLanding s p .vermilion rest
      match mergeEntry s p f.sumTag with
      | some e =>
        if mergeMismatch e f then .next (refuseMerge t p f)
        else if mergeOutside s p f then .next (sendAcks (giveCredit t f) p.val f stDescRange)
        else .next (mergeWrite (countLanded t p .vermilion) p e f)
      | none =>
        if 16 ≤ (s.rt (nodeOf p)).merge.length then .next (noteMergeWait s p)
        else if mergeMismatch (openEntry f) f then .next (refuseMerge t p f)
        else if mergeOutside s p f then .next (sendAcks (giveCredit t f) p.val f stDescRange)
        else if slotHolds s p f then .next s
        else .next (mergeWrite (countLanded t p .vermilion) p (openEntry f) f)

/-- A list of flits with one inserted by the logical number of its source skillet (09 R264). -/
def insertByLogical (key : Flit → Nat) (f : Flit) : List Flit → List Flit
  | [] => [f]
  | g :: r => if key f < key g then f :: g :: r else g :: insertByLogical key f r

/-- ORDERED_MERGE (09 R264): a position whose FANIN contributions are held is added in ascending logical number of the
sources, one rounding per addition, and written. -/
def execOrderedMerge (p : Pid) (s : State) : Out :=
  let held := (s.rt (nodeOf p)).reorder
  let same (f g : Flit) : Bool := f.sumTag == g.sumTag && f.addr == g.addr
  match held.find? (fun f => f.fanin ≤ (held.filter (fun g => same f g)).length && (entryFor s p f).isSome) with
  | none => .next s
  | some f =>
    match entryFor s p f with
    | none => .next s
    | some e =>
      let key (g : Flit) : Nat := if h : g.src < 64 then (s.logical? ⟨g.src, h⟩).getD (56 + g.src) else 200
      let parts := (held.filter (fun g => same f g)).foldl (fun a g => insertByLogical key g a) []
      let s := s.modRt (nodeOf p) (fun r => { r with reorder := r.reorder.filter (fun g => !same f g) })
      let s := parts.foldl giveCredit s
      match parts with
      | [] => .next s
      | g :: more =>
        let sum := more.foldl (fun w a => mergeFlits w a) g
        .next (mergeWrite s p e sum)

/-- CANCEL_RECEIVED (09 R272): the flits of the stopped ladle that wait ahead of the CANCEL are discarded. -/
def execCancelReceived (p : Pid) (cls : TClass) (s : State) : Out :=
  let q := landingOf s p cls
  match q.findIdx? (fun f => f.kind == .cancel) with
  | none => .next s
  | some i =>
    match q[i]? with
    | none => .next s
    | some c =>
      let mine (f : Flit) : Bool := f.src == c.src && f.ladle == c.ladle && (f.kind == .write || f.kind == .mcastWrite)
      let before := q.take i
      let n := (before.filter mine).length
      .next (countDiscard (setLanding s p cls (before.filter (fun f => !mine f) ++ q.drop (i + 1))) (nodeOf p) n)

/-- MCAST_LAG (09 R266): a multicast portion that every receiver but one has acknowledged waits beyond the limit; its
cycles go into LAG of the receiver, and the event is raised once per stream. The cycles below and beyond the limit that are
left count as the last receiver answers. -/
def execMcastLag (p : Pid) (l : Fin 8) (receiver : Pid) (s : State) : Out :=
  let d := s.ld p l
  if !d.portions.any (fun x => x.space == .multicast && x.sent && x.acks.map (fun a => a.1) == [receiver.val]) then .next s
  else
    let (c, s) := draw s
    let lim := (s.rt (nodeOf p)).mcastLagLimit
    let s := s.modRt (nodeOf p) (fun r => { r with
      lag := Tab.put r.lag receiver.val (sat64 (Tab.at r.lag receiver.val 0) (lim + c)) })
    let s := s.modLd p l (fun d => { d with lagRaised := true })
    .next (if d.lagRaised then s else raiseRt s (nodeOf p) .mcastLag (names [receiver.val]))

/-! ### Holds, epochs, clocks, tables -/

/-- The traffic flits of a list of queues discarded, each acknowledged to its origin (09 R270). -/
def purgeQueues (s : State) (t : Tab (List QFlit)) : State × Tab (List QFlit) :=
  let s := t.foldl (fun s e => (e.2.filter (fun x => heldKind x.flit.kind)).foldl (fun s x =>
    holdDiscard s (Fin.ofNat 68 (e.1 / 16)) x.flit) s) s
  (s, (t.map (fun e => (e.1, e.2.filter (fun x => !heldKind x.flit.kind)))).filter (fun e => !e.2.isEmpty))

/-- The traffic of one router's landing buffers, merge table and reorder store discarded (09 R270). -/
def purgeRouter (s : State) (node : Fin 68) : State :=
  let r := s.rt node
  let all := r.landing.toList.flatten ++ r.reorder
  let s := (all.filter (fun f => heldKind f.kind)).foldl (fun s f =>
    ackNow (countDiscard s node 1) f node.val 0) s
  s.modRt node (fun r => { r with
    landing := r.landing.map (fun q => q.filter (fun f => !heldKind f.kind)), merge := [], reorder := [] })

/-- A MESH_CTL message reaches every node (09 R277, R280). -/
def meshCtl (s : State) : State :=
  (List.range 68).foldl (fun t n => if t.nodeLive n then recvCobalt t n else t) s

/-- MESH_CTL HOLD (09 R270). -/
def holdMesh (s : State) : State :=
  let s := meshCtl { s with mesh := { s.mesh with hold := true, credit := [] } }
  let (s, q) := purgeQueues s s.mesh.outQ
  let s := { s with mesh := { s.mesh with outQ := q } }
  let (s, k) := purgeQueues s s.mesh.slack
  let s := { s with mesh := { s.mesh with slack := k } }
  let s := (List.finRange 68).foldl purgeRouter s
  let s := s.mesh.rimLanding.foldl (fun s e => (e.2.filter (fun f => heldKind f.kind)).foldl (fun s _ =>
    countDiscard s (portRouter e.1) 1) s) s
  let drop (m : CobaltMsg) : Bool := m.kind == .signal || m.kind == .remoteComplete || m.kind == .remoteRelease
  let s := (s.mesh.cobalt.filter drop).foldl (fun s m => countDiscard s (Fin.ofNat 68 (if m.bcast then m.src else m.dest)) 1) s
  { s with mesh := { s.mesh with
    rimLanding := (s.mesh.rimLanding.map (fun e => (e.1, e.2.filter (fun f => !heldKind f.kind)))).filter (fun e => !e.2.isEmpty),
    cobalt := s.mesh.cobalt.filter (fun m => !drop m) } }

/-- MESH_CTL RELEASE (09 R271): the epoch advances, the bank written during the hold comes into force and the hold ends.
ROUTES_REBUILT is raised where the routes switch (R255). -/
def releaseMesh (s : State) : State :=
  let rebuilt := s.mesh.banksWritten
  let s := meshCtl s
  let s := { s with mesh := { s.mesh with
    epoch := (s.mesh.epoch + 1) % 4, hold := false, bank := if rebuilt then 1 - s.mesh.bank else s.mesh.bank,
    banksWritten := false } }
  if rebuilt then raiseMod s .routesRebuilt (names [s.mesh.bank]) else s

/-- MESH_HOLD (09 R270). -/
def execMeshHold (s : State) : Out := .next (if !s.powered then s else sendReply (holdMesh s) 67 0 [])

/-- MESH_RELEASE (09 R271): a RELEASE without a hold advances the epoch and switches the banks all the same. -/
def execMeshRelease (s : State) : Out := .next (if !s.powered then s else sendReply (releaseMesh s) 67 0 [])

/-- A half of the mesh takes a clock (09 R268). -/
def setHalf (s : State) (east half : Bool) : State :=
  let was := if east then s.mesh.eastHalf else s.mesh.westHalf
  let s := if east then { s with mesh := { s.mesh with eastHalf := half } }
           else { s with mesh := { s.mesh with westHalf := half } }
  if was != half then raiseMod s .meshClockChanged (names [b2n east, b2n half]) else s

/-- A MESH_CTL clock message (09 R268, R277), answered by the rim strip of the steward. -/
def clockCtl (s : State) (east half : Bool) : State :=
  if !s.powered then s else sendReply (setHalf (meshCtl s) east half) 67 0 []

/-- WEST_FULL_CLOCK (09 R268). -/
def execWestFullClock (s : State) : Out := .next (clockCtl s false false)
/-- WEST_HALF_CLOCK (09 R268). -/
def execWestHalfClock (s : State) : Out := .next (clockCtl s false true)
/-- EAST_FULL_CLOCK (09 R268). -/
def execEastFullClock (s : State) : Out := .next (clockCtl s true false)
/-- EAST_HALF_CLOCK (09 R268). -/
def execEastHalfClock (s : State) : Out := .next (clockCtl s true true)

/-- TABLE_WRITE (09 R255, R277): an entry of the idle bank. -/
def execTableWrite (node : Fin 68) (dest : Fin 128) (entry : W64) (s : State) : Out :=
  if !s.nodeLive node.val then .next s
  else
  let idle : Fin 2 := Fin.ofNat 2 (1 - s.mesh.bank)
  let s := s.modRt node (fun r => { r with
    tables := vmod r.tables idle (fun t => Tab.put t dest.val (Config.tableEntry entry)),
    cobaltReceived := sat64 r.cobaltReceived 1 })
  .next { s with mesh := { s.mesh with banksWritten := true } }

end Sys2Proof.Machine
end

