-- ==== Sys2Proof/Machine/Pantry.lean ====
section
/-! DEFINITION. Machine/Pantry.lean: the pantry's operations (06): fill and copy, slots, shelves, LOAD and STORE,
corrections and scrub. -/

namespace Sys2Proof.Machine

/-! ### Memory operations (06 R161-R163) -/

/-- A memory-operation descriptor from its 32 bytes (06 R162). -/
structure MemDesc where
  op : Nat
  rsv : Nat
  length : Nat
  pattern : Nat
  src : Operand
  dst : Operand
  deriving DecidableEq, Repr

/-- The fields of a memory-operation descriptor (06 R162). -/
def memDescOf (bs : List Byte) : MemDesc :=
  let w0 := word64 bs 0
  { op := bits w0 63 60, rsv := bits w0 59 23, length := bits w0 22 0, pattern := word64 bs 8,
    src := operandOf (word64 bs 16), dst := operandOf (word64 bs 24) }

/-- Whether a checked range lies outside its slot (06 R171). -/
def outsideSlot (k : Pantry) (o : Operand) (len : Nat) : Bool := o.chk && !(k.slot o.slot).covers o.base len

/-- The first status of R163 whose condition holds for a descriptor at a byte address; 0 where it stands. -/
def memopStatus (k : Pantry) (addr : Nat) (d : MemDesc) : Nat :=
  let copy := d.op == 2
  let len := d.length * 64
  if paLimit < addr + 32 then stDescFormat
  else if !(d.op == 1 || d.op == 2) || d.rsv != 0 || d.src.rsv || d.dst.rsv then stReserved
  else if (copy && d.pattern != 0) || (!copy && d.src.raw != 0) || d.src.stride != 0 || d.dst.stride != 0 then stInconsistent
  else if copy && d.src.chk && d.dst.chk && d.src.slot == d.dst.slot then stInconsistent
  else if (copy && paLimit < d.src.base + len) || paLimit < d.dst.base + len || (copy && outsideSlot k d.src len)
      || outsideSlot k d.dst len then stDescRange
  else if (copy && !rangeOpen k d.src.base len) || !rangeOpen k d.dst.base len then stBankClosed
  else 0

/-- MEMOP (06 R161-R163): the descriptor is copied at acceptance; the operation waits for its slots. -/
def execMemop (p : Pid) (s : State) : Out :=
  .next (issueWord s p .memop (fun s t w =>
    let addr := bits w 111 88 * 32
    let i := issuerOf s p t w
    let (r, s) := if paLimit < addr + 32 then (⟨List.replicate 32 0, [], []⟩, s) else readRange s p 14 addr 32
    let d := memDescOf r.bytes
    match memopStatus (s.pn p) addr d with
    | 0 =>
      let m : MemOp := { copy := d.op == 2, length := d.length, pattern := d.pattern, src := d.src, dst := d.dst, issuer := i }
      finishWord (s.modPn p (fun k => { k with memopQueue := k.memopQueue ++ [m] })) p t w 0
    | st => finishWord s p t w st))

/-- Whether the slots of a memory operation let it begin (06 R161, R163): a length of 0 waits for nothing. -/
def memopReady (s : State) (p : Pid) (m : MemOp) : Bool :=
  m.length = 0 || ((!(m.copy && m.src.chk) || s.slotSt p m.src.slot == .full)
    && (!m.dst.chk || slotWritable s p m.dst.slot))

/-- The accesses of a memory operation (06 R161): a copy reads its whole source before it writes. Poison goes with the
data. The status is 0, or 0x0703 where a write was rejected. -/
def memopRun (s : State) (p : Pid) (m : MemOp) : Nat × State :=
  let len := m.length * 64
  if len = 0 then (0, s)
  else
    if m.copy then
      let (r, s) := readRange s p 14 m.src.base len
      let (ok, s) := produceWrite s p 14 m.dst.base r.bytes m.dst.chk m.dst.slot
      (if ok then 0 else stBankClosed, poisonRange s p ((r.bad m.src.base len).map (fun g => m.dst.base / 8 + g)))
    else
      let (ok, s) := produceWrite s p 14 m.dst.base ((List.range (m.length * 8)).flatMap (fun _ => leBytes 8 m.pattern))
        m.dst.chk m.dst.slot
      (if ok then 0 else stBankClosed, s)

/-- The end of the k-th accepted memory operation (06 R161, 08 R223): it runs and ends; it makes the release and the
completion that its operands name. -/
def memopEnd (s : State) (p : Pid) (k : Nat) : State :=
  match (s.pn p).memopQueue[k]? with
  | none => s
  | some m =>
    if !memopReady s p m then s
    else
      let s := s.modPn p (fun x => { x with memopQueue := x.memopQueue.eraseIdx k })
      let (st, s) := memopRun s p m
      let s := s.modPn p (fun x => { x with memops := sat64 x.memops 1 })
      let s := if st = 0 then
          let s := if m.copy then releaseOperand s p m.src else s
          if m.dst.chk && m.dst.fin then slotCompletion s p m.dst.slot else s
        else s
      postCompletion s p m.issuer st

/-- MEMOP_DONE (06 R161). -/
def execMemopDone (p : Pid) (k : Nat) (s : State) : Out := .next (memopEnd s p k)

/-! ### Slots (06 R165-R175) -/

/-- Whether the mesh port waits on a slot (06 R174, 09 R264): with the flit at the head of a landing buffer, or with a
MERGE that it holds for ordered merging. -/
def portWaits (s : State) (p : Pid) (slot : Nat) : Bool :=
  let r := s.rt (nodeOf p)
  let waits (f : Flit) : Bool := f.slot == slot && slotHolds s p f
  r.landing.toList.any (fun q => match q.head? with
    | some f => waits f
    | none => false) || r.reorder.any waits

/-- WAITERS of a slot (06 R166): griddles, ladles and the mesh port that now wait on it, 0-13. -/
def slotWaiters (s : State) (p : Pid) (slot : Nat) : Nat :=
  ((List.finRange 4).filter (fun g => griddleWaits s p g slot)).length
    + ((List.finRange 8).filter (fun l => ladleWaits s p l slot)).length + b2n (portWaits s p slot)

/-- The configuration word D0 in a slot's terms (06 R165). -/
def Slot.configure (x : Slot) (d0 : Nat) : Slot :=
  { x with base := bits d0 63 41, length := bits d0 40 18, producers := bits d0 17 12, consumers := bits d0 11 6 }

/-- The first status that R167 gives a SET; a reserved bit of D0 is a reserved field of the word (08 R225). -/
def slotSetStatus (s : State) (p : Pid) (slot d0 : Nat) : Nat :=
  let x := (s.pn p).slot slot
  let y := x.configure d0
  if bits d0 5 0 != 0 then stReserved
  else if x.st != .empty || x.produced != 0 || x.released != 0 || slotWaiters s p slot != 0 then stBusy
  else if y.length = 0 || y.producers = 0 || y.consumers = 0 || paLimit < (y.base + y.length) * 64 then stDescRange
  else if !rangeOpen (s.pn p) (y.base * 64) (y.length * 64) then stBankClosed
  else 0

/-- SLOT_SET (06 R167). -/
def execSlotSet (p : Pid) (s : State) : Out :=
  .next (issueWord s p .set (fun s t w =>
    let slot := bits w 111 100
    match slotSetStatus s p slot (bits w 63 0) with
    | 0 => finishWord (s.modPn p (fun k => k.setSlot slot ((k.slot slot).configure (bits w 63 0)))) p t w 0
    | st => finishWord s p t w st))

/-- Whether a griddle pass, a ladle stream or a memory operation of the skillet is in progress (06 R175). -/
def workInProgress (s : State) (p : Pid) : Bool :=
  (s.sk p).griddles.toList.any (fun g => !g.queue.isEmpty || !g.retryQueue.isEmpty || !g.active.isEmpty)
    || (s.sk p).ladles.toList.any (fun d => d.st == .active || d.st == .tail || d.st == .stopping || !d.portions.isEmpty)
    || !(s.pn p).memopQueue.isEmpty

/-- SLOT_RESET (06 R175). -/
def execSlotReset (p : Pid) (s : State) : Out :=
  .next (issueWord s p .reset (fun s t w =>
    let slot := bits w 111 100
    if workInProgress s p then finishWord s p t w stBusy
    else finishWord (s.modPn p (fun k => k.setSlot slot (k.slot slot).emptied)) p t w 0))

/-- SLOT_RESET_ALL (06 R175): all 4,096 slots. -/
def execSlotResetAll (p : Pid) (s : State) : Out :=
  .next (issueWord s p .resetAll (fun s t w =>
    if workInProgress s p then finishWord s p t w stBusy
    else finishWord (s.modPn p (fun k => { k with slots := emptiedSlots k.slots })) p t w 0))

/-- SLOT_COMPLETE (06 R168, R172). -/
def execSlotComplete (p : Pid) (s : State) : Out :=
  .next (issueWord s p .complete (fun s t w => finishWord (slotCompletion s p (bits w 111 100)) p t w 0))

/-- SLOT_RELEASE (06 R168, R172). -/
def execSlotRelease (p : Pid) (s : State) : Out :=
  .next (issueWord s p .release (fun s t w => finishWord (slotRelease s p (bits w 111 100)) p t w 0))

/-- SLOT_DRAIN_DONE (06 R168): a DRAINING slot whose tagged reads have retired becomes EMPTY with GEN + 1. -/
def execSlotDrainDone (p : Pid) (slot : Fin 4096) (s : State) : Out :=
  let x := (s.pn p).slot slot.val
  .next (if x.st == .draining then s.modPn p (fun k => k.setSlot slot.val x.emptied) else s)

/-! ### Shelves (06 R176-R178) -/

/-- A shelf's state replaced. -/
def setShelf (s : State) (p : Pid) (n : Nat) (x : Shelf) : State :=
  if h : n < 15 then s.modPn p (fun k => { k with shelves := vset k.shelves ⟨n, h⟩ x }) else s

/-- The contents of a shelf zero-filled, its errors gone (06 R176). -/
def zeroShelf (s : State) (p : Pid) (n : Nat) : State :=
  s.modPn p (fun k => { k with
    mem := Mem.zero k.mem (n * 2 ^ 25) (2 ^ 25), poison := k.poison.filter (fun g => shelfOf (8 * g) != n),
    corrupt := k.corrupt.filter (fun g => shelfOf (8 * g) != n),
    errors := k.errors.filter (fun e => shelfOf (8 * e.1) != n) })

/-- Whether a slot's range touches a shelf. -/
def Slot.touches (x : Slot) (n : Nat) : Bool := x.length != 0 && (rangeShelves (x.base * 64) (x.length * 64)).contains n

/-- Whether a slot bars the close of a shelf (06 R177): its range touches it and it is not EMPTY or has waiters. -/
def slotBars (s : State) (p : Pid) (n : Nat) : Bool :=
  (s.pn p).slots.any (fun e => e.2.touches n && (e.2.st != .empty || slotWaiters s p e.1 != 0))

/-- Whether a write has been rejected since the shelf's last close (06 R178). -/
def shelfRejected (s : State) (p : Pid) (n : Nat) : Bool :=
  if h : n < 15 then (vget (s.pn p).shelves ⟨n, h⟩).rejected else false

/-- An OPEN command at a shelf (06 R177): status, whether it is complete, and the state. -/
def openShelf (s : State) (p : Pid) (n : Nat) : Nat × Bool × State :=
  if 14 < n then (stAbove, true, s)
  else match (s.pn p).shelf n with
    | .off => (0, false, setShelf s p n ⟨.waking, shelfRejected s p n⟩)
    | .waking => (0, false, s)
    | .opened => (0, true, s)
    | .closing => (stBusy, true, s)

/-- A CLOSE command at a shelf (06 R177, R178): a new close starts its own count of rejected writes. -/
def closeShelf (s : State) (p : Pid) (n : Nat) : Nat × Bool × State :=
  if 14 < n then (stAbove, true, s)
  else match (s.pn p).shelf n with
    | .off => (0, true, s)
    | .waking => (stBusy, true, s)
    | .opened => if slotBars s p n then (stBusy, true, s) else (0, false, setShelf s p n ⟨.closing, false⟩)
    | .closing => (0, false, s)

/-- The end of a shelf command of the sequencer: a command that is not complete holds its task (06 R177, 08 R223). -/
def shelfWord (p : Pid) (t : Fin 16) (w n : Nat) (opens : Bool) (r : Nat × Bool × State) : State :=
  if r.1 = 0 && !r.2.1 then r.2.2.modSq p (fun q => { q with hold := some (n, opens) }) else finishWord r.2.2 p t w r.1

/-- SHELF_OPEN (06 R177): the sequencer's word, or a SHELF message of the steward for the named shelf. -/
def execShelfOpen (p : Pid) (steward : Option Nat) (s : State) : Out :=
  .next (match steward with
    | some n =>
      if !s.nodeLive p.val then s
      else let r := openShelf (recvCobalt s p.val) p n; sendReply r.2.2 p.val r.1 []
    | none => issueWord s p .open_ (fun s t w => shelfWord p t w (bits w 111 108) true (openShelf s p (bits w 111 108))))

/-- SHELF_CLOSE (06 R177): the sequencer's word, or a SHELF message of the steward for the named shelf. -/
def execShelfClose (p : Pid) (steward : Option Nat) (s : State) : Out :=
  .next (match steward with
    | some n =>
      if !s.nodeLive p.val then s
      else let r := closeShelf (recvCobalt s p.val) p n; sendReply r.2.2 p.val r.1 []
    | none => issueWord s p .close (fun s t w => shelfWord p t w (bits w 111 108) false (closeShelf s p (bits w 111 108))))

/-- A task that HALT_ALL stops (08 R219): FREE, its counters, STATUS and loop stack zero. -/
def Task.halt (x : Task) : Task :=
  { x with st := .free, cc := Vector.replicate 8 0, status := 0, loops := [], waitKind := 0, cause := 0, target := none,
           word := 0, met := false, inc := x.inc + 1 }

/-- The task that a shelf command holds goes on when the shelf has reached its state (06 R177); after a HALT_ALL it stops
there (08 R219). -/
def releaseHold (s : State) (p : Pid) (n : Nat) (opens : Bool) : State :=
  if (s.sq p).hold = some (n, opens) then
    let s := s.modSq p (fun q => { q with hold := none })
    match (s.sq p).current with
    | some t =>
      if (s.sq p).halting then
        leaveRunning ((s.modSq p (fun q => { q with halting := false })).modTask p t Task.halt) p t .free
      else advance s p t
    | none => s
  else s

/-- SHELF_WAKE_DONE (06 R176): a WAKING shelf is zero-filled and OPEN. -/
def execShelfWakeDone (p : Pid) (shelf : Fin 15) (s : State) : Out :=
  if (s.pn p).shelf shelf.val != .waking then .next s
  else .next (releaseHold (setShelf (zeroShelf s p shelf.val) p shelf.val ⟨.opened, false⟩) p shelf.val true)

/-- SHELF_CLOSE_DONE (06 R176): a CLOSING shelf is OFF and its data is gone. -/
def execShelfCloseDone (p : Pid) (shelf : Fin 15) (s : State) : Out :=
  if (s.pn p).shelf shelf.val != .closing then .next s
  else
    let rej := (vget (s.pn p).shelves shelf).rejected
    .next (releaseHold (setShelf (zeroShelf s p shelf.val) p shelf.val ⟨.off, rej⟩) p shelf.val false)

/-! ### LOAD and STORE (08 R223) -/

/-- The status of a checked access of 8 bytes that the sequencer makes (06 R170, R171): out of its slot, or against the
slot's state. -/
def checkStatus (s : State) (p : Pid) (w : Nat) (write : Bool) : Nat :=
  if !bit w 108 then 0
  else
    let slot := bits w 107 96
    if !((s.pn p).slot slot).covers (bits w 92 64) 8 then stDescRange
    else if (write && !slotWritable s p slot) || (!write && s.slotSt p slot != .full) then stSlotOrder
    else 0

/-- SLOT_ORDER advanced where an access is refused with 0x0704 (06 R170). -/
def countOrder (s : State) (p : Pid) (st : Nat) : State :=
  if st = stSlotOrder then s.modPn p (fun k => { k with slotOrder := sat64 k.slotOrder 1 }) else s

/-- A task register written. -/
def setTr (s : State) (p : Pid) (t : Fin 16) (n : Nat) (v : Nat) : State :=
  s.modTask p t (fun x => { x with tr := vset x.tr (Fin.ofNat 8 n) (w64 v) })

/-- SLOT_LOAD (08 R223, R226, 06 R170, R171, R180): `errs` are errors that the banks have taken; 8 bytes from pantry into a task register; poison faults the task. -/
def execSlotLoad (p : Pid) (errs : List (Nat × Bool)) (s : State) : Out :=
  .next (issueWord (strike s p errs) p .load (fun s t w =>
    match checkStatus s p w false with
    | 0 =>
      let (r, s) := readRange s p 14 (bits w 92 64) 8
      if r.poison then taskFault s p t 2 else finishWord (setTr s p t (bits w 111 109) (leNat r.bytes)) p t w 0
    | st => finishWord (countOrder s p st) p t w st))

/-- SLOT_STORE (08 R223, 06 R157, R170, R171, R178): 8 bytes of a task register into pantry; a checked write to an EMPTY
slot makes it FILLING. -/
def execSlotStore (p : Pid) (s : State) : Out :=
  .next (issueWord s p .store (fun s t w =>
    match checkStatus s p w true with
    | 0 =>
      let v := (trOf (s.task p t) (bits w 111 109)).toNat
      let (ok, s) := produceWrite s p 14 (bits w 92 64) (leBytes 8 v) (bit w 108) (bits w 107 96)
      finishWord s p t w (if ok then 0 else stBankClosed)
    | st => finishWord (countOrder s p st) p t w st))

/-! ### Corrections and scrub (06 R180-R182) -/

/-- One corrected error of a physical bank counted in the window (06 R182, R185). -/
def countCe (s : State) (p : Pid) (bank word : Nat) : State :=
  let n := Tab.at (s.pn p).bankCe bank 0 + 1
  let s := s.modPn p (fun k => { k with
    ceCorrected := sat64 k.ceCorrected 1, bankCe := Tab.put k.bankCe bank (min n (2 ^ 32 - 1)) })
  let s := if n = 1 then raiseSk s p 5 .pantryCorrected (names [bank, word]) else s
  if n = s.ceLimit then retireBank s p bank else s

/-- CORRECTION_WRITEBACK (06 R180): a granule whose corrected value waits is written back. -/
def execCorrectionWriteback (p : Pid) (granule : Nat) (s : State) : Out :=
  if !(s.pn p).corrupt.contains granule then .next s
  else
    let s := s.modPn p (fun k => { k with corrupt := k.corrupt.filter (fun g => g != granule) })
    .next (countCe s p (physBankOf s p (8 * granule)) (bankWord (8 * granule)))

/-- What scrub finds in a granule (06 R181): the error that the bank holds there, if it holds one. -/
def scrubFinds (k : Pantry) (g : Nat) (e : Ecc) : Ecc :=
  match k.errors.find? (fun x => x.1 == g) with
  | some x => if x.2 then .double else .single
  | none => e

/-- Scrub reads a word of an OPEN shelf (06 R181); what it finds in one of its granules is corrected or poisoned. A pantry
whose compute domain is off is not scrubbed (R183). -/
def scrubPantry (s : State) (p : Pid) (word : Nat) (granule : Fin 64) (e : Ecc) (passDone : Bool) : State :=
  let a := word * 512 + granule.val * 8
  if !s.computeOn p || !s.powered || (s.pn p).shelf (shelfOf a) != .opened then s
  else
    let bank := physBankOf s p a
    let found := scrubFinds (s.pn p) (a / 8) e
    let s := s.modPn p (fun k => { k with
      errors := k.errors.filter (fun x => x.1 != a / 8),
      scrubForced := k.scrubForced.filter (fun b => b != bank), scrubPasses := sat64 k.scrubPasses (b2n passDone) })
    match found with
      | .clean => s
      | .single => noteError s p (a / 8) false
      | .double => raiseSk (noteError s p (a / 8) true) p 5 .pantryUncorrectable (names [bank, bankWord a])

/-- SCRUB_FORCE (06 R159): a bank that has given scrub no cycle for 65,536 cycles owes it the next one. -/
def execScrubForce (p : Pid) (bank : Fin 256) (s : State) : Out :=
  .next (if s.computeOn p then s.modPn p (fun k => { k with scrubForced := insertNat k.scrubForced bank.val }) else s)

/-- CE_WINDOW_END (06 R182, R186, 10 R303): the windows of every bank and rim buffer start again; CE_RETIRE_LIMIT as
written takes effect. -/
def execCeWindowEnd (s : State) : Out :=
  .next { s with
    ceLimit := s.ceLimitNext
    rim := { s.rim with buffers := s.rim.buffers.map (fun b => { b with ceRaised := false }) }
    sks := s.sks.map (fun k => { k with pantry := { k.pantry with bankCe := [] } }) }

end Sys2Proof.Machine
end

