-- ==== Sys2Proof/Machine/TimeOps.lean ====
section
/-! DEFINITION. Machine/TimeOps.lean: cluster time's shared operations (02): counting a beat, the source train, the lock
states, the scheduled entries' due beats, and applying a marker. -/

namespace Sys2Proof.Machine

/-- The state with its time changed. -/
def State.modTime (s : State) (f : TimeSt → TimeSt) : State := { s with time := f s.time }

/-- The state with its scheduled-event table changed. -/
def State.modSched (s : State) (f : SchedSt → SchedSt) : State := { s with sched := f s.sched }

/-! ### Counting (02 R47, R55, R56, R58) -/

/-- The code of a lock state (02 R51). -/
def lockCode : Lock → Nat
  | .unlocked => 0
  | .locking => 1
  | .locked => 2
  | .holdover => 3
  | .slewing => 4

/-- A STAMP frame on each live port when COUNT is a multiple of 1,024 (02 R58, 12 R376, R384). -/
def sendStamps (s : State) : State :=
  if s.time.count % 1024 = 0 then
    let body := leBytes 8 s.time.count ++ [BitVec.ofNat 8 (lockCode s.time.lock), BitVec.ofNat 8 (b2n s.time.valid)]
    (livePorts s).foldl (fun t n => sendNeighbour t n 3 (body ++ List.replicate 246 0)) s
  else s

/-- A loaded count takes effect (02 R56): it leaves no offset. On source 2 the module is LOCKED once it applies (R59). -/
def applyLoad (t : TimeSt) (v : Nat) : TimeSt :=
  { t with
    count := v % 2 ^ 64, pendingLoad := none, slewOffset := 0, steer := false, refOffset := t.refOffset.map (fun _ => 0),
    lock := if t.source = 2 then .locked else t.lock }

/-- One counted beat (02 R47, R56): COUNT moves by one, or to a count that waits and no entry is armed; FRAC returns to 0.
DESIGN CHOICE (notes/assumptions/60): a count that meets an armed entry waits on and advances with the beats, so that COUNT
does not decrease when it is taken. -/
def countBeat (s : State) : State :=
  let armed := s.anyArmed
  let s := s.modTime (fun t => match t.pendingLoad with
    | some v => if armed then { t with count := (t.count + 1) % 2 ^ 64, pendingLoad := some (v + 1) } else applyLoad t v
    | none => { t with count := (t.count + 1) % 2 ^ 64 })
  let s := s.modTime (fun t => { t with frac := 0, ticks := t.ticks + 1 })
  lockedReady (sendStamps s)

/-! ### Lock states (02 R50-R54) -/

/-- A lock state entered; LOCKED may end JOINED (02 R57). -/
def setLock (s : State) (l : Lock) : State := lockedReady (s.modTime (fun t => { t with lock := l }))

/-- HOLDOVER is entered (02 R50): BEAT_LOST and its counter. From SLEWING the residual offset stays (R51). DESIGN CHOICE
(notes/assumptions/60): the anomaly window is cleared at the entry. -/
def enterHoldover (s : State) : State :=
  let s := s.modTime (fun t => { t with
    lock := .holdover, holdoverEntries := sat32 t.holdoverEntries 1, holdoverBeats := 0, anomalies := [],
    train := { t.train with run := 0 }, refOffset := if t.lock == .slewing then some t.slewOffset else none,
    refLoaded := t.lock == .slewing && t.refLoaded, awaitStamp := false, awaitLoad := false, longSeen := false, handover := false,
    steer := false })
  raiseMod s .beatLost 0

/-- TIME_SPLIT (02 R54): HOLDOVER that awaits CBC_LOAD alone; source 2 keeps its lock state. -/
def timeSplit (s : State) (off : Nat) : State :=
  let s := if s.time.source = 2 || s.time.lock == .holdover then s else enterHoldover s
  let s := if s.time.source = 2 then s
    else s.modTime (fun t => { t with awaitLoad := true, awaitStamp := false, refOffset := none, refLoaded := false })
  raiseMod s .timeSplit (names [off])

/-- VALID is set (02 R55), which takes LOCKING on to LOCKED (R51). -/
def setValid (s : State) : State :=
  let s := s.modTime (fun t => { t with valid := true })
  if s.time.lock == .locking then setLock s .locked else s

/-- Whether HOLDOVER awaits a reference (02 R52, R54). -/
def TimeSt.awaits (t : TimeSt) : Bool := t.lock == .holdover && (t.awaitStamp || t.awaitLoad)

/-! ### The source train (02 R49, R538) -/

/-- An anomaly (02 R50): it falls within 1,000 bt. In HOLDOVER it restarts the run of accepted beats (R51); in other states
only a beat without an accepted edge ends a run. -/
def anomaly (s : State) : State :=
  s.modTime (fun t => { t with
    anomalies := t.anomalies.filter (fun a => t.ticks < a + 1000) ++ [t.ticks],
    train := { t.train with run := if t.lock == .holdover then 0 else t.train.run } })

/-- The train starts (02 R538): the next qualified edge is its reference. -/
def startTrain (t : TimeSt) : TimeSt := { t with train := {} }

/-- The train starts afresh after 16 beats without an accepted edge (02 R538): its flywheel beats go on, one LATE per beat,
until the next qualified edge (R49, R59). -/
def againTrain (t : TimeSt) : TimeSt := { t with train := { fly := true } }

/-- Whether the count follows the source train (02 R51). -/
def TimeSt.follows (t : TimeSt) : Bool := t.source != 2 && (t.lock == .locking || t.lock == .locked)

/-- What an edge is (02 R49): measured from the train's reference, in ps. -/
inductive EdgeClass where
  | reference | early | short | accepted | tooLate
  deriving DecidableEq, Repr

/-- The class of an edge (02 R49, R538). -/
def classify (t : TimeSt) (ps : Nat) : EdgeClass :=
  if !t.train.hasRef then .reference
  else if ps < 500000 then .early
  else if ps < 900000 then .short
  else if ps ≤ 1100000 then .accepted
  else .tooLate

/-- The beat of an edge that the count follows (02 R51): at the hand-over, an oscillator beat less than 0.5 bt before it
stands for it. -/
def trainBeat (s : State) (sinceBeat : Nat) : State :=
  if !s.time.follows then s
  else if s.time.handover then
    let s := s.modTime (fun t => { t with handover := false })
    if sinceBeat < 512 then s else countBeat s
  else countBeat s

/-- A qualified edge of the selected source (02 R49, R538); an edge past the deadline comes after its LATE, and a beat
comes after what is due. Answers whether the edge came about. -/
def edge (s : State) (ps sinceBeat : Nat) : Option (Bool × State) :=
  match classify s.time ps with
  | .early => some (false, anomaly (s.modTime (fun t => { t with early := sat32 t.early 1 })))
  | .short => some (false, anomaly (s.modTime (fun t => { t with short := sat32 t.short 1 })))
  | .tooLate => none
  | .reference =>
    if s.time.follows && s.beatDue then none
    else some (false, trainBeat (s.modTime (fun t => { t with train := { hasRef := true, missed := 0, run := 0 } })) sinceBeat)
  | .accepted =>
    if s.time.follows && s.beatDue then none
    else some (true, trainBeat (s.modTime (fun t => { t with
      train := { t.train with missed := 0, run := t.train.run + 1 },
      periods := (t.periods ++ [ps]).drop (t.periods.length + 1 - 16) })) sinceBeat)

/-- PERIOD_EST (02 R47): the mean of the last 16 accepted periods, in ps; the spec names no value before any. -/
def TimeSt.periodEst (t : TimeSt) : Nat :=
  if t.periods.isEmpty then Config.unstated 0x320006 else t.periods.sum / t.periods.length

/-! ### Markers (02 R66-R68) -/

/-- The armed STEP_BOUNDARY entry's index. -/
def boundaryEntry (s : State) : Option (Fin 64) :=
  (List.finRange 64).find? (fun i => let e := vget s.sched.entries i; e.arm && e.kind = 1)

/-- A marker applied to the armed MOVABLE boundary, or counted (02 R67). -/
def applyMarker (s : State) (target : Nat) : State :=
  let outside : State := s.modSched (fun c => { c with marksOutside := sat32 c.marksOutside 1 })
  match boundaryEntry s with
  | none => outside
  | some i =>
    let e := vget s.sched.entries i
    let near := target ≤ e.time + 2048 && e.time ≤ target + 2048
    let after := match s.sched.lastBoundary with | some b => decide (b < target) | none => true
    let before := e.period = 0 || target < e.time + e.period
    if !(e.movable && near && after && before && s.time.count + 2 ≤ target) then outside
    else if e.moved.isSome then s.modSched (fun c => { c with marksDuplicate := sat32 c.marksDuplicate 1 })
    else s.modSched (fun c => { c with
      marksAccepted := sat32 c.marksAccepted 1, entries := vset c.entries i { e with moved := some target } })

/-- A marker message received or injected (02 R66): a repeat is neither applied nor forwarded. -/
def takeMarker (s : State) (target number : Nat) : State :=
  let known := s.sched.recentMarks.any (fun m => m.1 = number && s.time.ticks ≤ m.2 + 65536)
  let s := s.modSched (fun c => { c with recentMarks :=
    (c.recentMarks.filter (fun m => m.1 != number && s.time.ticks ≤ m.2 + 65536)) ++ [(number, s.time.ticks)] })
  if known then s
  else
    let s := if s.sched.markSource = 2 || s.sched.markSource = 3 then applyMarker s target else s
    (livePorts s).foldl (fun t n =>
      sendNeighbour t n 4 (leBytes 8 target ++ leBytes 2 number ++ List.replicate 246 0)) s

/-- NEXT_BOUNDARY (02 R68). -/
def nextBoundary (s : State) : Nat :=
  match boundaryEntry s with
  | some i => (vget s.sched.entries i).fireAt
  | none => 0

/-! ### Scheduled entries as written (02 R61, R62) -/

/-- An entry as its 128 bits spell it; STATE is read only. -/
def schedOf (v : Nat) : SchedEntry :=
  { time := bits v 127 64, period := bits v 63 32, length := bits v 31 12, kind := bits v 11 8, arg := bits v 7 4,
    movable := bit v 1, arm := bit v 0, state := .idle, moved := none }

/-- The code of STATE. -/
def schedCode : SchedState → Nat
  | .idle => 0
  | .armed => 1
  | .fired => 2
  | .missed => 3

/-- An entry as it reads (02 R61, R68: TIME of a moved entry is the scheduled TIME). -/
def SchedEntry.word (e : SchedEntry) : Nat :=
  e.time * 2 ^ 64 + e.period * 2 ^ 32 + e.length * 2 ^ 12 + e.kind * 2 ^ 8 + e.arg * 16 + schedCode e.state * 4
    + b2n e.movable * 2 + b2n e.arm

/-- The first row of R62 that a write that arms an entry meets, or 0. -/
def armStatus (s : State) (i : Fin 64) (e : SchedEntry) : Nat :=
  let windowed := e.kind = 2 || e.kind = 3
  if !s.time.valid then stWrongState
  else if e.time ≤ s.time.count + 2 then stBelow
  else if 4 < e.kind then stReserved
  else if e.kind = 0 then stInconsistent
  else if e.arg != 0 && !windowed then stInconsistent
  else if windowed != (e.length != 0) then stInconsistent
  else if e.movable && e.kind != 1 then stInconsistent
  else if e.kind = 1 && (List.finRange 64).any (fun j => j != i && (vget s.sched.entries j).arm
      && (vget s.sched.entries j).kind = 1) then stInconsistent
  else if windowed && e.period != 0 && e.period < e.length * 64 then stInconsistent
  else 0

/-- Whether two entries agree in every written field but ARM. -/
def sameFields (a b : SchedEntry) : Bool :=
  a.time = b.time && a.period = b.period && a.length = b.length && a.kind = b.kind && a.arg = b.arg
    && a.movable == b.movable

end Sys2Proof.Machine
end

