-- ==== Sys2Proof/Machine/RimOps.lean ====
section
/-! DEFINITION. Machine/RimOps.lean: the rim strips' shared operations (10 R289-R297, R302) and the geometry of the
cluster reduction (11 R330-R335): stacks, plan space, parameter blocks, buckets and ring roles. -/

namespace Sys2Proof.Machine

/-! ### Slices -/

/-- A slice of a rim strip. -/
def State.slice (s : State) (sl : Slice) : RimSlice := vget s.rim.slices sl

/-- The state with a slice changed. -/
def State.modSlice (s : State) (sl : Slice) (f : RimSlice → RimSlice) : State :=
  { s with rim := { s.rim with slices := vmod s.rim.slices sl f } }

/-- The state with a memory controller changed. -/
def State.modMc (s : State) (sl : Slice) (f : Stack → Stack) : State := s.modSlice sl (fun x => { x with mc := f x.mc })

/-- The state with an update engine changed. -/
def State.modUe (s : State) (sl : Slice) (f : Ue → Ue) : State := s.modSlice sl (fun x => { x with ue := f x.ue })

/-- The state with a slice's reduction changed. -/
def State.modRedSl (s : State) (sl : Slice) (f : RedSlice → RedSlice) : State :=
  s.modSlice sl (fun x => { x with red := f x.red })

/-- The state with the module's reduction changed. -/
def State.modRed (s : State) (f : RedSt → RedSt) : State := { s with red := f s.red }

/-- The state with the step in progress changed. -/
def State.modRun (s : State) (f : StepSt → StepSt) : State := { s with run := f s.run }

/-- The 32 slices. -/
def allSlices : List Slice := List.finRange 32

/-- A slice by number. -/
def sliceOf (n : Nat) : Slice := Fin.ofNat 32 n

/-- An event of a memory controller's slice, raised at its strip's node. -/
def raiseMc (s : State) (sl : Slice) (ev : Ev) (data : Nat) : State := raise s (64 + sl.val / 8) ev (plocRim sl 0) data

/-- An event of an update engine. -/
def raiseUe (s : State) (sl : Slice) (ev : Ev) (data : Nat) : State := raise s (64 + sl.val / 8) ev (plocRim sl 8) data

/-! ### Stack memory (10 R286, R302) -/

/-- The bursts that a range touches. -/
def bursts (loc n : Nat) : List Nat := if n = 0 then [] else (List.range ((loc + n - 1) / 64 + 1 - loc / 64)).map (fun i => loc / 64 + i)

/-- A burst with an uncorrectable error. -/
def Stack.spoil (m : Stack) (b : Nat) : Stack := if m.bad.contains b then m else { m with bad := m.bad ++ [b] }

/-- The bytes of a burst that a write of n bytes covers, as a mask. -/
def burstMask (b loc n : Nat) : Nat :=
  (List.range 64).foldl (fun a i => if loc ≤ 64 * b + i && 64 * b + i < loc + n then a + 2 ^ i else a) 0

/-- An uncorrectable burst as a write reaches it (10 R286, R287): it loses its error when all its 64 bytes have been
written since. DESIGN CHOICE, log 66: the writes that replace it may come in parts. -/
def Stack.rewrite (m : Stack) (loc n b : Nat) : Stack :=
  let k := Tab.at m.rewrites b 0 ||| burstMask b loc n
  if k = 0 then m
  else if k = 2 ^ 64 - 1 then { m with bad := m.bad.filter (fun x => x != b), rewrites := Tab.del m.rewrites b }
  else { m with rewrites := Tab.put m.rewrites b k }

/-- A repair-list entry takes effect (10 R288), or finds no soft-repair row left. -/
def applyRepair (s : State) (e : Repair) : State :=
  let sl := sliceOf e.stack
  let s := { s with rim := { s.rim with repairs := s.rim.repairs.filter (fun x => x != e) } }
  if Config.repairRowLeft e.stack e.row (s.slice sl).mc.repairs then
    let s := { s with rim := { s.rim with repairs := s.rim.repairs ++ [{ e with inForce := true }] } }
    raiseMc (s.modMc sl (fun m => { m with repairs := m.repairs + 1 })) sl .stackRowRepaired (names [e.row])
  else raiseMc s sl .stackRepairExhausted (names [e.row])

/-- The repair-list entries that are due take effect (10 R288: in SELF_TEST, RECOVERING and SERVICE). -/
def applyRepairs (s : State) : State := (s.rim.repairs.filter (fun e => !e.inForce)).foldl applyRepair s

/-- A row enters the repair list (10 R288). -/
def repairRow (s : State) (sl : Slice) (row : Nat) : State :=
  if s.rim.repairs.any (fun e => e.stack = sl.val && e.row = row) then s
  else if 4096 ≤ s.rim.repairs.length then raiseMc s sl .stackRepairExhausted (names [row])
  else
    let s := { s with rim := { s.rim with repairs := s.rim.repairs ++ [⟨sl.val, row, false⟩] } }
    if s.life.st == .selfTest || s.life.st == .recovering || s.life.st == .service then applyRepairs s else s

/-- A corrected error of a burst (10 R286, R288, R321). -/
def stackCorrected (s : State) (sl : Slice) (burst : Nat) : State :=
  let row := Config.stackRow (burst * 64)
  let m := (s.slice sl).mc
  let tracked := (Tab.find m.rowCe row).isSome || m.rowCe.length < 1024
  let n := Tab.at m.rowCe row 0 + 1
  let s := s.modMc sl (fun m => { m with
    ceCorrected := sat64 m.ceCorrected 1, rowCe := if tracked then Tab.put m.rowCe row n else m.rowCe, ceRaised := true })
  let s := if m.ceRaised then s else raiseMc s sl .stackCorrected (names [burst])
  if tracked && s.rim.ceRowLimit ≤ n then repairRow s sl row else s

/-- An uncorrectable error of a burst, met by a reader or by scrub (10 R286, R288): it stays in the stack. -/
def stackUncorrectable (s : State) (sl : Slice) (burst : Nat) (cls : EvClass) : State :=
  let s := s.modMc sl (fun m => { m.spoil burst with ueDetected := sat64 m.ueDetected 1 })
  let s := raiseAs s (64 + sl.val / 8) Ev.stackUncorrectable.code cls (plocRim sl 0) (names [burst])
  repairRow s sl (Config.stackRow (burst * 64))

/-- A read of a stack: its bytes, and whether a burst of it is uncorrectable, which every read reports (10 R286). -/
def readStack (s : State) (sl : Slice) (loc n : Nat) : List Byte × Bool × State :=
  let met := (bursts loc n).filter (fun b => (s.slice sl).mc.bad.contains b)
  let s := met.foldl (fun t b => stackUncorrectable t sl b .contained) s
  (Mem.bytes (s.slice sl).mc.mem loc n, !met.isEmpty, s.modMc sl (fun m => { m with readBytes := sat64 m.readBytes n }))

/-- A write of a stack. -/
def writeStack (s : State) (sl : Slice) (loc : Nat) (bs : List Byte) : State :=
  s.modMc sl (fun m => m.bad.foldl (fun m b => m.rewrite loc bs.length b)
    { m with mem := Mem.store m.mem loc bs, writeBytes := sat64 m.writeBytes bs.length })

/-! ### Plan space -/

/-- The region of a kind. -/
def State.region (s : State) (kind : Nat) : Option Region := s.regions.find? (fun r => r.kind == kind)

/-- The first plan address of the region of a kind; 0 where the table has none. -/
def State.regionBase (s : State) (kind : Nat) : Nat := ((s.region kind).map (fun r => r.base * regUnit)).getD 0

/-- Where a plan address lies, as a slice and a local offset. -/
def planPlace (s : State) (a : Nat) : Slice × Nat :=
  match mapPlan s.regions a with
  | some x => (sliceOf x.1, x.2.1)
  | none => (0, 0)

/-- A read of plan space within one granule, and whether a burst of it is uncorrectable. -/
def planRead (s : State) (a n : Nat) : List Byte × Bool × State :=
  let (sl, loc) := planPlace s a
  readStack s sl loc n

/-- A write of plan space within one granule. -/
def planWrite (s : State) (a : Nat) (bs : List Byte) : State :=
  let (sl, loc) := planPlace s a
  writeStack s sl loc bs

/-- The region that holds a local offset of the stacks (10 R290: a region takes the same offsets in each). -/
def regionOfLocal (s : State) (loc : Nat) : Option Region :=
  s.regions.find? (fun r => r.kind != 0 && r.base * 4096 ≤ loc && loc < (r.base + r.size) * 4096)

/-- Steward memory written (10 R294), a byte at a time by its place. -/
def stewardWrite (s : State) (a : Nat) (bs : List Byte) : State :=
  (List.range ((bs.length + 4095) / 4096)).foldl (fun t i =>
    let x := mapSteward (a + 4096 * i)
    writeStack t (sliceOf x.1) x.2.1 ((bs.drop (4096 * i)).take 4096)) s

/-! ### Parameters, stripes and shards (10 R295-R297) -/

/-- n / d rounded up. -/
def ceilDiv (n d : Nat) : Nat := (n + d - 1) / max 1 d

/-- T: the stripes of the job (10 R295). -/
def stripesOf (pTotal : Nat) : Nat := ceilDiv (ceilDiv pTotal 2048) 32

/-- T of the loaded plan. -/
def State.stripes (s : State) : Nat := stripesOf s.red.pTotal

/-- M: the modules of the torus. -/
def State.modules (s : State) : Nat := max 1 s.torus.modules

/-- U: the owned stripes (10 R296). -/
def State.ownedStripes (s : State) : Nat := ceilDiv s.stripes s.modules

/-- The module's own shard (01 R44); 0 for a single module. -/
def State.shard (s : State) : Nat := if s.modules = 1 then 0 else s.torus.shard

/-- The stack of a parameter block (10 R295). -/
def blockSlice (j : Nat) : Slice := sliceOf (j / 64)

/-- The stripe of a parameter block. -/
def blockStripe (j : Nat) : Nat := j / 2048

/-- Whether a block is a padding block (11 R330). -/
def State.padding (s : State) (j : Nat) : Bool := s.red.pTotal ≤ 32 * j

/-- The 64 blocks of a stripe in a stack. -/
def stripeBlocks (t : Nat) (sl : Slice) : List Nat := (List.range 64).map (fun i => (32 * t + sl.val) * 64 + i)

/-- The shard that owns a stripe. -/
def State.ownerOf (s : State) (t : Nat) : Nat := t % s.modules

/-- Whether the module owns a block. -/
def State.ownsBlock (s : State) (j : Nat) : Bool := s.ownerOf (blockStripe j) == s.shard

/-- The owned blocks of a stack in ascending order, of the stripes that exist. -/
def ownedBlocks (s : State) (sl : Slice) : List Nat :=
  ((List.range s.ownedStripes).map (fun u => s.shard + u * s.modules)).flatMap
    (fun t => if t < s.stripes then stripeBlocks t sl else [])

/-- The plan address of a block's mantissas, of its header and of its replica weights (10 R295). -/
def mantAddr (s : State) (j : Nat) : Nat := s.regionBase 2 + 64 * j
/-- The plan address of a block's header. -/
def hdrAddr (s : State) (j : Nat) : Nat := s.regionBase 3 + 2 * j
/-- The plan address of a block's replica weights. -/
def replicaAddr (s : State) (j : Nat) : Nat := s.regionBase 1 + 64 * j

/-- The region kind of the owned slot that the commit record names slot A, or of slot B (10 R297, R315). -/
def ownedKind (s : State) (slotB : Bool) : Nat := if (s.commit.ptr = 1) != slotB then 5 else 4

/-- The plan address of a block's record in a compound region (10 R297): `sub` is 0 W, 1 M1, 2 M2, 3 R. -/
def recordAddr (s : State) (kind sub j : Nat) : Nat :=
  let u := blockStripe j / s.modules
  let i := j % 64
  let sl := j / 64 % 32
  let b := s.regionBase kind
  if sub = 3 then b + 3 * s.ownedStripes * regUnit + (32 * u + sl) * 2048 + 32 * i
  else b + sub * s.ownedStripes * regUnit + (32 * u + sl) * 4096 + 64 * i

/-- The bytes of a block's record. -/
def recordLen (sub : Nat) : Nat := if sub = 3 then 32 else 64

/-! ### Gradient blocks (05 R142, 10 R295) -/

/-- A gradient block as it stands, and whether a burst of it is uncorrectable. -/
def readBlock (s : State) (j : Nat) : G16 × Bool × State :=
  let (m, bad1, s) := planRead s (mantAddr s j) 64
  let (h, bad2, s) := planRead s (hdrAddr s j) 2
  (G16.ofBytes (BitVec.ofNat 16 (leNat h)) m, bad1 || bad2, s)

/-- A gradient block as the controller that has written it holds it. -/
def peekBlock (s : State) (j : Nat) : G16 :=
  let bytes (a n : Nat) : List Byte := let x := planPlace s a; Mem.bytes (s.slice x.1).mc.mem x.2 n
  G16.ofBytes (BitVec.ofNat 16 (leNat (bytes (hdrAddr s j) 2))) (bytes (mantAddr s j) 64)

/-- A gradient block written. -/
def writeBlock (s : State) (j : Nat) (g : G16) : State :=
  planWrite (planWrite s (mantAddr s j) g.bytes) (hdrAddr s j) (leBytes 2 g.header.toNat)

/-! ### Buckets (11 R327-R331) -/

/-- The bucket of a block. -/
def bucketOf (s : State) (j : Nat) : Option Nat :=
  s.red.buckets.findIdx? (fun b => b.first ≤ blockStripe j && blockStripe j ≤ b.last)

/-- The blocks of a bucket in a stack. -/
def bucketBlocks (s : State) (b : Nat) (sl : Slice) : List Nat :=
  match s.red.buckets[b]? with
  | none => []
  | some e => (List.range (e.last + 1 - e.first)).flatMap (fun i => stripeBlocks (e.first + i) sl)

/-- The operations that complete a slice's share of a bucket (11 R330). -/
def bucketLimit (s : State) (b : Nat) (sl : Slice) : Nat :=
  match s.red.buckets[b]? with
  | none => 0
  | some e => e.contrib * ((bucketBlocks s b sl).filter (fun j => !s.padding j)).length

/-- Whether a bucket is past OPEN at a slice (11 R331). -/
def bucketComplete (s : State) (b : Nat) (sl : Slice) : Bool :=
  bucketLimit s b sl ≤ Tab.at (s.slice sl).red.counts b 0

/-- Whether a bucket is LAUNCHED or REDUCED at a slice. -/
def bucketLaunched (s : State) (b : Nat) (sl : Slice) : Bool := b < (s.slice sl).red.launched

/-! ### Rings (11 R333, R334) -/

/-- The direction of a stack on the rings: +1 where it is even. -/
def ringUp (sl : Slice) : Bool := sl.val % 2 == 0

/-- A place one further in a direction on a ring of n. -/
def ringNext (up : Bool) (c n : Nat) : Nat := if up then (c + 1) % max 1 n else (c + n - 1) % max 1 n

/-- Hops from a to b in a direction on a ring of n. -/
def ringDist (up : Bool) (a b n : Nat) : Nat := if up then (b + n - a) % max 1 n else (a + n - b) % max 1 n

/-- The X owner of a stripe. -/
def State.xOwner (s : State) (t : Nat) : Nat := t % max 1 s.torus.x

/-- The Y owner of a stripe. -/
def State.yOwner (s : State) (t : Nat) : Nat := t % s.modules / max 1 s.torus.x

/-- The bundle of a direction on the X ring or the Y ring. -/
def ringBundle (yRing up : Bool) : Bundle :=
  match yRing, up with
  | false, true => .xp
  | false, false => .xm
  | true, true => .yp
  | true, false => .ym

/-- A reduction frame's content (11 R337). -/
def reduceFrame (s : State) (kind step hop origin block sub : Nat) (cls : LClass) (headers : List W16)
    (bytes : List Byte) (count : Nat) : Content :=
  { blankContent with
    ftype := .reduce, cls := cls, kind := kind, repoch := s.red.epoch, step := step % 65536, hop := hop, origin := origin,
    count := count, block := block, sub := sub, headers := headers,
    bytes := bytes ++ List.replicate (256 - bytes.length) 0 }

/-- A block sent on a ring from a slice (11 R333, R334). -/
def sendRing (s : State) (sl : Slice) (yRing : Bool) (hop j : Nat) (g : G16) : State :=
  sendBundle s (ringBundle yRing (ringUp sl)) (sl.val / 2)
    (reduceFrame s (if yRing then 2 else 1) s.commit.step hop s.shard j 0 .vermilion [g.header] g.bytes 0)

/-- A CHECK or TRACE frame sent towards the owner of a block (11 R343, R346, 12 R379, R380). -/
def sendToOwner (s : State) (kind hop j : Nat) (g : G16) : State :=
  let coord := s.torus.coordOf (s.ownerOf (blockStripe j))
  match nextHop s.torus (coord % 32) (coord / 32) with
  | none => s
  | some b => sendBundle s b j (reduceFrame s kind s.commit.step hop s.shard j 0 .ash [g.header] g.bytes 0)

/-- Whether a block is sampled in the step (11 R342). -/
def sampled (s : State) (j : Nat) : Bool :=
  let h := (j % 2 ^ 32 * 0x9E3779B1 + s.commit.step % 2 ^ 32 * 0x85EBCA6B) % 2 ^ 32
  1 < s.modules && !s.padding j && (h < 2 ^ 32 / max 1 s.red.divisorStep || s.red.traces.contains j)

/-- The sampled blocks that a slice owns. -/
def ownedSampled (s : State) (sl : Slice) : List Nat := (ownedBlocks s sl).filter (sampled s)

/-! ### The update engines' sum of squares (11 R347) -/

/-- The exact sum of a block's squares. -/
def blockSquares (g : G16) : Num :=
  (List.range 32).foldl (fun a i => Num.add a (Num.mul (g.num i) (g.num i))) (.fin false 0 0)

/-- A block added into an update engine's sum and flags. -/
def Ue.addBlock (u : Ue) (g : G16) : Ue :=
  { u with
    sumsq := f64of (Num.add (f64num u.sumsq) (blockSquares g)), blocks := u.blocks + 1,
    nonfinite := u.nonfinite || g.nonfinite, sat := u.sat || g.sat, sovf := u.sovf || g.sovf }

/-- Whether an update engine goes on: no fault has stopped it and it has met no poisoned input (10 R314). -/
def Ue.goes (u : Ue) : Bool := !u.stopped && u.poisonAt.isNone

/-- An update engine adds a block in phase N (10 R320, 11 R347): of one that comes poisoned it adds nothing (10 R314). -/
def sumBlock (s : State) (sl : Slice) (j : Nat) (g : G16) (bad : Bool) : State :=
  if !(s.slice sl).ue.goes then s
  else
    let s := s.modUe sl (fun u => { u with phase := if u.phase = 0 then 1 else u.phase, stripe := blockStripe j / s.modules })
    if bad then s.modUe sl (fun u => { u with poisonAt := some j }) else s.modUe sl (fun u => u.addBlock g)

/-- Whether an update engine has added all its owned blocks (11 R347). -/
def ueDone (s : State) (sl : Slice) : Bool :=
  (s.slice sl).ue.goes && (ownedBlocks s sl).all (fun j => (s.slice sl).red.final.contains j)

/-- The engine leaves phase N when it is done. -/
def endSum (s : State) (sl : Slice) : State :=
  if ueDone s sl then s.modUe sl (fun u => { u with phase := if u.phase = 1 then 0 else u.phase }) else s

/-- A final block is handed to its update engine (11 R334, R347); in ordered mode the engine reads and sums them once all
are final. -/
def finalize (s : State) (sl : Slice) (j : Nat) : State :=
  if (s.slice sl).red.final.contains j then s
  else
    let s := s.modRedSl sl (fun r => { r with final := r.final ++ [j] })
    if !s.mesh.ordered then endSum (sumBlock s sl j (peekBlock s j) false) sl
    else
      let owned := ownedBlocks s sl
      if owned.all (fun i => (s.slice sl).red.final.contains i) then
        endSum (owned.foldl (fun t i => let (g, bad, t) := readBlock t i; sumBlock t sl i g bad) s) sl
      else s

/-! ### Slots and copies -/

/-- Whether the last bucket is REDUCED at every slice. -/
def allReduced (s : State) : Bool :=
  s.red.buckets != [] && allSlices.all (fun sl => (List.range s.red.buckets.length).all (fun b =>
    (s.slice sl).red.reduced.contains b))

/-- Whether a reduction frame is of an old epoch or step (11 R338). -/
def staleFrame (s : State) (c : Content) (steps : List Nat) : Bool :=
  c.repoch != s.red.epoch || !steps.any (fun x => x % 65536 == c.step)

/-- A stale frame dropped and counted. -/
def dropStale (s : State) (port : Slice) (k : Nat) : State :=
  (dropLanded s port k).modRed (fun r => { r with staleDropped := sat64 r.staleDropped 1 })

/-- The blocks of a frame with their headers and bytes. -/
def frameBlocks (c : Content) : List (Nat × G16) :=
  (List.range (c.count % 4 + 1)).map (fun i => (c.block + i, G16.ofBytes (c.headers.getD i 0) ((c.bytes.drop (64 * i)).take 64)))

/-- A contribution at an all-wait point, or the moment its wait begins (11 R339, R340): 0 ring hop, 1 check completion,
2 fused gather, 3 buddy acknowledgement, 4 replica arrival, 5 the STATE gather of a recovery (15 R457). -/
def noteProgress (s : State) (point : Fin 6) : State :=
  s.modRun (fun x => { x with progress := vset x.progress point s.time.ticks })

end Sys2Proof.Machine
end

