-- ==== Sys2Proof/Machine/Rim.lean ====
section
/-! DEFINITION. Machine/Rim.lean: the meanings of the rim memory's commands (10): MEM parts, stack errors and repair,
remote accumulate, and the optimizer entries. A command whose condition the state does not meet does not come about. -/

namespace Sys2Proof.Machine

/-! ### Flits that wait at a rim port -/

/-- The 64-byte words of a gradient block: its mantissas' and its header's. -/
def blockWords (s : State) (j : Nat) : List Nat :=
  [(planPlace s (mantAddr s j)).2 / 64, (planPlace s (hdrAddr s j)).2 / 64]

/-- The 64-byte words of a stack or a rim buffer that a flit's operation touches (10 R302). -/
def flitWords (s : State) (f : Flit) : List Nat :=
  match f.kind with
  | .rimWrite | .rimAdd => (List.range f.headers.length).flatMap (fun i => blockWords s (f.block + i))
  | .memRead => bursts f.loc f.len
  | .memWrite => bursts f.loc f.payload.length
  | _ => []

/-- Whether an operation that arrived earlier touches one of a flit's words (10 R302): a flit before it at the port, or an
operation that the slice's adder still holds. -/
def wordHeld (s : State) (port : Nat) (before : List Flit) (f : Flit) : Bool :=
  let ws := flitWords s f
  let ops := if 64 ≤ port && port < 96 && (f.kind == .memRead || f.kind == .memWrite) then
    let r := (s.slice (sliceOf (port - 64))).red; r.queue ++ r.reorder else []
  before.any (fun x => (flitWords s x).any (fun w => ws.contains w))
    || ops.any (fun o => (blockWords s o.block).any (fun w => ws.contains w))

/-- The first flit of some kinds that waits at a port, with the others. Operations on one 64-byte word are performed in the
order in which they arrived (10 R302): none where an earlier one on a word of it waits. -/
def rimTake (s : State) (port : Nat) (kinds : List FlitKind) : Option (Flit × State) :=
  let q := Tab.at s.mesh.rimLanding port []
  match q.findIdx? (fun f => kinds.contains f.kind) with
  | none => none
  | some i => match q[i]? with
    | none => none
    | some f =>
      let q' := q.eraseIdx i
      if wordHeld s port (q.take i) f then none
      else some (f, { s with mesh := { s.mesh with
        rimLanding := if q'.isEmpty then Tab.del s.mesh.rimLanding port else Tab.put s.mesh.rimLanding port q' } })

/-! ### Errors of the stacks (10 R284, R286, R288) -/

/-- Whether a local offset lies in persistent state (10 R292). -/
def persistentLocal (s : State) (loc : Nat) : Bool :=
  match regionOfLocal s loc with
  | none => false
  | some r => r.kind = 1 || r.kind = 8 || r.kind = ownedKind s false
      || ((r.kind = 6 || r.kind = 7) && r.kind = 6 + s.rim.buddyHeld % 2)

/-- STACK_TEMP_READ (10 R284): the refresh rate doubles from 85 °C and returns to normal below 80 °C. -/
def execStackTempRead (sl : Slice) (temp : Nat) (s : State) : Out :=
  if !s.powered then .next s
  else
    let hot := (s.slice sl).mc.hot
    let s := s.modMc sl (fun m => { m with temp := min temp 255, hot := if 85 ≤ temp then true else if temp < 80 then false else m.hot })
    .next (if 85 ≤ temp && !hot then raiseMc s sl .stackHot (names [temp]) else s)

/-- ECS_READ (10 R282): the on-die error-check-and-scrub results as read. -/
def execEcsRead (sl : Slice) (corrected : Nat) (s : State) : Out :=
  .next (if s.powered then s.modMc sl (fun m => { m with ecsCorrected := corrected }) else s)

/-- STACK_SCRUB (10 R286): patrol scrub reads a burst; an uncorrectable one is CONTAINED in a persistent region. -/
def execStackScrub (sl : Slice) (burst : Nat) (e : Ecc) (s : State) : Out :=
  if 96 * 2 ^ 24 ≤ burst || !s.powered then .next s
  else
    let cls : EvClass := if persistentLocal s (burst * 64) then .contained else .notice
    if e == .double || (s.slice sl).mc.bad.contains burst then .next (stackUncorrectable s sl burst cls)
    else if e == .single then .next (stackCorrected s sl burst)
    else .next s

/-- STACK_ROW_WINDOW_END (10 R288): the rows' counts start again. -/
def execStackRowWindowEnd (s : State) : Out :=
  .next (allSlices.foldl (fun t sl => t.modMc sl (fun m => { m with rowCe := [], ceRaised := false })) s)

/-- STACK_FAILED (10 R283): a channel loses training or answers nothing in time. -/
def execStackFailed (sl : Slice) (channels : BitVec 32) (s : State) : Out :=
  .next (if !s.powered then s
    else raiseMc (s.modMc sl (fun m => { m with link := 2, failed := m.failed ||| channels })) sl .stackFailed
      (names [channels.toNat]))

/-! ### MEM parts (10 R299, R300) -/

/-- Whether a controller refuses a part (10 R300): the steward region, or a write outside SCRATCH, from a skillet. A STAGE
read reaches its window in the steward region (R294). -/
def partRefused (s : State) (f : Flit) (write : Bool) : Bool :=
  f.src < 64 && ((95 * 2 ^ 30 ≤ f.loc && !f.chk)
    || (write && !((regionOfLocal s f.loc).any (fun r => r.kind == 9))))

/-- LADLE_POISON_FORWARDED for the ladle that a poisoned read answers (07 R210). -/
def notePoisonRead (s : State) (f : Flit) : State :=
  if h : f.src < 64 then
    let p : Pid := ⟨f.src, h⟩
    let l := flitLadle f
    if (s.ld p l).poisonRaised then s
    else raiseSk (s.modLd p l (fun d => { d with poisonRaised := true })) p (8 + l.val) .ladlePoisonForwarded
      (names (((s.ld p l).portions.find? (fun x => x.tag == f.tag)).map (fun x => [x.listId, x.block]) |>.getD [])) 
  else s

/-- The DATA flits of a part, in address order (10 R299): `poison` lists the poisoned granules by their place in the
part. -/
def sendDataFlits (s : State) (port : Nat) (f : Flit) (bs : List Byte) (poison : List Nat) : State :=
  (pieces bs).foldl (fun t e => inject t { blankFlit with
    cls := f.cls, kind := .memData, src := port, dest := f.src, ladle := f.ladle, tag := f.tag, part := f.part + e.1,
    len := e.2.length, payload := e.2,
    poison := (poison.filter (fun g => e.1 ≤ 8 * g && 8 * g < e.1 + e.2.length)).map (fun g => g - e.1 / 8) }) s

/-- A READ part of a stack served (10 R286, R299): `errs` are the errors that the read meets, by burst. -/
def readPart (s : State) (sl : Slice) (f : Flit) (errs : List (Nat × Bool)) : State :=
  let bs := bursts f.loc f.len
  let s := errs.foldl (fun t e => if !bs.contains e.1 then t
    else if e.2 then t.modMc sl (fun m => m.spoil e.1)
    else stackCorrected t sl e.1) s
  let bad := bs.filter (fun b => (s.slice sl).mc.bad.contains b)
  let (data, _, s) := readStack s sl f.loc f.len
  let (lat, s) := draw s
  let s := s.modMc sl (fun m => { m with readLatMax := max m.readLatMax (lat % 2 ^ 64) })
  let poison := bad.flatMap (fun b => (List.range 8).filterMap (fun i =>
    let a := b * 64 + 8 * i
    if f.loc ≤ a && a < f.loc + f.len then some ((a - f.loc) / 8) else none))
  let s := if bad.isEmpty then s else notePoisonRead s f
  sendDataFlits s (64 + sl.val) f data poison

/-- A rim buffer changed. -/
def State.modBuffer (s : State) (i : Fin 4) (f : RimBuffer → RimBuffer) : State :=
  { s with rim := { s.rim with buffers := vmod s.rim.buffers i f } }

/-- A pantry event of a rim buffer (10 R303). -/
def raiseBuffer (s : State) (i : Fin 4) (ev : Ev) (g : Nat) : State := raise s (64 + i.val) ev (plocUnit (64 + i.val) 0x20) (names [g])

/-- An error of a granule of a rim buffer (10 R303, 06 R180): a single-bit error is corrected, a double-bit error poisons
the granule. DESIGN CHOICE, log 66: the first corrected error of a buffer in each window of 06 R182 is reported. -/
def bufferError (s : State) (i : Fin 4) (g : Nat) (double : Bool) : State :=
  if double then s.modBuffer i (fun b => { b with poison := insertNat b.poison g })
  else if (vget s.rim.buffers i).ceRaised then s
  else raiseBuffer (s.modBuffer i (fun b => { b with ceRaised := true })) i .pantryCorrected g

/-- Scrub of a rim buffer (10 R303, 06 R181): a double-bit error poisons the granule and raises PANTRY_UNCORRECTABLE. -/
def scrubBuffer (s : State) (i : Fin 4) (g : Nat) (e : Ecc) : State :=
  if !s.powered || 2 ^ 25 ≤ g then s
  else match e with
    | .clean => s
    | .single => bufferError s i g false
    | .double => raiseBuffer (bufferError s i g true) i .pantryUncorrectable g

/-- SCRUB_ACCESS (06 R181, 10 R303): `node` is a skillet 0-63 or a rim buffer 64-67. -/
def execScrubAccess (node : Fin 68) (word : Nat) (granule : Fin 64) (e : Ecc) (passDone : Bool) (s : State) : Out :=
  .next (if h : node.val < 64 then scrubPantry s ⟨node.val, h⟩ word granule e passDone
    else scrubBuffer s ⟨node.val - 64, by omega⟩ (word * 64 + granule.val) e)

/-- A READ part of a rim buffer (10 R303): its code corrects and detects as a pantry's does, and every read of a poisoned
granule raises POISON_READ (06 R180). -/
def readBuffer (s : State) (i : Fin 4) (f : Flit) (errs : List (Nat × Bool)) : State :=
  let inPart (g : Nat) : Bool := f.loc / 8 ≤ g && 8 * g < f.loc + f.len
  let s := (errs.filter (fun e => inPart e.1)).foldl (fun t e => bufferError t i e.1 e.2) s
  let b := vget s.rim.buffers i
  let bad := b.poison.filter inPart
  let s := bad.foldl (fun t g => raiseBuffer t i .poisonRead g) s
  let s := if bad.isEmpty then s else notePoisonRead s f
  sendDataFlits s (96 + i.val) f (Mem.bytes b.mem f.loc f.len) (bad.map (fun g => g - f.loc / 8))

/-- The DONE of a part (10 R299): a write answered, or a read part refused with its length. -/
def sendDone (s : State) (port : Nat) (f : Flit) (len status : Nat) : State :=
  inject s { blankFlit with
    cls := f.cls, kind := .memDone, src := port, dest := f.src, ladle := f.ladle, tag := f.tag, part := f.part, len := len,
    status := status }

/-- A part refused by a controller and counted (10 R300). -/
def refusePart (s : State) (sl : Slice) : State := s.modMc sl (fun m => { m with refused := sat64 m.refused 1 })

/-- MEM_READ (10 R299, R300): `sl` is a stack 0-31 or a rim buffer 32-35. -/
def execMemRead (sl : Fin 36) (errs : List (Nat × Bool)) (s : State) : Out :=
  match rimTake s (64 + sl.val) [.memRead, .memWrite] with
  | none => .next s
  | some (f, t) =>
    if f.kind != .memRead then .next s
    else if h : sl.val < 32 then
      let st : Slice := ⟨sl.val, h⟩
      if partRefused t f false then .next (sendDone (refusePart t st) (64 + sl.val) f f.len stDescRange)
      else .next (readPart t st f errs)
    else .next (readBuffer t (Fin.ofNat 4 (sl.val - 32)) f errs)

/-- MEM_WRITE (10 R299, R300): the flits of a part are written in turn; the last is answered with one DONE. -/
def execMemWrite (sl : Fin 36) (s : State) : Out :=
  match rimTake s (64 + sl.val) [.memRead, .memWrite] with
  | none => .next s
  | some (f, t) =>
    if f.kind != .memWrite then .next s
    else if h : sl.val < 32 then
      let st : Slice := ⟨sl.val, h⟩
      let refused := partRefused t f true
      let t := if refused then (if f.last then refusePart t st else t)
        else (writeStack t st f.loc f.payload).modMc st (fun m => { m with
          bad := (f.poison.map (fun g => (f.loc + 8 * g) / 64)).foldl insertNat m.bad,
          rewrites := m.rewrites.filter (fun e => !(f.poison.map (fun g => (f.loc + 8 * g) / 64)).contains e.1) })
      .next (if f.last then sendDone t (64 + sl.val) f 0 (if refused then stDescRange else 0) else t)
    else
      let i : Fin 4 := Fin.ofNat 4 (sl.val - 32)
      let t := t.modBuffer i (fun b =>
        { b with
          mem := Mem.store b.mem f.loc f.payload,
          poison := (f.poison.map (fun g => f.loc / 8 + g)).foldl insertNat
            (b.poison.filter (fun g => !(f.loc ≤ 8 * g && 8 * g + 8 ≤ f.loc + f.payload.length))) })
      .next (if f.last then sendDone t (64 + sl.val) f 0 0 else t)

/-! ### Remote accumulate (10 R304-R307, 11 R330, R332) -/

/-- A gradient block read for an adder or a link. -/
def takeBlock (s : State) (j : Nat) : G16 × State :=
  let (g, _, s) := readBlock s j
  (g, s)

/-- An operation applied to its block (10 R304, 11 R326). -/
def applyRa (s : State) (sl : Slice) (o : RaOp) : State :=
  if !o.add then
    (writeBlock s o.block o.g).modMc sl (fun m => { m with raWrites := sat64 m.raWrites 1 })
  else
    let (old, s) := takeBlock s o.block
    let s := writeBlock s o.block (G16.add old o.g)
    let sat := b2n (G16.newlySat old o.g)
    let s := s.modMc sl (fun m => { m with
      raAdds := sat64 m.raAdds 1, raRaises := sat64 m.raRaises (b2n (G16.raised old o.g)),
      raSaturated := sat64 m.raSaturated sat })
    s.modRed (fun r => { r with blocksSaturated := sat64 r.blocksSaturated sat })

/-- An operation given to the adder (10 R305): a write whose block has nothing queued is stored at once. -/
def queueRa (s : State) (sl : Slice) (o : RaOp) : State :=
  if !o.add && !(s.slice sl).red.queue.any (fun q => q.block = o.block) then applyRa s sl o
  else s.modRedSl sl (fun r => { r with queue := r.queue ++ [o] })

/-- Operations in ascending source, each source's in their order (11 R356). -/
def insertBySrc (o : RaOp) : List RaOp → List RaOp
  | [] => [o]
  | x :: r => if o.src < x.src then o :: x :: r else x :: insertBySrc o r

/-- A block's held operations in the order of ordered mode: the writes, then the adds (11 R356). -/
def orderedOps (ops : List RaOp) : List RaOp :=
  (ops.filter (fun o => !o.add)).foldl (fun a o => insertBySrc o a) []
    ++ (ops.filter (fun o => o.add)).foldl (fun a o => insertBySrc o a) []

/-- One skillet-sourced operation (11 R330, R332, R356): a padding block's is discarded; one for a bucket that is not OPEN
raises BUCKET_OVERRUN; in ordered mode it is held until CONTRIB of its block have come. -/
def receiveRa (s : State) (sl : Slice) (o : RaOp) : State :=
  if s.padding o.block then s
  else match bucketOf s o.block with
    | none => s
    | some b =>
      if bucketComplete s b sl then
        raiseMc (s.modRed (fun r => { r with overruns := sat64 r.overruns 1 })) sl .bucketOverrun (names [s.commit.step, b])
      else
        let s := s.modRedSl sl (fun r => { r with counts := Tab.put r.counts b (Tab.at r.counts b 0 + 1) })
        let (w, s) := draw s
        let s := s.modMc sl (fun m => { m with blockWait := sat64 m.blockWait w })
        if !s.mesh.ordered then queueRa s sl o
        else
          let s := s.modRedSl sl (fun r => { r with reorder := r.reorder ++ [o] })
          let mine := (s.slice sl).red.reorder.filter (fun q => q.block = o.block)
          if ((s.red.buckets[b]?).map (fun e => e.contrib)).getD 0 ≤ mine.length then
            let s := s.modRedSl sl (fun r => { r with reorder := r.reorder.filter (fun q => q.block != o.block) })
            (orderedOps mine).foldl (fun t q => queueRa t sl q) s
          else s

/-- The operations that a RIM flit carries. -/
def flitOps (f : Flit) (add : Bool) : List RaOp :=
  (List.range f.headers.length).map (fun i =>
    ⟨f.block + i, add, f.src, G16.ofBytes (f.headers.getD i 0) ((f.payload.drop (64 * i)).take 64)⟩)

/-- The next RIM flit of a slice, if it is of a kind and the reorder store has room for it (11 R356). -/
def rimOp (s : State) (sl : Slice) (add : Bool) : State :=
  match rimTake s (64 + sl.val) [.rimWrite, .rimAdd] with
  | none => s
  | some (f, t) =>
    if (f.kind == .rimAdd) != add then s
    else if s.mesh.ordered && 4000000 < (s.slice sl).red.reorder.length + f.headers.length then s
    else noteProgress ((flitOps f add).foldl (fun t o => receiveRa t sl o) t) 0

/-- RIM_WRITE (10 R304). -/
def execRimWrite (sl : Slice) (s : State) : Out := .next (rimOp s sl false)
/-- RIM_ADD (10 R304). -/
def execRimAdd (sl : Slice) (s : State) : Out := .next (rimOp s sl true)

/-- The first queued operation on a block leaves the adder's queue. -/
def takeRa (s : State) (sl : Slice) (block : Nat) : Option (RaOp × State) :=
  let q := (s.slice sl).red.queue
  match q.findIdx? (fun o => o.block = block) with
  | none => none
  | some i => (q[i]?).map (fun o => (o, s.modRedSl sl (fun r => { r with queue := r.queue.eraseIdx i })))

/-- RA_FAULT (10 R307): parity in the adder, so the block is not written back. -/
def execRaFault (sl : Slice) (block : Nat) (s : State) : Out :=
  match takeRa s sl block with
  | none => .next s
  | some (_, s) => .next (raiseMc s sl .raFault (names [block]))

/-! ### Optimizer entries (10 R312, R313, R322, R323) -/

/-- The settings with one entry at a value (10 R322): 0x01 to 0x17 are the sub-indices of 5010, 0x100 + i is CLASS_RANGE i. -/
def Optim.set (o : Optim) (key n : Nat) : Optim :=
  let f : W32 := BitVec.ofNat 32 n
  let i : Fin 4 := Fin.ofNat 4 key
  match key with
  | 0x01 => { o with rule := n }
  | 0x02 => { o with lrPeak := f }
  | 0x03 => { o with warmup := n }
  | 0x04 => { o with decayKind := n }
  | 0x05 => { o with decaySteps := n }
  | 0x06 => { o with lrFloor := f }
  | 0x07 => { o with beta1 := f }
  | 0x08 => { o with beta2 := f }
  | 0x09 => { o with eps := f }
  | 0x0A => { o with weightDecay := f }
  | 0x0B => { o with momentum := f }
  | 0x0C => { o with nesterov := n = 1 }
  | 0x0D => { o with gscale := f }
  | 0x0E => { o with meanByTokens := n = 1 }
  | 0x10 | 0x11 | 0x12 | 0x13 => { o with lrMul := vset o.lrMul i f }
  | 0x14 | 0x15 | 0x16 | 0x17 => { o with wdMul := vset o.wdMul i f }
  | _ => { o with classes := vset o.classes (Fin.ofNat 64 key) n }

/-- The settings with the pending set in effect (10 R313). -/
def optimPending (s : State) : Optim := s.rim.optimNext.foldl (fun o e => o.set e.1 e.2) s.rim.optim

/-- The settings that a write joins: the pending set in RUNNING (10 R313). -/
def optimBase (s : State) : Optim := if s.life.st == .running then optimPending s else s.rim.optim

/-- A checked write of an optimizer entry (10 R313): at once in READY and PAUSED, pending in RUNNING. -/
def optimPut (s : State) (key n : Nat) : Nat × State :=
  if s.life.st == .ready || s.life.st == .paused then (0, { s with rim := { s.rim with optim := s.rim.optim.set key n } })
  else if s.life.st == .running then (0, { s with rim := { s.rim with optimNext := s.rim.optimNext ++ [(key, n)] } })
  else (stWrongState, s)

/-- A status, or the write where it is 0. -/
def optimTry (s : State) (st key n : Nat) : Nat × State := if st = 0 then optimPut s key n else (st, s)

/-- ±m × 2^e as a bound. -/
def numOf (m : Nat) (e : Int) : Num := .fin false m e

/-- The status of an F32 value of at least 0 and below 1. -/
def f32Below1 (v : W32) : Nat :=
  if !(f32num v).isFin then stInconsistent
  else if Num.lt (f32num v) (numOf 0 0) then stBelow
  else if Num.lt (f32num v) (numOf 1 0) then 0 else stAbove

/-- The status of an F32 value from 0.0 to 2^e. -/
def f32Upto (v : W32) (e : Int) : Nat := f32Range v (numOf 0 0) (numOf 1 e)

/-- LR_PEAK and LR_FLOOR together (10 R322). -/
def lrStatus (v : W32) (floor peak : W32) : Nat :=
  match f32Upto v 4 with
  | 0 => if Num.lt (f32num peak) (f32num floor) then stInconsistent else 0
  | st => st

/-- 10^-30, the least EPS, as its binary32 pattern. -/
def epsMin : W32 := 0x0DA24260#32

/-- The status of a value for an entry of 5010.01 to 5010.17 (10 R322). -/
def optimStatus (o : Optim) (sub : Nat) (r : Req) : Nat :=
  let n := reqNat r
  let f := reqF32 r
  match sub with
  | 0x01 | 0x04 => natRange n 0 2
  | 0x02 => lrStatus f o.lrFloor f
  | 0x06 => lrStatus f f o.lrPeak
  | 0x07 | 0x08 | 0x0B => f32Below1 f
  | 0x09 => f32Range f (f32num epsMin) (numOf 1 0)
  | 0x0A => f32Upto f 0
  | 0x0D => f32Range f (numOf 1 (-126)) (numOf 1 127)
  | 0x10 | 0x11 | 0x12 | 0x13 | 0x14 | 0x15 | 0x16 | 0x17 => f32Upto f 4
  | 0x03 | 0x05 | 0x0C | 0x0E => 0
  | _ => stNoSub

/-- OD 5010.01 to 5010.17 (10 R322). -/
def wOptimizer (sub : Nat) (r : Req) (s : State) : Nat × State :=
  optimTry s (optimStatus (optimBase s) sub r) sub (reqNat r)

/-- OPTIMIZER_WRITE: OD 5010.01 to 5010.17. -/
def execOptimizerWrite (sub : Nat) (r : Req) (s : State) : Out := .next (serveWrite s r 0x5010 sub (wOptimizer sub))

/-- APPLY_STEP (10 R313): in RUNNING it must lie above the step counter. -/
def wApplyStep (r : Req) (s : State) : Nat × State :=
  let n := reqNat r
  if s.life.st == .running && n ≤ s.commit.step then (stBelow, s)
  else if s.life.st == .running || s.life.st == .ready || s.life.st == .paused then
    (0, { s with rim := { s.rim with applyStep := n, applySet := true } })
  else (stWrongState, s)

/-- APPLY_STEP: OD 5010.20. -/
def execApplyStep (r : Req) (s : State) : Out := .next (serveWrite s r 0x5010 0x20 wApplyStep)

/-- Whether two enabled class ranges overlap (10 R312). -/
def rangesOverlap (a b : Nat) : Bool :=
  bit a 61 && bit b 61 && bits a 59 30 ≤ bits b 29 0 && bits b 59 30 ≤ bits a 29 0

/-- CLASS_RANGE (10 R312, R323). -/
def wClassRange (i : Fin 64) (r : Req) (s : State) : Nat × State :=
  let o := optimBase s
  let n := reqNat r
  let st := if bit n 60 then stReserved
    else if bit n 61 && bits n 29 0 < bits n 59 30 then stInconsistent
    else if (List.finRange 64).any (fun k => k != i && rangesOverlap n (vget o.classes k)) then stInconsistent
    else 0
  optimTry s st (0x100 + i.val) n

/-- CLASS_RANGE_WRITE: OD 5011.00 to 5011.3F. -/
def execClassRangeWrite (i : Fin 64) (r : Req) (s : State) : Out := .next (serveWrite s r 0x5011 i.val (wClassRange i))

/-- STACK_CE_ROW_LIMIT: OD 5000.05 (10 R322). -/
def wCeRowLimit (r : Req) (s : State) : Nat × State :=
  let n := reqNat r
  accept (natRange n 2 1024) s { s with rim := { s.rim with ceRowLimit := n } }

end Sys2Proof.Machine
end

