-- ==== Sys2Proof/Machine/Links.lean ====
section
/-! DEFINITION. Machine/Links.lean: the Liale links (12): frames on a lane, replay, lane failures, the states of a port,
cartridges, discovery and the torus settings. A command whose condition the state does not meet does not come about. -/

namespace Sys2Proof.Machine

/-! ### Leaving and entering service (12 R381, R385, R386) -/

/-- The window of 2^20 bt of an instant. -/
def window20 (s : State) : Nat := s.time.count / 2 ^ 20

/-- The bay whose cartridge feeds a port (12 R389: bay 5 feeds ports 10 and 11). -/
def bayOf (n : Slice) : Fin 16 := ⟨n.val / 2, by omega⟩

/-- The ports of a bay. -/
def bayPorts (b : Fin 16) : List Slice := [⟨2 * b.val, by omega⟩, ⟨2 * b.val + 1, by omega⟩]

/-- A bay. -/
def State.bay (s : State) (b : Fin 16) : Bay := vget s.links.bays b

/-- The state with a bay changed. -/
def State.modBay (s : State) (b : Fin 16) (f : Bay → Bay) : State :=
  { s with links := { s.links with bays := vmod s.links.bays b f } }

/-- An event of a bay, raised by the steward (15 R450). -/
def raiseBay (s : State) (b : Fin 16) (ev : Ev) (data : Nat) : State := raise s 68 ev (plocBay b.val) data

/-- Whether the module is past SELF_TEST and its ports may be lit (12 R381, R394). -/
def portsAllowed (s : State) : Bool :=
  !(s.life.st == .off || s.life.st == .stewardBoot || s.life.st == .selfTest || s.life.st == .quarantined)

/-- A DISABLED port goes DOWN once it is enabled, its cartridge LIT and the module past SELF_TEST (12 R381, R378). -/
def portUp (s : State) (n : Slice) : State :=
  let p := s.port n
  if p.st == .disabled && p.enable && !p.prepared && (s.bay (bayOf n)).st == .lit && portsAllowed s && !sideUnused s.torus n then
    s.modPort n (fun p => { p with st := .down, heldReason := 0 })
  else s

/-- A port DISABLED at once, with what its lanes and stores held lost. -/
def disablePort (s : State) (n : Slice) : State := s.modPort n (fun p => { p.cleared with st := .disabled })

/-- A port DISABLED by the operator (12 R399: HELD_REASON is left at 5). -/
def operatorOff (s : State) (n : Slice) : State :=
  let s := disablePort s n
  if (s.port n).enable then s else s.modPort n (fun p => { p with heldReason := 5 })

/-- JOIN sent by a STANDBY port that is enabled (12 R385). -/
def sendJoin (s : State) (n : Slice) : State :=
  let p := s.port n
  if p.st == .standby && p.enable && !p.prepared && !p.joinSent then
    (sendNeighbour s n 5 []).modPort n (fun p => { p with joinSent := true })
  else s

/-- A port with JOIN sent and received is IN_SERVICE (12 R385). -/
def joinDone (s : State) (n : Slice) : State :=
  let p := s.port n
  if p.st == .standby && p.joinSent && p.joinGot then
    raisePort (s.modPort n (fun p => { p with st := .inService, lastSent := false, lastGot := false })) n .portUp (names [n.val])
  else s

/-- Whether a content is not a NEIGHBOUR frame. -/
def isData (c : Content) : Bool := c.ftype != .neighbour

/-- LAST is sent after the last frame that is not NEIGHBOUR (12 R386 step 3). -/
def sendLast (s : State) (n : Slice) : State :=
  let p := s.port n
  if p.st == .draining && !p.lastSent && !p.tx.any isData then
    (sendNeighbour s n 7 []).modPort n (fun p => { p with lastSent := true })
  else s

/-- A draining port that has received LAST, with all it sent acknowledged, has left service (12 R386 step 4): STANDBY, or
DISABLED where it was prepared or disabled. -/
def drainDone (s : State) (n : Slice) : State :=
  let s := sendLast s n
  let p := s.port n
  if p.st == .draining && p.lastGot && p.lastSent && p.tx.isEmpty && p.lanes.all (fun e => e.2.replay.isEmpty) then
    if p.prepared || !p.enable then operatorOff s n
    else sendJoin (s.modPort n (fun p => { p with st := .standby, joinSent := false, joinGot := false })) n
  else s

/-- A port leaves its bundle and drains (12 R386). -/
def beginDrain (s : State) (n : Slice) : State :=
  drainDone (s.modPort n (fun p => { p with st := .draining, lastSent := false, lastGot := false })) n

/-- This end wants a port out of service (12 R386 step 1); a port not in service is DISABLED at once (R381). -/
def leaveService (s : State) (n : Slice) : State :=
  match (s.port n).st with
  | .inService => beginDrain (sendNeighbour s n 6 []) n
  | .draining => s
  | _ => operatorOff s n

/-- Whether taking ports out would leave a bundle that the torus uses with no port in service (12 R386); not judged in
SERVICE. -/
def strandsBundle (s : State) (ns : List Slice) : Bool :=
  s.life.st != .service && allBundles.any (fun b =>
    let up := serviceports s b
    up.any (fun n => ns.contains n) && up.all (fun n => ns.contains n))

/-! ### Acknowledgements, credits and replay (12 R369-R371) -/

/-- An ACK taken: every kept frame up to it is released. -/
def Lane.acked (x : Lane) (ack : Nat) : Lane :=
  match x.replay.findIdx? (fun k => k.seq == ack) with
  | some i => { x with replay := x.replay.drop (i + 1) }
  | none => x

/-- A CREDIT taken: only where it advances the copy by 1 to 127. -/
def Port.credited (p : Port) (c : LClass) (credit : Nat) : Port :=
  let i := lclassIx c
  let d := (credit + 256 - vget p.taken i % 256) % 256
  if 1 ≤ d && d ≤ 127 then { p with taken := vset p.taken i (credit % 256), credits := vmod p.credits i (fun n => n + d) } else p

/-- The link word of a frame taken (12 R367): ACK, NAK and CREDIT; waiting frames go on. -/
def takeLinkWord (s : State) (n : Slice) (lane : Nat) (f : Frame) : State :=
  let s := s.modPort n (fun p =>
    let x := (p.lane lane).acked f.ack
    let p := p.setLane lane (if f.nak then { x with nakGot := true } else x)
    if f.cclass == .reservedClass then p else p.credited f.cclass f.credit)
  drainDone (pump s n) n

/-- LINK_RETRY at the first retry of a window (12 R373). -/
def noteLinkRetry (s : State) (n : Slice) (frames : Nat) : State :=
  let s := s.modPort n (fun p => { p with retries := sat64 p.retries frames })
  if (s.port n).retryWindow = some (window20 s) then s
  else raisePort (s.modPort n (fun p => { p with retryWindow := some (window20 s) })) n .linkRetry (names [n.val])

/-- A lane replays (12 R370): every unacknowledged frame is sent again; a frame that has been sent 8 times fails the lane
(R373). -/
def replayLane (s : State) (n : Slice) (lane : Nat) : State :=
  let x := (s.port n).lane lane
  let s := s.modPort n (fun p => p.setLane lane { x with nakGot := false })
  if x.replay.isEmpty then s
  else
    let s := if x.replay.any (fun k => 8 ≤ k.sent) then s
      else s.modPort n (fun p => p.setLane lane
        { x with nakGot := false, replay := x.replay.map (fun k => { k with sent := k.sent + 1 }) })
    if x.replay.any (fun k => 8 ≤ k.sent) then failPort s n else noteLinkRetry s n x.replay.length

/-- NAK_RECEIVED (12 R370). -/
def execNakReceived (port : Slice) (lane : Fin 32) (s : State) : Out :=
  if (s.port port).lit && ((s.port port).lane lane.val).nakGot then .next (replayLane s port lane.val) else .next s

/-- REPLAY_TIMEOUT (12 R370): ACK has not advanced for 4.0 µs while frames are outstanding. -/
def execReplayTimeout (port : Slice) (lane : Fin 32) (s : State) : Out :=
  if (s.port port).lit && !((s.port port).lane lane.val).replay.isEmpty then .next (replayLane s port lane.val) else .next s

/-! ### Frames received (12 R368, R369, R380, R385) -/

/-- Whether a frame carries a reserved CLASS, FTYPE, KIND or NTYPE (12 R368). -/
def reservedFrame (c : Content) : Bool :=
  c.cls == .reservedClass || c.ftype == .reservedType
    || (c.ftype == .reduce && !(1 ≤ c.kind && c.kind ≤ 9))
    || (c.ftype == .routed && !(c.kind = 1 || c.kind = 2))
    || (c.ftype == .neighbour && !(1 ≤ c.kind && c.kind ≤ 7))

/-- The coordinate that a ROUTED, CHECK or TRACE frame is for (12 R380). -/
def frameDest (s : State) (c : Content) : Option (Nat × Nat) :=
  match c.ftype with
  | .routed => some (c.destX, c.destY)
  | .reduce =>
    if c.kind = 5 || c.kind = 6 then
      let d := s.torus.coordOf (s.ownerOf (blockStripe c.block))
      some (d % 32, d / 32)
    else none
  | _ => none

/-- ROUTE_DROPPED (12 R380): counted at the port, raised once per step. -/
def dropRoute (s : State) (n : Slice) : State :=
  let s := s.modPort n (fun p => { p with routeDropped := sat64 p.routeDropped 1 })
  if s.torus.dropStep = some s.commit.step then s
  else raisePort (s.modTorus (fun t => { t with dropStep := some s.commit.step })) n .routeDropped (names [n.val])

/-- An accepted frame that is for another module (12 R380): forwarded in dimension order, or dropped at HOPS 32. -/
def forwardFrame (s : State) (n : Slice) (c : Content) (b : Bundle) : State :=
  let s := freePlace s n c.cls
  if c.ftype == .routed && 32 ≤ c.hops then dropRoute s n
  else
    let s := s.modPort n (fun p => { p with forwarded := sat64 p.forwarded 1 })
    sendBundle s b (if c.ftype == .routed then c.addr else c.block) (if c.ftype == .routed then { c with hops := c.hops + 1 } else c)

/-- An accepted frame takes its place in the landing store, or goes on to another module. -/
def landFrame (s : State) (n : Slice) (c : Content) : State :=
  let keep (s : State) : State := s.modPort n (fun p => { p with landing := p.landing ++ [c] })
  match frameDest s c with
  | none => keep s
  | some (x, y) =>
    if !s.torus.known then keep s
    else match nextHop s.torus x y with
      | none => keep s
      | some b => forwardFrame s n c b

/-- Whether a port accepts frames other than NEIGHBOUR (12 R381, R385): in service, draining, or with its JOIN sent. -/
def acceptsData (p : Port) : Bool := p.st == .inService || p.st == .draining || (p.st == .standby && p.joinSent)

/-- A discarded sequenced frame: the first one after an accepted frame brings a NAK (12 R370); how often it is repeated is
timing, a free value. -/
def noteDiscard (s : State) (n : Slice) (lane : Nat) : State :=
  let x := (s.port n).lane lane
  if x.nakDue then s
  else s.modPort n (fun p => { p.setLane lane { x with nakDue := true } with naksSent := sat64 p.naksSent 1 })

/-- A frame accepted in order on its lane. -/
def acceptFrame (s : State) (n : Slice) (lane : Nat) (f : Frame) : State :=
  let x := (s.port n).lane lane
  let (more, s) := if x.nakDue then draw s else (0, s)
  let s := s.modPort n (fun p => { p.setLane lane { x with expect := (x.expect + 1) % 256, nakDue := false } with
    framesAccepted := sat64 p.framesAccepted 1, naksSent := sat64 p.naksSent more })
  if reservedFrame f.content then
    let s := freePlace s n f.content.cls
    let s := if f.content.ftype == .reduce then s.modRed (fun r => { r with staleDropped := sat64 r.staleDropped 1 }) else s
    s.modPort n (fun p => { p with framesDiscarded := sat64 p.framesDiscarded 1 })
  else if isData f.content && !acceptsData (s.port n) then
    (freePlace s n f.content.cls).modPort n (fun p => { p with framesDiscarded := sat64 p.framesDiscarded 1 })
  else landFrame s n f.content

/-- LINK_FRAME_RECEIVED (12 R367-R371, R380): a frame on a lane of a lit port. Symbols corrected and codewords not
corrected are counted as the receiver finds them, free values. -/
def execLinkFrameReceived (port : Slice) (lane : Fin 32) (frame : Frame) (corrected crcOk : Bool) (s : State) : Out :=
  if !(s.port port).lit then .next s
  else
    let (e, s) := draw s
    let s := s.modPort port (fun p => if corrected then { p with fecCorrected := sat64 p.fecCorrected e }
      else { p with fecUncorrectable := sat64 p.fecUncorrectable (1 + e % 2) })
    let s := if crcOk then s else s.modPort port (fun p => { p with crcErrors := sat64 p.crcErrors 1 })
    let good := corrected && crcOk
    let reservedIdle := frame.content.ftype == .idle && frame.content.cls == .reservedClass
    let sequenced := frame.content.ftype != .idle && frame.content.ftype != .reservedType
    if !good then .next (if sequenced then noteDiscard s port lane.val else s)
    else
      let s := takeLinkWord s port lane.val frame
      if frame.content.ftype == .idle && !reservedIdle then .next s
      else if !sequenced then .next (s.modPort port (fun p => { p with framesDiscarded := sat64 p.framesDiscarded 1 }))
      else
        let want := ((s.port port).lane lane.val).expect
        let behind := (want + 256 - frame.seq % 256) % 256
        .next (if behind = 0 then acceptFrame s port lane.val frame
          else if behind ≤ 128 then s
          else noteDiscard s port lane.val)

/-! ### Failures and training (12 R373, R375, R381, R382) -/

/-- LANE_LOCK_LOST (12 R373): codeword lock lost for more than 10 µs. -/
def execLaneLockLost (port : Slice) (_lane : Fin 32) (s : State) : Out :=
  if (s.port port).lit then .next (failPort s port) else .next s

/-- LANE_BER_WINDOW (12 R373): the error ratio of a lane over 1 ms: above 2.4e-4 the lane fails, above BER_WARN it is
degraded. -/
def execLaneBerWindow (port : Slice) (lane : Fin 32) (ber : W32) (s : State) : Out :=
  if !(s.port port).lit then .next s
  else
    let s := s.modPort port (fun p => { p with ber := Tab.put p.ber lane.val ber })
    if Num.lt (numOf 24 0) (Num.mul (f32num ber) (numOf 100000 0)) then .next (failPort s port)
    else if !Num.lt (f32num s.torus.berWarn) (f32num ber) then .next s
    else
      let s := s.modPort port (fun p => { p with degraded := true })
      if (s.port port).degradedWindow = some (window20 s) then .next s
      else .next (raisePort (s.modPort port (fun p => { p with degradedWindow := some (window20 s) })) port .linkDegraded
        (names [port.val, lane.val]))

/-- PORT_FAILED_TIMEOUT (12 R381): 1 s after failing; a port whose cartridge has failed is DISABLED (R363). -/
def execPortFailedTimeout (port : Slice) (s : State) : Out :=
  if (s.port port).st != .failed then .next s
  else .next (s.modPort port (fun p => { p with st := if (s.bay (bayOf port)).st == .lit then .down else .disabled }))

/-- CODEWORD_LOCK (12 R381): all 32 lanes of a DOWN port hold lock. -/
def execCodewordLock (port : Slice) (s : State) : Out :=
  if (s.port port).st == .down then .next (s.modPort port (fun p => { p with st := .training })) else .next s

/-- The first bytes of the SHA-512 digest of an identity key that HELLO carries (12 R384). -/
def ownIdentity : List Byte := (Config.sha512 Config.identityKey).take 32

/-- The HELLO of this module on a port (12 R384). -/
def helloBytes (s : State) (n : Slice) : List Byte :=
  let t := s.torus
  leBytes 8 t.clusterId ++ ownIdentity ++ leBytes 1 t.x ++ leBytes 1 t.y ++ leBytes 1 (b2n t.double)
    ++ leBytes 1 (lifeCode s.life.st) ++ leBytes 2 t.coord ++ leBytes 1 n.val ++ leBytes 1 0 ++ leBytes 4 s.sec.fwVersion

/-- HELLO sent on a port. -/
def sendHello (s : State) (n : Slice) : State := sendNeighbour s n 1 (helloBytes s n)

/-- TRAINING_DONE (12 R369, R371, R375, R382): sequence numbers and credits start afresh, RTT is held, and the port says
HELLO. -/
def execTrainingDone (port : Slice) (rttNs : Nat) (s : State) : Out :=
  if (s.port port).st != .training then .next s
  else
    let s := s.modPort port (fun p => { p with
      st := .verify, lanes := [], landing := [], tx := [], taken := Vector.replicate 3 0, freed := Vector.replicate 3 0,
      credits := vset (vset (vset (Vector.replicate 3 0) 0 (classPlaces .vermilion)) 1 (classPlaces .ash)) 2 (classPlaces .control),
      rtt := rttNs, long := 1224 < rttNs })
    let s := if 1224 < rttNs then raisePort s port .linkLong (names [port.val, rttNs]) else s
    .next (sendHello s port)

/-- TRAINING_TIMEOUT (12 R381): R382 not met within 3 s. -/
def execTrainingTimeout (port : Slice) (s : State) : Out :=
  if (s.port port).st == .training then .next (s.modPort port (fun p => { p with st := .down })) else .next s

/-! ### HELLO (12 R383, R384, R393) -/

/-- A port past VERIFY. -/
def Port.pastVerify (p : Port) : Bool := p.st == .standby || p.st == .inService || p.st == .draining

/-- The identity prefix of a HELLO. -/
def helloIdentity (h : List Byte) : List Byte := (h.drop 8).take 32

/-- The identity that the other ports of a bundle past VERIFY have reached. -/
def bundleIdentity (s : State) (b : Bundle) (n : Slice) : Option (List Byte) :=
  ((bundlePorts s.torus b).find? (fun m => m != n && (s.port m).pastVerify)).map (fun m => helloIdentity (s.port m).hello)

/-- The bundle opposite another. -/
def Bundle.opposite (b : Bundle) : Bundle :=
  match b with
  | .xp => .xm
  | .xm => .xp
  | .yp => .ym
  | .ym => .yp

/-- The number of modules along a bundle's axis. -/
def bundleSize (t : TorusSt) (b : Bundle) : Nat :=
  match b with
  | .xp => t.x
  | .xm => t.x
  | _ => t.y

/-- The first check of R383 that a HELLO fails, as the HELD reason; 0 where all pass. -/
def helloReason (s : State) (n : Slice) (h : List Byte) : Nat :=
  let t := s.torus
  let id := helloIdentity h
  let byte (i : Nat) : Nat := ((h.drop i).headD 0).toNat
  let admitted := match s.guard.admission with
    | none => true
    | some l => l.any (fun a => a == id)
  let sameCluster := leNat (h.take 8) = t.clusterId && byte 40 = t.x && byte 41 = t.y && byte 42 = b2n t.double
  if !admitted then 1
  else if !sameCluster then 3
  else if byte 46 != pairedPort n then 2
  else match portBundle t n with
    | none => 2
    | some b =>
      let differs (o : Option (List Byte)) : Bool := match o with | some i => i != id | none => false
      if differs (bundleIdentity s b n) then 2
      else if bundleSize t b = 2 && differs (bundleIdentity s b.opposite n) then 2
      else 0

/-- The place of a bundle in the order of R399. -/
def bundleIx (b : Bundle) : Fin 4 :=
  match b with
  | .xp => 0
  | .xm => 1
  | .yp => 2
  | .ym => 3

/-- NEIGHBOUR_CHANGED (12 R393): the identity last seen on a bundle has changed. -/
def noteIdentity (s : State) (n : Slice) (id : List Byte) : State :=
  match portBundle s.torus n with
  | none => s
  | some b =>
    let old := vget s.torus.identity (bundleIx b)
    let s := s.modTorus (fun t => { t with identity := vset t.identity (bundleIx b) id })
    if old.isEmpty || old == id then s else raisePort s n .neighbourChanged (names [n.val])

/-- Whether a bundle's peer agrees on both coordinates on some port (12 R392). -/
def bundleAgrees (s : State) (b : Bundle) : Bool :=
  (bundlePorts s.torus b).any (fun n =>
    let p := s.port n
    (p.st == .standby || p.st == .inService) && p.peerCoord = some (neighbourCoord s.torus b) && p.peerExpects = some s.torus.coord)

/-- Discovery is complete once every used bundle agrees (12 R392); a conflict keeps it open (R391). -/
def discover (s : State) : State :=
  if s.torus.known && !s.torus.conflict && !s.torus.discovered
      && (allBundles.filter (bundleUsed s.torus)).all (bundleAgrees s) then
    raiseMod (s.modTorus (fun t => { t with discovered := true })) .discoveryDone (names [s.torus.coord])
  else s

/-- LINK_HELLO (12 R381, R383, R393): it passes a VERIFY port to STANDBY or HELD; a changed HELLO sends a HELD port
DOWN. -/
def execLinkHello (port : Slice) (k : Nat) (s : State) : Out :=
  match landedNeighbour s port k 1 with
  | none => .next s
  | some c =>
    let s := dropLanded s port k
    let h := c.bytes.take 52
    let s := noteIdentity s port (helloIdentity h)
    let coord := leNat ((h.drop 44).take 2)
    let was := (s.port port).hello
    let s := s.modPort port (fun p => { p with
      hello := h, peerPort := some ((h.drop 46).headD 0).toNat, peerCoord := if coord = 0xFFFF then none else some coord })
    match (s.port port).st with
    | .verify =>
      match helloReason s port h with
      | 0 =>
        let s := s.modPort port (fun p => { p with st := .standby, joinSent := false, joinGot := false, heldReason := 0 })
        .next (discover (joinDone (sendJoin s port) port))
      | why => .next (raisePort (s.modPort port (fun p => { p with st := .held, heldReason := why })) port .portHeld
          (names [port.val, why]))
    | .held => .next (if was == h then s else s.modPort port (fun p => { p.cleared with st := .down, heldReason := 0 }))
    | _ => .next (discover s)

/-- HELLO_PERIOD (12 R381, R383): a port in HELD or VERIFY says HELLO. -/
def execHelloPeriod (port : Slice) (s : State) : Out :=
  if (s.port port).st == .held || (s.port port).st == .verify then .next (sendHello s port) else .next s

/-! ### JOIN, QUIESCE, LAST (12 R385, R386) -/

/-- JOIN (12 R385): it waits for a port that is still in VERIFY. -/
def execJoin (port : Slice) (k : Nat) (s : State) : Out :=
  match landedNeighbour s port k 5 with
  | none => .next s
  | some _ =>
    if (s.port port).st != .standby then .next s
    else
      let s := (dropLanded s port k).modPort port (fun p => { p with joinGot := true })
      .next (discover (joinDone (sendJoin s port) port))

/-- QUIESCE (12 R386). -/
def execQuiesce (port : Slice) (k : Nat) (s : State) : Out :=
  match landedNeighbour s port k 6 with
  | none => .next s
  | some _ =>
    let s := dropLanded s port k
    .next (if (s.port port).st == .inService then beginDrain s port else s)

/-- LAST (12 R386). -/
def execLast (port : Slice) (k : Nat) (s : State) : Out :=
  match landedNeighbour s port k 7 with
  | none => .next s
  | some _ =>
    let s := dropLanded s port k
    .next (drainDone (if (s.port port).st == .draining then s.modPort port (fun p => { p with lastGot := true }) else s) port)

/-! ### PORT_ENABLE and cartridges (12 R381, R386, R389, R397) -/

/-- PORT_ENABLE (12 R381, R386). -/
def wPortEnable (n : Slice) (r : Req) (s : State) : Nat × State :=
  if reqNat r = 0 then
    if strandsBundle s [n] then (stNoResource, s)
    else (0, leaveService (s.modPort n (fun p => { p with enable := false })) n)
  else
    let s := s.modPort n (fun p => { p with enable := true, heldReason := if p.heldReason = 5 then 0 else p.heldReason })
    let s := if (s.port n).st == .held then s.modPort n (fun p => { p.cleared with st := .down, heldReason := 0 }) else s
    (0, joinDone (sendJoin (portUp s n) n) n)

/-- PORT_ENABLE_WRITE: OD 4003. -/
def execPortEnableWrite (port : Slice) (r : Req) (s : State) : Out :=
  .next (serveWrite s r 0x4003 port.val (wPortEnable port))

/-- A bay is PREPARED (12 R389 step 2). -/
def bayReady (s : State) (b : Fin 16) : State :=
  raiseBay (s.modBay b (fun y => { y with st := .prepared })) b .cartridgeReady (names [b.val])

/-- CARTRIDGE_PREPARE (12 R389): both ports leave service; a bay whose cartridge has failed is PREPARED at once. -/
def wCartridgePrepare (b : Fin 16) (r : Req) (s : State) : Nat × State :=
  if reqNat r = 0 then
    let s := s.modBay b (fun y => { y with prepare := false })
    (0, (bayPorts b).foldl (fun t n => portUp (t.modPort n (fun p => { p with prepared := false })) n) s)
  else if strandsBundle s (bayPorts b) then (stNoResource, s)
  else
    let s := s.modBay b (fun y => { y with prepare := true })
    let s := (bayPorts b).foldl (fun t n => leaveService (t.modPort n (fun p => { p with prepared := true })) n) s
    (0, if (s.bay b).st == .failed then bayReady ((bayPorts b).foldl disablePort s) b else s)

/-- CARTRIDGE_PREPARE: OD 4011. -/
def execCartridgePrepare (bay : Fin 16) (r : Req) (s : State) : Out :=
  .next (serveWrite s r 0x4011 bay.val (wCartridgePrepare bay))

/-- CARTRIDGE_READY (12 R389): both ports of a prepared bay are DISABLED. -/
def execCartridgeReady (bay : Fin 16) (s : State) : Out :=
  let y := s.bay bay
  if y.prepare && (y.st == .lit || y.st == .warming) && (bayPorts bay).all (fun n => (s.port n).st == .disabled) then
    .next (bayReady s bay)
  else .next s

/-- CARTRIDGE_INSERTED (12 R389, R397): an EMPTY bay takes a cartridge, which warms. -/
def execCartridgeInserted (bay : Fin 16) (serial : List Byte) (s : State) : Out :=
  if (s.bay bay).st != .empty then .next s
  else .next (s.modBay bay (fun y => { y with st := .warming, serial := serial, wear := 0 }))

/-- CARTRIDGE_LIT (12 R389): CARTRIDGE_PREPARE returns to 0 and the ports may train. A quarantined module keeps its
cartridges dark (R394). -/
def execCartridgeLit (bay : Fin 16) (s : State) : Out :=
  if (s.bay bay).st != .warming || s.life.st == .off || s.life.st == .quarantined then .next s
  else
    let s := s.modBay bay (fun y => { y with st := .lit, prepare := false })
    .next ((bayPorts bay).foldl (fun t n => portUp (t.modPort n (fun p => { p with prepared := false })) n) s)

/-- A port loses its light (12 R363, R381, R387): one that is lit fails, any other is DISABLED, and so is one that its
failure retires. -/
def portDark (s : State) (n : Slice) : State :=
  let s := if (s.port n).lit then failPort s n else s
  if (s.port n).st == .failed || (s.port n).st == .disabled then s else disablePort s n

/-- CARTRIDGE_FAILED (12 R389): a wavelength loses power or lock. -/
def execCartridgeFailed (bay : Fin 16) (s : State) : Out :=
  if (s.bay bay).st != .lit then .next s
  else
    let s := raiseBay (s.modBay bay (fun y => { y with st := .failed })) bay .cartridgeFailed (names [bay.val])
    .next ((bayPorts bay).foldl portDark s)

/-- CARTRIDGE_REMOVED (12 R381, R389): the bay is EMPTY and its ports are dark; a port that was lit has failed. -/
def execCartridgeRemoved (bay : Fin 16) (s : State) : Out :=
  if (s.bay bay).st == .empty then .next s
  else
    let s := (bayPorts bay).foldl (fun t n => disablePort (if (t.port n).lit then failPort t n else t) n) s
    .next (s.modBay bay (fun y => { y with st := .empty, serial := [], wear := 0 }))

/-- CARTRIDGE_WEAR (12 R389, R397): the highest bias in per cent; it is raised as the bias passes 90 %. -/
def execCartridgeWear (bay : Fin 16) (bias : Nat) (s : State) : Out :=
  let y := s.bay bay
  if y.st != .lit then .next s
  else
    let s := s.modBay bay (fun y => { y with wear := min 100 bias })
    .next (if y.wear ≤ 90 && 90 < bias then raiseBay s bay .cartridgeWear (names [bay.val, min 100 bias]) else s)

/-! ### Discovery and the torus settings (12 R390-R393) -/

/-- CLAIM_PERIOD (12 R391): a module with a coordinate claims on every port in STANDBY or IN_SERVICE. -/
def execClaimPeriod (s : State) : Out :=
  if !s.torus.known then .next s
  else .next (((List.finRange 32).filter (fun n => (s.port n).st == .standby || (s.port n).st == .inService)).foldl
    (fun t n => match portBundle t.torus n with
      | none => t
      | some b => sendNeighbour t n 2 (leBytes 2 t.torus.coord ++ leBytes 2 (neighbourCoord t.torus b))) s)

/-- CLAIM (12 R391, R392). -/
def execClaim (port : Slice) (k : Nat) (s : State) : Out :=
  match landedNeighbour s port k 2 with
  | none => .next s
  | some c =>
    let s := dropLanded s port k
    let sender := leNat (c.bytes.take 2)
    let expects := leNat ((c.bytes.drop 2).take 2)
    let s := s.modPort port (fun p => { p with peerCoord := some sender, peerExpects := some expects })
    if !s.torus.known then .next (discover (s.modTorus (fun t => { t with coord := expects })))
    else if s.torus.coord != expects then
      .next (raisePort (s.modTorus (fun t => { t with conflict := true })) port .coordConflict (names [s.torus.coord, expects]))
    else .next (discover s)

/-- The ports as new torus settings leave them (12 R378): an unused side is DISABLED, a used one may train. -/
def refreshSides (s : State) : State :=
  (List.finRange 32).foldl (fun t n => if sideUnused t.torus n then
      (if (t.port n).st == .disabled then t else disablePort t n) else portUp t n) s

/-- The torus settings (12 R390): range, then consistency, then state. ORIGIN takes COORD (0, 0) (R391). -/
def wTorus (sub : Nat) (r : Req) (s : State) : Nat × State :=
  let v := reqNat r
  let t := s.torus
  let new : TorusSt := match sub with
    | 1 => { t with x := v }
    | 2 => { t with y := v }
    | 3 => { t with double := v = 1 }
    | 4 => { t with clusterId := v }
    | _ => { t with origin := v = 1, coord := if v = 1 then 0 else t.coord }
  let range := if sub = 1 || sub = 2 then natRange v 1 32 else 0
  if range != 0 then (range, s)
  else if 1024 < new.x * new.y || (new.double && new.y != 1) then (stInconsistent, s)
  else if !(s.life.st == .awaitAddress || s.life.st == .linkUp) then (stWrongState, s)
  else (0, discover (refreshSides (s.modTorus (fun _ => new))))

/-- TORUS_SETTINGS_WRITE: OD 4100.01 to 4100.05. -/
def execTorusSettingsWrite (sub : Nat) (r : Req) (s : State) : Out := .next (serveWrite s r 0x4100 sub (wTorus sub))

/-- COORD_CONFIRM (12 R392): COORD itself, in LINK_UP, leads on to JOINED. -/
def wCoordConfirm (r : Req) (s : State) : Nat × State :=
  if !s.torus.known || reqNat r != s.torus.coord then (stInconsistent, s)
  else if s.life.st != .linkUp then (stWrongState, s)
  else (0, setLife s .joined)

/-- COORD_CONFIRM: OD 4101.03. -/
def execCoordConfirm (r : Req) (s : State) : Out := .next (serveWrite s r 0x4101 3 wCoordConfirm)

/-- BER_WARN (12 R399): 1e-8 to 2.4e-4, finite. -/
def wBerWarn (r : Req) (s : State) : Nat × State :=
  let v := reqF32 r
  let x := f32num v
  let st := if !x.isFin then stInconsistent
    else if Num.lt x (f32num 0x322BCC77#32) then stBelow
    else if Num.lt (f32num 0x397BA882#32) x then stAbove
    else 0
  accept st s (s.modTorus (fun t => { t with berWarn := v }))

end Sys2Proof.Machine
end

