-- ==== Sys2Proof/Machine/Sequencer.lean ====
section
/-! DEFINITION. Machine/Sequencer.lean: the sequencer's own words and commands (08): tasks, waits, signals, loops and
branches. READREG stands with the register blocks. -/

namespace Sys2Proof.Machine

/-! ### Commands of the steward (08 R219) -/

/-- A TASK_START at a skillet (08 R219): a FREE task becomes READY at PC with the argument in TR0; otherwise 0x0402. DESIGN
CHOICE, log 64: a skillet whose sequencer is not powered, or that the module does not present, answers 0x0401. -/
def startTask (s : State) (p : Pid) (task : Fin 16) (pc : Nat) (arg : W64) : Nat × State :=
  let x := s.task p task
  if !s.sequences p then (stWrongState, s)
  else if x.st != .free then (stBusy, s)
  else
    let y : Task := { pc := pc, tr := vset (Vector.replicate 8 0) 0 arg, st := .ready, inc := x.inc }
    (0, kick (s.modTask p task (fun _ => y)) p)

/-- TASK_START (08 R219), answered with its status. -/
def execTaskStart (p : Pid) (task : Fin 16) (pc : BitVec 25) (arg : W64) (s : State) : Out :=
  if !s.nodeLive p.val then .next s
  else
  let (st, s) := startTask (recvCobalt s p.val) p task pc.toNat arg
  .next (sendReply s p.val st [])

/-- A task at HALT_ALL (08 R219): it is FREE, but the running one stops only at its next word boundary, so inside a shelf
command it goes on to the end of the command's acceptance, its counters, STATUS and loop stack zero already. -/
def haltTask (q : Seq) (t : Fin 16) : Task :=
  let x := vget q.tasks t
  if q.hold.isSome && q.current == some t then { x with cc := Vector.replicate 8 0, status := 0, loops := [], inc := x.inc + 1 }
  else x.halt

/-- HALT_ALL at a skillet (08 R219): tasks, signal counters, the whisk's queue and the memory operations that wait on a
slot. -/
def haltAll (s : State) (p : Pid) : State :=
  let keep := (s.pn p).memopQueue.filter (fun m => memopReady s p m)
  s.modSk p (fun k => { k with
    seq := { k.seq with
      tasks := Vector.ofFn (haltTask k.seq), sg := Vector.replicate 64 0
      current := if k.seq.hold.isSome then k.seq.current else none
      halting := k.seq.hold.isSome && k.seq.current.isSome }
    whisk := { k.whisk with queue := [], halted := false }
    pantry := { k.pantry with memopQueue := keep } })

/-- HALT_ALL (08 R219). -/
def execHaltAll (p : Pid) (s : State) : Out :=
  .next (if !s.nodeLive p.val then s else if !s.sequences p then recvCobalt s p.val else haltAll (recvCobalt s p.val) p)

/-- CLEAR_LOSS (08 R219, R239): the loss record of a skillet is zero. -/
def clearLoss (s : State) (p : Pid) : State :=
  s.modWh p (fun h => { h with lossSum := 0, lossTokens := 0, lossNonfinite := false })

/-- CLEAR_LOSS (08 R219). -/
def execClearLoss (p : Pid) (s : State) : Out :=
  .next (if !s.nodeLive p.val then s else clearLoss (recvCobalt s p.val) p)

/-! ### Choosing the task (08 R217, R218) -/

/-- SLICE_EXPIRED (08 R218): the running task yields at its word boundary while another is READY. -/
def execSliceExpired (p : Pid) (s : State) : Out :=
  match (s.sq p).current with
  | none => .next s
  | some t =>
    if (s.sq p).hold.isSome || !(s.sq p).tasks.toList.any (fun x => x.st == .ready) then .next s
    else .next (leaveRunning (s.modSq p (fun q => { q with sliceExpired := sat64 q.sliceExpired 1 })) p t .ready)

/-- Whether a SLOT_FULL word is satisfied (06 R169, 08 R227). -/
def fullHolds (s : State) (p : Pid) (w : Nat) : Bool :=
  let x := (s.pn p).slot (bits w 111 100)
  x.st == .full && (!bit w 99 || x.gen == bits w 98 91)

/-- Whether the slot of a SLOT_EMPTY word is EMPTY (08 R227). -/
def emptyHolds (s : State) (p : Pid) (w : Nat) : Bool := s.slotSt p (bits w 111 100) == .empty

/-- The completion counter of a COUNTER word (08 R227). -/
def ccOf (x : Task) (w : Nat) : Nat := vget x.cc (Fin.ofNat 8 (bits w 111 109))

/-- The signal counter of a SIGNAL word (08 R227). -/
def sgOf (s : State) (p : Pid) (w : Nat) : Nat := vget (s.sq p).sg (Fin.ofNat 64 (bits w 111 106))

/-- Whether cluster time has reached a COUNT and FRAC (08 R230): never while the count is not valid. -/
def timeReached (s : State) (target : Nat × Nat) (frac : Nat) : Bool :=
  s.time.valid && (target.1 < s.time.count || (target.1 == s.time.count && target.2 ≤ frac))

/-- Whether the condition that a WAITING task awaits holds (08 R217, R227, R230, R232, 04 R119): a COUNTER or SIGNAL wait
has been served at its counter. -/
def wakeHolds (s : State) (p : Pid) (t : Fin 16) (frac : Nat) : Bool :=
  let x := s.task p t
  let w := x.word
  match wordOp w with
  | some .slotFull => fullHolds s p w
  | some .slotEmpty => emptyHolds s p w
  | some .counter => x.met
  | some .signal => x.met
  | some .issue => queueRoom (s.gr p (Fin.ofNat 4 (bits w 111 110)))
  | some .run => (s.wh p).queue.length < 4
  | some .abs => match x.target with | some g => timeReached s g frac | none => true
  | some .rel => match x.target with | some g => timeReached s g frac | none => true
  | _ => true

/-- A woken task (08 R217, R218): past its wait word, which is done; before a word that waited for acceptance. -/
def Task.wake (x : Task) : Task :=
  match wordOp x.word with
  | some .issue | some .run => { x with st := .ready, waitKind := 0 }
  | _ => { x with st := .ready, waitKind := 0, word := 0, met := false, target := none, pc := (x.pc + 1) % 2 ^ 25 }

/-- TASK_WAKE (08 R217, R218): a WAITING task whose condition holds is READY. `frac` is the instant in the beat. -/
def execTaskWake (p : Pid) (t : Fin 16) (frac : Fin 1024) (s : State) : Out :=
  let now := s.atFrac frac.val
  if (s.task p t).st != .waiting || !wakeHolds s p t (now.fracAt p.val) then .next s
  else .next (kick (now.modTask p t Task.wake) p)

/-! ### Waits (08 R227, R230) -/

/-- WAIT_SLOT_FULL (08 R227, 06 R169). -/
def execWaitSlotFull (p : Pid) (s : State) : Out :=
  .next (issueWord s p .slotFull (fun s t w => if fullHolds s p w then advance s p t else waitTask s p t 1 w))

/-- WAIT_SLOT_EMPTY (08 R227). -/
def execWaitSlotEmpty (p : Pid) (s : State) : Out :=
  .next (issueWord s p .slotEmpty (fun s t w => if emptyHolds s p w then advance s p t else waitTask s p t 1 w))

/-- WAIT_COUNTER (08 R227): N is subtracted where the counter holds it. -/
def execWaitCounter (p : Pid) (s : State) : Out :=
  .next (issueWord s p .counter (fun s t w =>
    let n := bits w 108 93
    if n ≤ ccOf (s.task p t) w then
      advance (s.modTask p t (fun x => { x with cc := vmod x.cc (Fin.ofNat 8 (bits w 111 109)) (fun c => c - n) })) p t
    else waitTask s p t 2 w))

/-- WAIT_SIGNAL (08 R227). -/
def execWaitSignal (p : Pid) (s : State) : Out :=
  .next (issueWord s p .signal (fun s t w =>
    let n := bits w 105 90
    if n ≤ sgOf s p w then
      advance (s.modSq p (fun q => { q with sg := vmod q.sg (Fin.ofNat 64 (bits w 111 106)) (fun c => c - n) })) p t
    else waitTask s p t 3 w))

/-- A TIMEAT word at its target (08 R230). A target at or below the present value completes at once and counts in
TIMEAT_LATE. `frac` is the instant in the beat; the skillet's own copy is judged (02
R48). -/
def timeAt (s : State) (p : Pid) (t : Fin 16) (w : Nat) (target : Nat × Nat) (frac : Nat) : State :=
  let s := s.atFrac frac
  if timeReached s target (s.fracAt p.val) then
    advance (s.modSq p (fun q => { q with timeatLate := sat64 q.timeatLate 1 })) p t
  else waitTask (s.modTask p t (fun x => { x with target := some target })) p t 4 w

/-- TIMEAT_ABS (08 R230). -/
def execTimeatAbs (p : Pid) (frac : Fin 1024) (s : State) : Out :=
  .next (issueWord s p .abs (fun s t w => timeAt s p t w (bits w 63 0, bits w 73 64) frac.val))

/-- TIMEAT_REL (08 R224, R230): the target COUNT is TR + IMM, modulo 2^64. -/
def execTimeatRel (p : Pid) (frac : Fin 1024) (s : State) : Out :=
  .next (issueWord s p .rel (fun s t w =>
    timeAt s p t w (((trOf (s.task p t) (bits w 111 109)).toNat + bits w 63 0) % 2 ^ 64, bits w 73 64) frac.val))

/-! ### Signals (08 R228) -/

/-- A message between skillets: discarded at injection under a hold (09 R270). -/
def sendSk (s : State) (kind : CobaltKind) (p : Pid) (dest : Nat) (arg : Nat) : State :=
  if s.mesh.hold then countDiscard s (nodeOf p) 1 else sendCobalt s kind p.val dest arg [] none

/-- One SIGNAL to several skillets (09 R276, R277): a broadcast whose first payload beat is the PID mask. -/
def sendBcast (s : State) (p : Pid) (mask : Nat) (arg : Nat) : State :=
  if s.mesh.hold then countDiscard s (nodeOf p) 1
  else if !s.nodeLive p.val then s
  else
    let s := countSent s p.val
    { s with mesh := { s.mesh with cobalt := s.mesh.cobalt ++ [{
      kind := .signal, src := p.val, dest := 0, epoch := s.mesh.epoch, arg := arg, beats := [mask], record := none,
      bcast := true, mask := mask }] } }

/-- Whether the send queue of a skillet's cobalt node has room (09 R278): it holds 32 messages; those that have not reached
their receiver count (DESIGN CHOICE, log 64). A full queue holds the word that would send. -/
def sendRoom (s : State) (p : Pid) : Bool := (s.mesh.cobalt.filter (fun m => m.src == p.val)).length < 32

/-- SIGNALS_SENT (08 R246). -/
def countSignal (s : State) (p : Pid) : State := s.modSq p (fun q => { q with signalsSent := sat64 q.signalsSent 1 })

/-- The SIGNAL of a SEND (08 R228, 09 R277): to one skillet, or as a broadcast where MASK names more than one. -/
def sendSignal (s : State) (p : Pid) (to_ : List Pid) (g : Nat) : State :=
  match to_ with
  | [] => s
  | [q] => sendSk s .signal p q.val g
  | _ => sendBcast s p (to_.foldl (fun a q => a + 2 ^ q.val) 0) g

/-- A word that sends on the cobalt network (08 R228, 09 R278): held, and presented again, while the send queue is full. -/
def sendingWord (s : State) (p : Pid) (op : WordOp) (act : State → Fin 16 → Nat → State) : State :=
  if sendRoom s p then issueWord s p op act else s

/-- SIGNAL_SEND (08 R228): a SIGNAL to each logical skillet of MASK. -/
def execSignalSend (p : Pid) (s : State) : Out :=
  .next (sendingWord s p .send (fun s t w =>
    let to_ := ((List.range 56).filter (fun l => bit w l)).filterMap (fun l => s.pidOf l)
    finishWord (sendSignal (countSignal s p) p to_ (bits w 111 106)) p t w 0))

/-- REMOTE_COMPLETE (08 R228): one completion for a slot of the target skillet. -/
def execRemoteComplete (p : Pid) (s : State) : Out :=
  .next (sendingWord s p .remoteComplete (fun s t w =>
    let s := countSignal s p
    let s := match s.pidOf (bits w 111 106) with
      | some q => sendSk s .remoteComplete p q.val (bits w 105 94)
      | none => s
    finishWord s p t w 0))

/-- REMOTE_RELEASE (08 R228): one release for a slot of the target skillet. -/
def execRemoteRelease (p : Pid) (s : State) : Out :=
  .next (sendingWord s p .remoteRelease (fun s t w =>
    let s := countSignal s p
    let s := match s.pidOf (bits w 111 106) with
      | some q => sendSk s .remoteRelease p q.val (bits w 105 94)
      | none => s
    finishWord s p t w 0))

/-- Whether a message is on its way to a node (09 R276). -/
def cobaltTo (m : CobaltMsg) (dest : Nat) : Bool := if m.bcast then dest < 64 && bit m.mask dest else m.dest == dest

/-- What is left in flight of a message that has reached a node (09 R276): of a broadcast the nodes that it has still to
reach. -/
def cobaltLeft (m : CobaltMsg) (dest : Nat) : List CobaltMsg :=
  if m.bcast && m.mask != 2 ^ dest then [{ m with mask := m.mask - 2 ^ dest }] else []

/-- Whether the source of a message may send its type (09 R277). -/
def cobaltAdmitted (m : CobaltMsg) : Bool :=
  match m.kind with
  | .signal | .remoteComplete | .remoteRelease => m.src < 64
  | .fuse => 64 ≤ m.src && m.src < 68
  | .event | .reply => m.src < 69

/-- The oldest message from one node to another, taken out of flight where it is of a kind: messages from one node to another
arrive in the order sent (09 R278). -/
def takeMsg (ms : List CobaltMsg) (kind : CobaltKind) (src dest : Nat) : Option (CobaltMsg × List CobaltMsg) :=
  match ms with
  | [] => none
  | m :: r => if m.src == src && cobaltTo m dest then (if m.kind == kind then some (m, cobaltLeft m dest ++ r) else none)
              else (takeMsg r kind src dest).map (fun y => (y.1, m :: y.2))

/-- A message of a kind arrives at a skillet whose node is live (09 R271, R275, R277): one of another epoch, or from a source
that may not send it, is discarded and counted. -/
def receiveMsg (s : State) (kind : CobaltKind) (src : Nat) (p : Pid) (act : State → Nat → State) : State :=
  if !s.nodeLive p.val then s
  else match takeMsg s.mesh.cobalt kind src p.val with
  | none => s
  | some (m, rest) =>
    let s := { s with mesh := { s.mesh with cobalt := rest } }
    if m.epoch != s.mesh.epoch || !cobaltAdmitted m then s.modRt (nodeOf p) (fun r => { r with cobaltDiscarded := sat64 r.cobaltDiscarded 1 })
    else act (recvCobalt s p.val) m.arg

/-- SIGNAL_RECEIVED (08 R228, R229). -/
def execSignalReceived (p src : Pid) (s : State) : Out :=
  .next (receiveMsg s .signal src.val p (fun s g =>
    bumpSG (s.modSq p (fun q => { q with signalsReceived := sat64 q.signalsReceived 1 })) p g))

/-- REMOTE_COMPLETE_RECEIVED (08 R228, 06 R172). -/
def execRemoteCompleteReceived (p src : Pid) (s : State) : Out :=
  .next (receiveMsg s .remoteComplete src.val p (fun s n => slotCompletion s p n))

/-- REMOTE_RELEASE_RECEIVED (08 R228, 06 R172). -/
def execRemoteReleaseReceived (p src : Pid) (s : State) : Out :=
  .next (receiveMsg s .remoteRelease src.val p (fun s n => slotRelease s p n))

/-! ### Loops and branches (08 R231) -/

/-- LOOP_FOR (08 R231): a count of 0 pushes nothing and goes on at END + 1. -/
def execLoopFor (p : Pid) (s : State) : Out :=
  .next (issueWord s p .for_ (fun s t w =>
    let x := s.task p t
    let n := forCount x w
    if n = 0 then jumpTo s p t (bits w 88 64 + 1)
    else advance (s.modTask p t (fun x => { x with loops := ⟨n, x.pc + 1, bits w 88 64⟩ :: x.loops })) p t))

/-- LOOP_NEXT (08 R231). -/
def execLoopNext (p : Pid) (s : State) : Out :=
  .next (issueWord s p .next (fun s t _ =>
    match (s.task p t).loops with
    | [] => s
    | l :: r =>
      if l.count - 1 = 0 then advance (s.modTask p t (fun x => { x with loops := r })) p t
      else jumpTo (s.modTask p t (fun x => { x with loops := { l with count := l.count - 1 } :: r })) p t l.body))

/-- JUMP (08 R224). -/
def execJump (p : Pid) (s : State) : Out := .next (issueWord s p .jump (fun s t w => jumpTo s p t (bits w 88 64)))

/-- The condition of a JUMP_IF (08 R224, R231). -/
def jumpHolds (x : Task) (w : Nat) : Bool :=
  let v := (trOf x (bits w 111 109)).toNat
  match bits w 108 106 with
  | 0 => v == bits w 63 0
  | 1 => v != bits w 63 0
  | 2 => v < bits w 63 0
  | 3 => bits w 63 0 ≤ v
  | _ => x.status != 0

/-- JUMP_IF (08 R231): STATUS_NZ clears STATUS when it jumps. -/
def execJumpIf (p : Pid) (s : State) : Out :=
  .next (issueWord s p .jumpIf (fun s t w =>
    if jumpHolds (s.task p t) w then
      jumpTo (if bits w 108 106 = 4 then s.modTask p t (fun x => { x with status := 0 }) else s) p t (bits w 88 64)
    else advance s p t))

/-- LOADI (08 R224). -/
def execLoadi (p : Pid) (s : State) : Out :=
  .next (issueWord s p .loadi (fun s t w => advance (setTr s p t (bits w 111 109) (bits w 63 0)) p t))

/-- ADDI (08 R224): TR := SRC + IMM, modulo 2^64. -/
def execAddi (p : Pid) (s : State) : Out :=
  .next (issueWord s p .addi (fun s t w =>
    advance (setTr s p t (bits w 111 109) ((trOf (s.task p t) (bits w 108 106)).toNat + bits w 63 0)) p t))

/-- SPAWN (08 R231): a FREE task starts at TARGET with copies of TR0-TR7. -/
def execSpawn (p : Pid) (s : State) : Out :=
  .next (issueWord s p .spawn (fun s t w =>
    let n : Fin 16 := Fin.ofNat 16 (bits w 111 108)
    let x := s.task p t
    let y : Task := { pc := bits w 88 64, tr := x.tr, st := .ready, inc := (s.task p n).inc }
    advance (s.modTask p n (fun _ => y)) p t))

/-- END (08 R231): the task is FREE, its counters and loop stack zero; completions owed to it are discarded (R229). -/
def execEndTask (p : Pid) (s : State) : Out :=
  .next (issueWord s p .end_ (fun s t _ =>
    leaveRunning (s.modTask p t (fun x => { x with cc := Vector.replicate 8 0, loops := [], inc := x.inc + 1 })) p t .free))

/-- YIELD (08 R223): the task stays READY and the next one is taken. -/
def execYieldTask (p : Pid) (s : State) : Out :=
  .next (issueWord s p .yield_ (fun s t _ => leaveRunning (advance s p t) p t .ready))

/-- PLAN_EVENT (08 R223, R249): event 0xE300 + CODE with the class of the word and the named register as its data. -/
def execPlanEvent (p : Pid) (s : State) : Out :=
  .next (sendingWord s p .raise_ (fun s t w =>
    let s := advance s p t
    raiseAs s p.val (0xE300 + bits w 111 104) (if bit w 103 then .contained else .notice) (plocUnit p.val 6)
      (trOf (s.task p t) (bits w 102 100)).toNat))

/-- TASK_TABLE_PARITY (08 R226): a parity error in the task table faults the task, cause STATE_PARITY. -/
def execTaskTableParity (p : Pid) (t : Fin 16) (s : State) : Out :=
  if (s.task p t).st == .free || (s.task p t).st == .faulted then .next s else .next (taskFault s p t 4)

end Sys2Proof.Machine
end

