-- ==== Sys2Proof/Machine/Update.lean ====
section
/-! DEFINITION. Machine/Update.lean: phase G (01 R27, 10 R308-R312, 05 R151-R154, 13 R403): the optimizer constants, the
rule for one parameter, and the update of every owned block into slot B. -/

namespace Sys2Proof.Machine

/-! ### binary64 on the steward -/

/-- The binary64 product. -/
def f64mul (a b : W64) : W64 := f64of (Num.mul (f64num a) (f64num b))
/-- The binary64 quotient. -/
def f64div (a b : W64) : W64 := f64of (Num.div (f64num a) (f64num b))
/-- The binary64 difference. -/
def f64sub (a b : W64) : W64 := f64of (Num.add (f64num a) (Num.neg (f64num b)))
/-- The binary64 square root. -/
def f64sqrt (a : W64) : W64 := f64of (Num.sqrt (f64num a))
/-- A natural number in binary64. -/
def f64nat (n : Nat) : W64 := f64of (Num.ofInt n)
/-- A binary32 value in binary64, exact. -/
def f64of32 (v : W32) : W64 := f64of (f32num v)
/-- A binary64 value rounded to binary32. -/
def f32of64 (v : W64) : W32 := f32of (f64num v)
/-- 1.0 in binary64. -/
def f64one : W64 := f64nat 1

/-- A power in binary64 (10 R309): exact where the result is the base or zero; otherwise the firmware's routine. -/
def f64pow (b : W64) (n : Nat) : W64 :=
  if n = 1 || b = 0 then b else BitVec.ofNat 64 (Config.firmwarePow b.toNat n)

/-- cos(π p) in binary64 for p from 0 to 1 (10 R310): exact at both ends; otherwise the firmware's routine. -/
def f64cosPi (p : W64) : W64 :=
  if p = 0 then f64one else if p = f64one then f64sub 0 f64one else BitVec.ofNat 64 (Config.firmwareCosPi p.toNat)

/-! ### The settings and the constants (10 R309, R310, R313) -/

/-- The settings that G of the step in progress uses (10 R309, R313). -/
def optimFor (s : State) : Optim :=
  if s.rim.applySet && s.rim.applyStep == s.commit.step then optimPending s else s.rim.optim

/-- η(S) (10 R310), in binary64. -/
def learningRate (o : Optim) (step : Nat) : W64 :=
  let peak := f64of32 o.lrPeak
  let floor := f64of32 o.lrFloor
  if step < o.warmup then f64div (f64mul peak (f64nat (step + 1))) (f64nat o.warmup)
  else
    let q := f64div (f64nat (step - o.warmup)) (f64nat (max 1 o.decaySteps))
    let p := if Num.lt (f64num f64one) (f64num q) then f64one else q
    match o.decayKind with
    | 0 => peak
    | 1 => f64add floor (f64mul (f64sub peak floor) (f64sub f64one p))
    | _ => f64add floor (f64div (f64mul (f64sub peak floor) (f64add f64one (f64cosPi p))) (f64nat 2))

/-- The constants of R309, in binary32. -/
structure OptConst where
  gs : W32
  e : Vector W32 4
  el : Vector W32 4
  bc1 : W32
  bc2 : W32
  c1 : W32
  c2 : W32
  deriving DecidableEq, Repr

/-- The constants for a step with its clip factor and token count (10 R309). -/
def optConst (o : Optim) (step : Nat) (clip : W64) (tokens : Nat) : OptConst :=
  let eta := learningRate o step
  let num := f64mul clip (f64of32 o.gscale)
  let e (c : Fin 4) : W64 := f64mul eta (f64of32 (vget o.lrMul c))
  { gs := if !o.meanByTokens then f32of64 num
          else if tokens = 0 then 0 else f32of64 (f64div num (f64nat tokens))
    e := Vector.ofFn (fun c => f32of64 (e c))
    el := Vector.ofFn (fun c => f32of64 (f64mul (f64mul (e c) (f64of32 o.weightDecay)) (f64of32 (vget o.wdMul c))))
    bc1 := f32of64 (f64div f64one (f64sub f64one (f64pow (f64of32 o.beta1) (step + 1))))
    bc2 := f32of64 (f64div f64one (f64sqrt (f64sub f64one (f64pow (f64of32 o.beta2) (step + 1)))))
    c1 := f32of64 (f64sub f64one (f64of32 o.beta1))
    c2 := f32of64 (f64sub f64one (f64of32 o.beta2)) }

/-! ### One parameter (10 R311) -/

/-- fma in binary32: rounded once. -/
def f32fma (a b c : W32) : W32 := f32of (Num.add (Num.mul (f32num a) (f32num b)) (f32num c))

/-- 1.0, -1.0 and 0.0 in binary32 by the sign of a value (10 R311). -/
def f32sign (v : W32) : W32 :=
  if Num.lt (numOf 0 0) (f32num v) then 0x3F800000#32 else if Num.lt (f32num v) (numOf 0 0) then 0xBF800000#32 else 0

/-- What the rule gives for one parameter: x, the first moment and, where the rule changes it, the second. -/
structure ParamOut where
  x : W32
  m1 : W32
  m2 : Option W32
  deriving DecidableEq, Repr

/-- wa - fma(el, wa, e * u) (10 R311). -/
def decayStep (k : OptConst) (c : Fin 4) (wa u : W32) : W32 :=
  f32sub wa (f32fma (vget k.el c) wa (f32mul (vget k.e c) u))

/-- The optimizer rule for one parameter (10 R311). -/
def optRule (o : Optim) (k : OptConst) (c : Fin 4) (gm wa m1a m2a : W32) : ParamOut :=
  let g := f32mul gm k.gs
  match o.rule with
  | 1 =>
    let m1 := f32fma o.beta1 m1a (f32mul k.c1 g)
    let m2 := f32fma o.beta2 m2a (f32mul k.c2 (f32mul g g))
    let d := f32div (f32mul m1 k.bc1) (f32add (f32mul (f32sqrt m2) k.bc2) o.eps)
    ⟨decayStep k c wa d, m1, some m2⟩
  | 0 =>
    let m1 := f32fma o.momentum m1a g
    ⟨decayStep k c wa (if o.nesterov then f32fma o.momentum m1 g else m1), m1, none⟩
  | _ =>
    let v := f32fma o.beta1 m1a (f32mul k.c1 g)
    ⟨decayStep k c wa (f32sign v), f32fma o.beta2 m1a (f32mul k.c2 g), none⟩

/-- A parameter as it is written to slot B (05 R151, R152) with its clamps and its bin (13 R403). -/
structure ParamNew where
  w : Nat
  r : Nat
  m1 : Nat
  m2 : Nat
  clamps : Nat
  bin : Nat
  deriving DecidableEq, Repr

/-- The write of a parameter: seed J, index P, step S; the slot-A pair and moments as patterns. -/
def writeParam (out : ParamOut) (seed p step w r m1a m2a : Nat) (wa : W32) : ParamNew :=
  let (u, u1, u2) := philox seed p step
  let a := writePair (f32num out.x) u w r
  let b := writeMoment (f32num out.m1) u1 m1a
  let c := match out.m2 with
    | some m => writeMoment (f32num m) u2 m2a
    | none => ⟨plusZero m2a, 0, false, false⟩
  { w := a.w, r := a.r, m1 := b.w, m2 := c.w, clamps := b2n a.clamped + b2n b.clamped + b2n c.clamped,
    bin := if a.nanIn || b.nanIn || c.nanIn then 63
           else if a.clamped || b.clamped || c.clamped then 62
           else tapBin (f32num (f32sub out.x wa)) }

/-- Element i of 2-byte elements. -/
def elem16 (bs : List Byte) (i : Nat) : Nat := leNat ((bs.drop (2 * i)).take 2)

/-- A BF16 pattern widened to binary32. -/
def bf16to32 (v : Nat) : W32 := f32of (bf16.decode v)

/-! ### One block (10 R308, R312) -/

/-- The class of a group (10 R312). -/
def groupClass (o : Optim) (g : Nat) : Fin 4 :=
  match o.classes.toList.find? (fun v => bit v 61 && bits v 59 30 ≤ g && g ≤ bits v 29 0) with
  | some v => Fin.ofNat 4 (bits v 63 62)
  | none => 0

/-- The UPDATE watch point of a group (13 R403). -/
def updatePoint (s : State) (g : Nat) : Option Nat :=
  (s.watch.table.find? (fun e => e.2.kind = 3 && e.2.first ≤ g && g ≤ e.2.last)).map (fun e => e.1)

/-- The records of a block written to a slot: W, M1, M2 and R. -/
def writeRecords (s : State) (kind j : Nat) (w m1 m2 r : List Byte) : State :=
  planWrite (planWrite (planWrite (planWrite s (recordAddr s kind 0 j) w) (recordAddr s kind 1 j) m1)
    (recordAddr s kind 2 j) m2) (recordAddr s kind 3 j) r

/-- The new parameters of a block from its gradient and its slot-A records. -/
def newBlock (o : Optim) (k : OptConst) (c : Fin 4) (seed step j : Nat) (g : G16) (w m1 m2 r : List Byte) :
    List ParamNew :=
  (List.range 32).map (fun i =>
    let w0 := elem16 w i
    let r0 := ((r.drop i).headD 0).toNat
    let wa := f32of (pairNum w0 r0)
    writeParam (optRule o k c (f32of (g.num i)) wa (bf16to32 (elem16 m1 i)) (bf16to32 (elem16 m2 i)))
      seed (32 * j + i) step w0 r0 (elem16 m1 i) (elem16 m2 i) wa)

/-- The parameters of a block counted in the engine's tap bank (13 R403): padding is not binned. -/
def binBlock (s : State) (sl : Slice) (j : Nat) (xs : List ParamNew) : State :=
  match updatePoint s (j / 64) with
  | none => s
  | some w =>
    let real := (xs.zipIdx).filter (fun e => 32 * j + e.2 < s.red.pTotal)
    s.modUe sl (fun u => { u with bank := real.foldl (fun b e => (b.count w e.1.bin).1) u.bank })

/-- A block of G dealt with: PARAMS_UPDATED counts its parameters, padding included (10 R320). -/
def Ue.blockDone (u : Ue) : Ue := { u with params := sat64 u.params 32, next := u.next + 1 }

/-- One block updated into slot B (10 R308): poisoned input stops the engine at the block (R314). -/
def updateBlock (o : Optim) (k : OptConst) (s : State) (sl : Slice) (j : Nat) : State :=
  if !(s.slice sl).ue.goes then s
  else
    let s := s.modUe sl (fun u => { u with stripe := blockStripe j / s.modules })
    let a := ownedKind s false
    let b := ownedKind s true
    if s.stripes ≤ blockStripe j then
      (writeRecords s b j (List.replicate 64 0) (List.replicate 64 0) (List.replicate 64 0) (List.replicate 32 0)).modUe sl
        Ue.blockDone
    else
      let (g, bad0, s) := readBlock s j
      let (w, bad1, s) := planRead s (recordAddr s a 0 j) 64
      let (m1, bad2, s) := planRead s (recordAddr s a 1 j) 64
      let (m2, bad3, s) := planRead s (recordAddr s a 2 j) 64
      let (r, bad4, s) := planRead s (recordAddr s a 3 j) 32
      if bad0 || bad1 || bad2 || bad3 || bad4 then s.modUe sl (fun u => { u with poisonAt := some j })
      else
        let xs := newBlock o k (groupClass o (j / 64)) s.dict.jobSeed s.commit.step j g w m1 m2 r
        let s := writeRecords s b j (xs.flatMap (fun x => leBytes 2 x.w)) (xs.flatMap (fun x => leBytes 2 x.m1))
          (xs.flatMap (fun x => leBytes 2 x.m2)) (xs.flatMap (fun x => leBytes 1 x.r))
        let clamps := (xs.map (fun x => x.clamps)).sum
        let s := binBlock (s.modUe sl (fun u => { u.blockDone with clamps := sat64 u.clamps clamps })) sl j xs
        if clamps != 0 && !s.rim.clampRaised then
          raiseUe { s with rim := { s.rim with clampRaised := true } } sl .ueClamp (names [j])
        else s

/-- The owned stripe records of a stack, those that are padding as a whole included (10 R296, R308). -/
def engineBlocks (s : State) (sl : Slice) : List Nat :=
  (List.range s.ownedStripes).flatMap (fun u => stripeBlocks (s.shard + u * s.modules) sl)

/-- An engine goes on with up to n blocks of G (10 R308), with the settings and the constants of the step. -/
def ueRun (s : State) (sl : Slice) (n : Nat) : State :=
  match s.run.ended with
  | [] => s
  | e :: _ =>
    let k := optConst s.rim.optim s.commit.step e.clip e.tokens
    (((engineBlocks s sl).drop (s.slice sl).ue.next).take n).foldl (fun t j => updateBlock s.rim.optim k t sl j) s

/-- One engine begins G (10 R308, R316, R320). -/
def beginUpdate (s : State) (sl : Slice) : State :=
  let (c, s) := draw s
  s.modUe sl (fun u => { u with
    rule := s.rim.optim.rule, ptr := s.commit.ptr = 1, phase := 2, gDone := false, poisonAt := none, stopped := false, next := 0,
    gCycles := sat64 u.gCycles c })

/-- UPDATE_START (01 R18, R27, R31, 10 R309, R313): on COMMIT, with A of the step before complete and the buddy
acknowledgement held, the pending settings take effect and the engines begin. -/
def execUpdateStart (s : State) : Out :=
  match s.run.ended with
  | [] => .next s
  | e :: _ =>
    if e.outcome != .commit || s.run.gRunning || s.run.aRunning || s.life.st != .running || !(s.modules = 1 || s.rim.acked) then .next s
    else
      let s := if s.rim.applySet && s.rim.applyStep == s.commit.step then
        { s with rim := { s.rim with optim := optimPending s, optimNext := [], applySet := false } } else s
      let s := { s with rim := { s.rim with clampRaised := false } }
      .next (allSlices.foldl beginUpdate (s.modRun (fun r => { r with gRunning := true })))

/-- UE_G_COMPLETE (10 R308): the engine deals with the blocks that are left, and reports completion where no poisoned input
and no fault has stopped it. -/
def execUeGComplete (sl : Slice) (s : State) : Out :=
  if (s.slice sl).ue.phase != 2 || (s.slice sl).ue.gDone then .next s
  else
    let s := ueRun s sl (engineBlocks s sl).length
    if (s.slice sl).ue.goes then .next (s.modUe sl (fun u => { u with gDone := true, phase := 0 })) else .next s

/-! ### Update engine faults (10 R314) -/

/-- The engine brought to a block (10 R314): in G it has dealt with those before it. -/
def ueReach (s : State) (sl : Slice) (block : Nat) (cause : Nat) : State :=
  if (s.slice sl).ue.phase != 2 then s
  else
    let i := (engineBlocks s sl).findIdx (fun j => j == block)
    ueRun s sl (i + b2n (cause = 2) - (s.slice sl).ue.next)

/-- Whether the engine processes a block, so that a parity error can strike there: in G one that it has not passed. -/
def ueAt (s : State) (sl : Slice) (block : Nat) : Bool :=
  let u := (s.slice sl).ue
  (engineBlocks s sl).contains block && (u.phase != 2 || u.next ≤ (engineBlocks s sl).findIdx (fun j => j == block))

/-- UE_FAULT (10 R314): parity, or the poisoned input that the engine has met, stops the engine in N, G or A at the block
being processed. -/
def execUeFault (sl : Slice) (cause : Nat) (block : Nat) (s : State) : Out :=
  let u := (s.slice sl).ue
  if u.phase = 0 || u.stopped || !(cause = 1 || cause = 2) || !ueAt s sl block then .next s
  else
    let t := ueReach s sl block cause
    let v := (t.slice sl).ue
    if (cause = 1 && v.poisonAt.isSome) || (cause = 2 && v.poisonAt != some block) then .next s
    else
      let t := t.modUe sl (fun u => { u with
        phase := 0, cause := cause, faults := sat64 u.faults 1, gDone := false, stopped := true })
      .next (raiseUe t sl .ueFault (cause * 2 ^ 62 + block % 2 ^ 36))

end Sys2Proof.Machine
end

