-- ==== Sys2Proof/Machine/Watch.lean ====
section
/-! DEFINITION. Machine/Watch.lean: the numerics watch (13): the tap banks' commands, the summary bits of phase N, the
scales and runs of U, the published scale table and the step report. -/

namespace Sys2Proof.Machine

/-- The state with the watch changed. -/
def State.modWatch (s : State) (f : WatchSt → WatchSt) : State := { s with watch := f s.watch }

/-- The training skillets in ascending logical number (17 R513 SHAPE): those outside the evaluation slice. -/
def trainingPids (s : State) : List Pid :=
  match s.dict.plan with
  | none => []
  | some p => ((List.range 56).filter (fun l => !bit p.slice l)).filterMap (fun l => s.pidOf l)

/-- The skillets of the evaluation slice. -/
def slicePids (s : State) : List Pid :=
  match s.dict.plan with
  | none => []
  | some p => ((List.range 56).filter (fun l => bit p.slice l)).filterMap (fun l => s.pidOf l)

/-- DATA of the watch's events (13 R414). -/
def watchData (s : State) (w step : Nat) : Nat :=
  w % 65536 + (Tab.at s.watch.table w {}).layer % 65536 * 65536 + step % 2 ^ 32 * 2 ^ 32

/-! ### Tap banks (13 R404-R406) -/

/-- The banks of a skillet exchanged: the naming of watch points restarts in the bank put in force (08 R245). -/
def Taps.switch (t : Taps) : Taps :=
  { t with active := { left := t.idle.entries }, idle := t.active, bank := 1 - t.bank }

/-- 64-bit counts added bin by bin. -/
def addBins (a b : Tab Nat) : Tab Nat := b.foldl (fun t e => Tab.put t e.1 (sat64 (Tab.at t e.1 0) e.2)) a

/-- The values that a bank holds under a point. -/
def binTotal (b : Tab Nat) : Nat := (b.map (fun e => e.2)).sum

/-- A skillet's point summed, or discarded where no declared point of its kind has the number (13 R405, R406). -/
def sumPoint (s : State) (e : Nat × Tab Nat) : State :=
  let x := Tab.at s.watch.table e.1 {}
  if x.kind = 0 || x.kind = 3 then
    let n := binTotal e.2
    let first := n != 0 && !s.watch.undeclaredRaised
    let s := s.modWatch (fun w => { w with
      undeclared := sat64 w.undeclared n, undeclaredRaised := w.undeclaredRaised || first })
    if first then raiseMod s .watchUndeclared (watchData s e.1 s.commit.step) else s
  else s.modWatch (fun w => { w with sums := Tab.put w.sums e.1 (addBins (Tab.at w.sums e.1 []) e.2) })

/-- The banks of a skillet are exchanged (13 R405); the steward sums the idle bank of a training skillet once per step. -/
def tapSwitch (s : State) (p : Pid) : State :=
  let s := s.modSk p (fun k => { k with taps := k.taps.switch })
  if (trainingPids s).contains p && !s.watch.read.contains p then
    (s.sk p).taps.idle.points.foldl sumPoint (s.modWatch (fun w => { w with read := w.read ++ [p] }))
  else s

/-- TAP_SWITCH (13 R405). -/
def execTapSwitch (p : Pid) (s : State) : Out :=
  .next (if !s.nodeLive p.val then s else tapSwitch (recvCobalt s p.val) p)

/-- CLEAR_IDLE at a skillet. -/
def clearIdle (s : State) (p : Pid) : State := s.modSk p (fun k => { k with taps := { k.taps with idle := {} } })

/-- CLEAR_ACTIVE at a skillet: the bank stays in force, so TAP_TABLE_FULL is not raised anew (08 R245). -/
def clearActive (s : State) (p : Pid) : State :=
  s.modSk p (fun k => { k with taps := { k.taps with active := { fullRaised := k.taps.active.fullRaised } } })

/-- TAP_CLEAR_IDLE (13 R404). -/
def execTapClearIdle (p : Pid) (s : State) : Out :=
  .next (if !s.nodeLive p.val then s else clearIdle (recvCobalt s p.val) p)
/-- TAP_CLEAR_ACTIVE (13 R404). -/
def execTapClearActive (p : Pid) (s : State) : Out :=
  .next (if !s.nodeLive p.val then s else clearActive (recvCobalt s p.val) p)

/-- Every tap bank cleared and the step's summaries discarded, as a rollback does (13 R406). -/
def clearTaps (s : State) : State :=
  let s := allPids.foldl (fun t p => clearActive (clearIdle t p) p) s
  let s := allSlices.foldl (fun t sl => t.modUe sl (fun u => { u with bank := {} })) s
  s.modWatch (fun w => { w with sums := [], read := [], undeclaredRaised := false })

/-! ### The summary (13 R407, R408) -/

/-- The count of a point's bins from `lo` up. -/
def binsFrom (b : Tab Nat) (lo : Nat) : Nat := binTotal (b.filter (fun e => lo ≤ e.1))

/-- OVER of a point. -/
def overBit (t : Tab WatchEntry) (sums : Tab (Tab Nat)) (w : Nat) : Bool :=
  let e := Tab.at t w {}
  e.kind != 0 && binsFrom (Tab.at sums w []) e.overBin != 0

/-- QUIET of a point with a threshold, evaluated in binary64. -/
def quietBit (threshold : W32) (b : Tab Nat) : Bool :=
  let total := binTotal b
  let low := Tab.at b 0 0 + Tab.at b 1 0
  total != 0 && !Num.lt (f64num (f64nat low)) (f64num (f64mul (f64of32 threshold) (f64nat total)))

/-- 64 bytes of bits, point w in bit w mod 8 of byte w div 8. -/
def packBits (f : Nat → Bool) : List Byte :=
  (List.range 64).map (fun i => BitVec.ofNat 8 (((List.range 8).map (fun k => b2n (f (8 * i + k)) * 2 ^ k)).sum))

/-- Flit bytes 48 to 181 of the module's FUSED frame. -/
def watchSummary (s : State) : List Byte :=
  packBits (overBit s.watch.table s.watch.sums)
    ++ packBits (fun w => (Tab.at s.watch.table w {}).kind != 0 && quietBit s.watch.threshold (Tab.at s.watch.sums w []))
    ++ leBytes 4 s.watch.threshold.toNat ++ leBytes 2 s.watch.quietSteps

/-- A bit of a summary: `at` is 0 for OVER and 64 for QUIET. -/
def summaryBit (bs : List Byte) (base w : Nat) : Bool := bit ((bs.drop (base + w / 8)).headD 0).toNat (w % 8)

/-- The points of a bit that the summaries combine to. -/
def clusterBits (frames : List (List Byte)) (base : Nat) (all : Bool) : List Nat :=
  (List.range 512).filter (fun w => if all then frames.all (fun f => summaryBit f base w) else frames.any (fun f => summaryBit f base w))

/-- QUIET_THRESHOLD and QUIET_STEPS of a frame. -/
def frameThreshold (bs : List Byte) : W32 := BitVec.ofNat 32 (leNat ((bs.drop 128).take 4))
/-- QUIET_STEPS of a frame. -/
def frameQuietSteps (bs : List Byte) : Nat := leNat ((bs.drop 132).take 2)

/-! ### Scales and runs (13 R409-R411) -/

/-- The scale and runs of a point. -/
def runOf (s : State) (w : Nat) : WatchRun := Tab.at s.watch.runs w { k := (Tab.at s.watch.table w {}).kInit }

/-- The scale rule for one point (13 R410): the new run and the event, if any. -/
def scaleRule (e : WatchEntry) (x : WatchRun) (cOver cQuiet : Bool) (steps : Nat) : WatchRun × Option Ev :=
  if cOver then
    if e.policy = 0 then ({ x with crun := 0 }, none)
    else if e.kMin < x.k then ({ x with k := x.k - 1, crun := 0 }, some .scaleLowered)
    else ({ x with crun := 0 }, some .scaleAtLimit)
  else if cQuiet then
    if steps ≤ x.crun + 1 then
      if e.policy = 2 then
        (if x.k < e.kMax then ({ x with k := x.k + 1, crun := 0 }, some .scaleRaised)
         else ({ x with crun := 0 }, some .scaleAtLimit))
      else ({ x with crun := 0 }, none)
    else ({ x with crun := x.crun + 1 }, none)
  else ({ x with crun := 0 }, none)

/-- The scale rule of one point applied in U. -/
def scalePoint (d : Ended) (s : State) (w : Nat) : State :=
  let e := Tab.at s.watch.table w {}
  if e.kind = 0 then s
  else
    let (x, ev) := scaleRule e (runOf s w) (d.cOver.contains w) (d.cQuiet.contains w) d.quietSteps
    let s := s.modWatch (fun c => { c with runs := Tab.put c.runs w x })
    match ev with
    | some v => raiseMod s v (watchData s w d.step)
    | none => s

/-- Whether the U of an ended step changes any scale (13 R411). -/
def scaleMoves (s : State) (d : Ended) : Bool :=
  (List.range 512).any (fun w =>
    let e := Tab.at s.watch.table w {}
    e.kind != 0 && (scaleRule e (runOf s w) (d.cOver.contains w) (d.cQuiet.contains w) d.quietSteps).1.k != (runOf s w).k)

/-- The local run of one point (13 R409), by the values of the step's own summary (13 R415): QUIET_LAYER at each multiple of QUIET_STEPS. -/
def localRun (d : Ended) (s : State) (w : Nat) : State :=
  let e := Tab.at s.watch.table w {}
  let b := Tab.at d.sums w []
  if e.kind = 0 || binTotal b = 0 then s
  else
    let x := runOf s w
    let n := if quietBit d.ownThreshold b then x.lrun + 1 else 0
    let s := s.modWatch (fun c => { c with runs := Tab.put c.runs w { x with lrun := n } })
    if n != 0 && n % max 1 d.ownSteps = 0 then raiseMod s .quietLayer (watchData s w d.step) else s

/-- The scale table in the staging window (13 R411), after the step counter has moved. -/
def publishScales (s : State) : State :=
  let ks := (List.range 512).map (fun w => BitVec.ofInt 8 (runOf s w).k)
  stewardWrite s s.guard.stageBase
    (leBytes 8 s.commit.step ++ List.replicate 8 0 ++ ks ++ List.replicate 3568 0)

/-- The step report (13 R413). -/
def stepReport (s : State) (d : Ended) (outcome : Nat) : State :=
  let row (w : Nat) : WatchReport :=
    let b := Tab.at d.sums w []
    { hist := b, quiet := quietBit d.ownThreshold b, above := w < 512 && overBit s.watch.table d.sums w,
      cOver := d.cOver.contains w, nonfinite := Tab.at b 63 0 != 0 }
  s.modWatch (fun c => { c with
    report := (s.watch.table.filter (fun e => e.2.kind != 0)).map (fun e => (e.1, row e.1)), reportStep := d.step,
    reportOutcome := outcome })

/-- The counts of the update engines added to a step's sums, and their banks cleared (13 R405). -/
def takeUeBanks (s : State) (d : Ended) : Ended × State :=
  let sums := allSlices.foldl (fun t sl => (s.slice sl).ue.bank.points.foldl (fun t e =>
    Tab.put t e.1 (addBins (Tab.at t e.1 []) e.2)) t) d.sums
  ({ d with sums := sums }, allSlices.foldl (fun t sl => t.modUe sl (fun u => { u with bank := {} })) s)

/-- The lowest point with a non-finite value (13 R412). -/
def firstNonfinite (s : State) (sums : Tab (Tab Nat)) : Option Nat :=
  ((s.watch.table.filter (fun e => e.2.kind != 0)).find? (fun e => Tab.at (Tab.at sums e.1 []) 63 0 != 0)).map (fun e => e.1)

/-! ### Entries (13 R415) -/

/-- QUIET_THRESHOLD: OD 6000.01. -/
def wQuietThreshold (r : Req) (s : State) : Nat × State :=
  accept (f32Range (reqF32 r) (numOf 1 (-1)) (numOf 1 0)) s (s.modWatch (fun w => { w with threshold := reqF32 r }))

/-- QUIET_STEPS: OD 6000.02. -/
def wQuietSteps (r : Req) (s : State) : Nat × State :=
  accept (natRange (reqNat r) 1 65535) s (s.modWatch (fun w => { w with quietSteps := reqNat r }))

end Sys2Proof.Machine
end

