-- ==== Sys2Proof/Machine/Reduce.lean ====
section
/-! DEFINITION. Machine/Reduce.lean: the cluster reduction (11): buckets, the two rings, the sampled check with its traces,
the fused records, the watchdog and the reduction's entries. A command whose condition the state does not meet does not
come about. -/

namespace Sys2Proof.Machine

/-! ### Places on the rings (11 R333-R335) -/

/-- The module's place on the X ring or the Y ring, the ring's size, and the place of a stripe's owner on it. -/
def ringPlace (s : State) (yRing : Bool) : Nat := if yRing then s.torus.cy else s.torus.cx
/-- The number of modules of a ring. -/
def ringSize (s : State) (yRing : Bool) : Nat := if yRing then s.torus.y else s.torus.x
/-- The place of a stripe's owner on a ring. -/
def ringOwner (s : State) (yRing : Bool) (t : Nat) : Nat := if yRing then s.yOwner t else s.xOwner t

/-- Whether the module starts a block's ring: it follows the owner in the direction of the block's stack. -/
def ringStarts (s : State) (yRing : Bool) (j : Nat) : Bool :=
  1 < ringSize s yRing
    && ringPlace s yRing == ringNext (ringUp (blockSlice j)) (ringOwner s yRing (blockStripe j)) (ringSize s yRing)

/-- Whether a block's local operand is ready on a ring (11 R335). -/
def ringReady (s : State) (yRing : Bool) (j : Nat) : Bool :=
  let sl := blockSlice j
  match bucketOf s j with
  | none => false
  | some b => if yRing && s.torus.x != 1 then (s.slice sl).red.xDone.contains j else bucketLaunched s b sl

/-- The blocks of a bucket that a slice sends on the Y ring, as their start or with its sum: those of the module's column
whose owner is another module. -/
def ySendBlocks (s : State) (b : Nat) (sl : Slice) : List Nat :=
  if s.torus.y ≤ 1 then []
  else (bucketBlocks s b sl).filter (fun j => !s.padding j && s.xOwner (blockStripe j) == s.torus.cx
    && s.yOwner (blockStripe j) != s.torus.cy)

/-- Whether a slice has sent every Y-ring block of the buckets below b (11 R335). -/
def ySentBelow (s : State) (b : Nat) (sl : Slice) : Bool :=
  (List.range b).all (fun i => (ySendBlocks s i sl).all (fun j => (s.slice sl).red.ySent.contains j))

/-- A block sent on the Y ring and noted. -/
def sendY (s : State) (sl : Slice) (hop j : Nat) (g : G16) : State :=
  (sendRing s sl true hop j g).modRedSl sl (fun r => { r with ySent := r.ySent ++ [j] })

/-- The Y-ring blocks that start at this module are sent, bucket by bucket, as far as they are ready (11 R334, R335). -/
def sendYReady (s : State) (sl : Slice) : State :=
  (List.range s.red.buckets.length).foldl (fun t b =>
    if !ySentBelow t b sl then t
    else ((ySendBlocks t b sl).filter (fun j => ringStarts t true j)).foldl (fun t j =>
      if (t.slice sl).red.ySent.contains j || !ringReady t true j then t
      else
        let (g, t) := takeBlock t j
        sendY t sl 0 j g) t) s

/-! ### Traces and checks (11 R342-R346) -/

/-- An adder's output on a traced block: kept here by the owner, sent to it by any other module (11 R346). -/
def traceOutput (s : State) (hop j : Nat) (g : G16) : State :=
  if !s.red.traces.contains j then s
  else if s.ownsBlock j then s.modRed (fun r => { r with traceOuts := r.traceOuts ++ [⟨j, s.shard, g⟩] })
  else sendToOwner s 6 hop j g

/-- The held copy of a block by a shard. -/
def copyOf (s : State) (j shard : Nat) : Option G16 :=
  ((s.slice (blockSlice j)).red.checks.find? (fun c => c.block = j && c.shard = shard)).map (fun c => c.g)

/-- The places of a ring in the order of addition, from the owner's successor to the owner (11 R334). -/
def ringOrder (up : Bool) (owner n : Nat) : List Nat :=
  (List.range n).map (fun i => if up then (owner + 1 + i) % max 1 n else (owner + 2 * n - 1 - i) % max 1 n)

/-- The fold of a list of blocks under R325; none where one is missing. -/
def foldBlocks : List (Option G16) → Option G16
  | [] => none
  | a :: r => r.foldl (fun x y => match x, y with
    | some g, some h => some (G16.add g h)
    | _, _ => none) a

/-- The additions of such a fold that newly set SAT or SOVF (11 R326). -/
def foldSats : List (Option G16) → Nat
  | [] => 0
  | a :: r => (r.foldl (fun (x : Option G16 × Nat) y => match x.1, y with
    | some g, some h => (some (G16.add g h), x.2 + b2n (G16.newlySat g h))
    | _, _ => (none, x.2)) (a, 0)).2

/-- The copies of a block in row y in the order of the X ring. -/
def rowCopies (s : State) (j y : Nat) : List (Option G16) :=
  (ringOrder (ringUp (blockSlice j)) (s.xOwner (blockStripe j)) s.torus.x).map (fun x => copyOf s j (x + s.torus.x * y))

/-- The row fold of a block in row y. -/
def rowFold (s : State) (j y : Nat) : Option G16 := foldBlocks (rowCopies s j y)

/-- The rows of a block in the order of the Y ring. -/
def foldRows (s : State) (j : Nat) : List Nat := ringOrder (ringUp (blockSlice j)) (s.yOwner (blockStripe j)) s.torus.y

/-- The fold of all copies of a block in the order of R334. -/
def fullFold (s : State) (j : Nat) : Option G16 := foldBlocks ((foldRows s j).map (fun y => rowFold s j y))

/-- The saturations that the check adder's fold of a block newly sets. -/
def fullFoldSats (s : State) (j : Nat) : Nat :=
  ((foldRows s j).map (fun y => foldSats (rowCopies s j y))).sum + foldSats ((foldRows s j).map (fun y => rowFold s j y))

/-- An adder on a block's path: who it is, its output before it, its local operand and its output. -/
structure PathAdder where
  who : NamedAdder
  before : Option G16
  local_ : Option G16
  out : Option G16
  deriving DecidableEq, Repr

/-- The output of the n-th adder of a module on a block's path: a module that adds on both rings sends its X output
first. -/
def traceAt (s : State) (j shard n : Nat) : Option G16 :=
  ((s.red.traceOuts.filter (fun t => t.block = j && t.shard = shard))[n]?).map (fun t => t.g)

/-- The adders of one ring pass: `places` in order of addition with the shard, the local operand and the index of the
output of each. The first place only sends. -/
def ringPath (s : State) (j : Nat) : Option G16 → List (Nat × Option G16 × Nat) → List PathAdder
  | _, [] => []
  | prev, (shard, loc, n) :: r =>
    let out := traceAt s j shard n
    ⟨⟨shard, if r.isEmpty then 1 else 0, (blockSlice j).val⟩, prev, loc, out⟩ :: ringPath s j out r

/-- The adders after the start of a ring pass. -/
def passPath (s : State) (j : Nat) (xs : List (Nat × Option G16 × Nat)) : List PathAdder :=
  match xs with
  | [] => []
  | (_, loc, _) :: r => ringPath s j loc r

/-- Every adder on a block's path in order: the X ring of each row in the order of the Y ring, then the Y ring. -/
def tracePath (s : State) (j : Nat) : List PathAdder :=
  let t := blockStripe j
  let up := ringUp (blockSlice j)
  let xs := ringOrder up (s.xOwner t) s.torus.x
  let ys := ringOrder up (s.yOwner t) s.torus.y
  let shard (x y : Nat) : Nat := x + s.torus.x * y
  ys.flatMap (fun y => passPath s j (xs.map (fun x => (shard x y, copyOf s j (shard x y), 0))))
    ++ passPath s j (ys.map (fun y => (shard (s.xOwner t) y, rowFold s j y, if s.torus.x = 1 then 0 else 1)))

/-- What a path says so far: the first hop that fails, every hop holds, or a hop is still missing (11 R346). -/
inductive Finding where
  | fails (who : NamedAdder)
  | holds
  | missing
  deriving DecidableEq, Repr

/-- The finding on a path. -/
def judgePath : List PathAdder → Finding
  | [] => .holds
  | a :: r => match a.before, a.local_, a.out with
    | some p, some l, some o => if G16.add p l = o then judgePath r else .fails a.who
    | _, _, _ => .missing

/-- The port of a link adder of this module: the receiving port of the stack's direction on a ring (11 R333). -/
def adderPort (s : State) (sl : Slice) (yRing : Bool) : Option Slice :=
  atPosition s (ringBundle yRing (!ringUp sl)) (sl.val / 2)

/-- An adder named by a trace (11 R346): a suspect, and the second time out of service. A port of this module leaves as a
failed one and is HELD as RETIRED (12 R381). -/
def nameAdder (s : State) (j : Nat) (a : NamedAdder) : State :=
  let sl := blockSlice j
  let s := raiseMc s sl .reduceAdderSuspect (names [s.commit.step, j, a.shard, a.kind, a.slice])
  if !s.red.named.contains a then s.modRed (fun r => { r with named := r.named ++ [a] })
  else if a.kind = 0 then
    let s := raiseMc s sl .linkAdderRetired (names [a.shard, a.slice])
    if a.shard != s.shard then s
    else match adderPort s sl (s.xOwner (blockStripe j) == s.torus.cx && s.torus.y != 1) with
      | none => s
      | some n =>
        let s := failPort s n
        if (s.port n).st == .held then s else retirePort s n
  else if a.shard = s.shard then raiseMc s sl .reduceAdderFailed (names [a.kind, a.slice])
  else s

/-- The finding on a traced block, once there is one (11 R346). `failed` says that the final comparison has failed. -/
def judgeTrace (s : State) (j : Nat) (failed : Bool) : State :=
  if !s.red.traces.contains j || s.red.judged.contains j then s
  else
    let done (s : State) : State := s.modRed (fun r => { r with judged := r.judged ++ [j] })
    match judgePath (tracePath s j) with
    | .fails a => nameAdder (done s) j a
    | .holds => if failed then nameAdder (done s) j ⟨s.shard, 2, (blockSlice j).val⟩ else s
    | .missing => s

/-! ### Launch (11 R331, R334, R343) -/

/-- A copy kept in a slice's check store, or discarded where it is full (11 R343, R345). -/
def storeCopy (s : State) (c : CheckCopy) : State :=
  let sl := blockSlice c.block
  let r := (s.slice sl).red
  if r.checks.length < 2000000 then s.modRedSl sl (fun r => { r with checks := r.checks ++ [c] })
  else
    let first := !allSlices.any (fun x => (s.slice x).red.storeFullRaised)
    let s := if r.skipped.contains c.block then s
      else (s.modRedSl sl (fun r => { r with skipped := r.skipped ++ [c.block] })).modRed
        (fun m => { m with checkSkipped := sat64 m.checkSkipped 1 })
    if first then raiseMc (s.modRedSl sl (fun r => { r with storeFullRaised := true })) sl .checkStoreFull
      (names [s.commit.step, c.block])
    else s

/-- The copy of a sampled block at launch (11 R343). -/
def sendCopy (s : State) (j : Nat) : State :=
  let (g, s) := takeBlock s j
  if s.ownsBlock j then storeCopy s ⟨j, s.shard, g⟩ else sendToOwner s 5 0 j g

/-- The ring starts of a launched bucket. -/
def launchRings (s : State) (sl : Slice) (blocks : List Nat) : State :=
  if s.torus.x ≤ 1 then sendYReady s sl
  else (blocks.filter (fun j => ringStarts s false j)).foldl (fun t j =>
    let (g, t) := takeBlock t j
    sendRing t sl false 0 j g) s

/-- BUCKET_LAUNCH (11 R331): in bucket order, once the share is complete and applied. The owner's padding blocks are
written as zero; with M = 1 the owned blocks are final at once. -/
def execBucketLaunch (sl : Slice) (b : Nat) (s : State) : Out :=
  let r := (s.slice sl).red
  let all := bucketBlocks s b sl
  if !s.run.active || b != r.launched || s.red.buckets.length ≤ b || !bucketComplete s b sl
      || r.queue.any (fun o => all.contains o.block) then .next s
  else
    let real := all.filter (fun j => !s.padding j)
    let s := noteProgress (s.modRedSl sl (fun r => { r with launched := r.launched + 1 })) 0
    let s := (all.filter (fun j => s.padding j && s.ownsBlock j)).foldl (fun t j => finalize (writeBlock t j G16.zero) sl j) s
    if s.modules = 1 then .next (real.foldl (fun t j => finalize t sl j) s)
    else .next ((real.filter (sampled s)).foldl sendCopy (launchRings s sl real))

/-! ### The rings (11 R334-R336) -/

/-- The blocks that wait in a port's reduction buffer. -/
def heldAt (s : State) (port : Slice) : Nat :=
  (allSlices.map (fun sl => ((s.slice sl).red.held.filter (fun h => h.port = port.val)).length)).sum

/-- Whether the module still awaits a block's partial sum on a ring in this run of the step (11 R334): the one that starts
the block's ring gets none, every other gets one. -/
def sumAwaited (s : State) (yRing : Bool) (j : Nat) : Bool :=
  !ringStarts s yRing j && !(s.slice (blockSlice j)).red.passed.contains (j, yRing)

/-- A frame leaves the landing store and keeps its place (12 R371): its blocks wait in the reduction buffer. -/
def takeLanded (s : State) (port : Slice) (k : Nat) : State :=
  s.modPort port (fun p => { p with landing := p.landing.eraseIdx k })

/-- RS_RECEIVED (11 R334, R335, R338). A partial sum of a block whose sum has come already belongs to the next run of the
step and waits for it. -/
def execRsReceived (port : Slice) (k : Nat) (s : State) : Out :=
  match landedReduce s port k [1, 2] with
  | none => .next s
  | some c =>
    if staleFrame s c [s.commit.step] then .next (dropStale s port k)
    else
      let bs := frameBlocks c
      if !s.run.active || 1024 < heldAt s port + bs.length || bs.any (fun e => !sumAwaited s (c.kind == 2) e.1) then .next s
      else
        let s := takeLanded s port k
        .next (noteProgress (bs.foldl (fun t e => t.modRedSl (blockSlice e.1) (fun r => { r with
          held := r.held ++ [⟨c.kind = 2, port.val, c.block, c.hop, e.1, e.2⟩],
          passed := r.passed ++ [(e.1, c.kind == 2)] })) s) 0)

/-- A held block leaves its reduction buffer; the place of its frame is free once the frame's last block has left. -/
def leaveHeld (s : State) (sl : Slice) (k : Nat) (h : RingHeld) : State :=
  let s := s.modRedSl sl (fun r => { r with held := r.held.eraseIdx k })
  let more := allSlices.any (fun x => (s.slice x).red.held.any (fun o =>
    o.port = h.port && o.yRing == h.yRing && o.first = h.first))
  if more then s else freePlace s (sliceOf h.port) .vermilion

/-- A block added at a link adder and counted (11 R326, 12 R396). -/
def countLinkAdd (s : State) (port : Slice) (a b : G16) : State :=
  let up := b2n (G16.raised a b)
  let s := s.modPort port (fun p => { p with linkAdds := sat64 p.linkAdds 1, linkRaises := sat64 p.linkRaises up })
  s.modRed (fun r => { r with
    linkAdds := sat64 r.linkAdds 1, linkRaises := sat64 r.linkRaises up,
    blocksSaturated := sat64 r.blocksSaturated (b2n (G16.newlySat a b)) })

/-- LINK_ADD (11 R334-R336): at the owner's place the sum goes to the adder of the memory controller; elsewhere the local
block is added and the sum sent on. -/
def execLinkAdd (sl : Slice) (k : Nat) (s : State) : Out :=
  match (s.slice sl).red.held[k]? with
  | none => .next s
  | some h =>
    let owner := ringPlace s h.yRing == ringOwner s h.yRing (blockStripe h.block)
    let below := match bucketOf s h.block with | some b => ySentBelow s b sl | none => false
    if !ringReady s h.yRing h.block || (h.yRing && !owner && !below) then .next s
    else
      let s := leaveHeld s sl k h
      if owner then .next (queueRa s sl ⟨h.block, true, 64, h.g⟩)
      else
        let (loc, s) := takeBlock s h.block
        let out := G16.add h.g loc
        let s := countLinkAdd s (sliceOf h.port) h.g loc
        let s := if h.yRing then sendYReady (sendY s sl (h.hop + 1) h.block out) sl
          else sendRing s sl false (h.hop + 1) h.block out
        .next (traceOutput s (h.hop + 1) h.block out)

/-- LINK_ADDER_PARITY (11 R336): the block at the adder is not forwarded. -/
def execLinkAdderParity (port : Slice) (s : State) : Out :=
  let s := match allSlices.find? (fun sl => (s.slice sl).red.held.any (fun h => h.port = port.val)) with
    | none => s
    | some sl =>
      let held := (s.slice sl).red.held
      match held.findIdx? (fun h => h.port = port.val) with
      | none => s
      | some k => match held[k]? with
        | some h => leaveHeld s sl k h
        | none => s
  .next (raisePort s port .linkAdderParity (names [s.commit.step, port.val]))

/-- A ring's delivery written by the owner's adder (11 R334): the X delivery makes a row sum, the last one a final block. -/
def ringDelivered (s : State) (sl : Slice) (j : Nat) : State :=
  let x := s.torus.x != 1 && !(s.slice sl).red.xDone.contains j
  let s := traceOutput s ((if x then s.torus.x else s.torus.y) - 1) j (peekBlock s j)
  if x then
    let s := s.modRedSl sl (fun r => { r with xDone := r.xDone ++ [j] })
    if s.torus.y = 1 then finalize s sl j else sendYReady s sl
  else finalize s sl j

/-- RA_BLOCK_OP (10 R304, R305): the next operation on a block, once the earlier ones have written back. -/
def execRaBlockOp (sl : Slice) (block : Nat) (s : State) : Out :=
  match takeRa s sl block with
  | none => .next s
  | some (o, s) =>
    let s := applyRa s sl o
    .next (if o.src = 64 then ringDelivered s sl block else s)

/-- Whether a port still holds a ring block of a bucket for a slice: landed, waiting to be sent or unacknowledged. -/
def portHolds (s : State) (b : Nat) (sl : Slice) (p : Port) : Bool :=
  let of (c : Content) : Bool := c.ftype == .reduce && (c.kind = 1 || c.kind = 2) && c.repoch == s.red.epoch
    && c.step == s.commit.step % 65536 && blockSlice c.block == sl && bucketOf s c.block == some b
  p.landing.any of || p.tx.any of || p.lanes.any (fun e => e.2.replay.any (fun x => of x.content))

/-- BUCKET_REDUCED (11 R331): final at its owner, and nothing of it held or unacknowledged. The module's last one begins
the waits of phase N. -/
def execBucketReduced (sl : Slice) (b : Nat) (s : State) : Out :=
  let r := (s.slice sl).red
  let all := bucketBlocks s b sl
  if !(b < r.launched) || r.reduced.contains b
      || (all.filter (fun j => s.ownsBlock j)).any (fun j => !r.final.contains j)
      || r.held.any (fun h => all.contains h.block) || r.queue.any (fun o => all.contains o.block)
      || (List.finRange 32).any (fun n => portHolds s b sl (s.port n)) then .next s
  else
    let s := s.modRedSl sl (fun r => { r with reduced := r.reduced ++ [b] })
    .next (if allReduced s then noteProgress (noteProgress (noteProgress s 1) 2) 3 else s)

/-! ### The check (11 R343-R346) -/

/-- CHECK_RECEIVED (11 R343, R345): a copy of a sampled owned block is stored, or discarded at a full store. -/
def execCheckReceived (port : Slice) (k : Nat) (s : State) : Out :=
  match landedReduce s port k [5] with
  | none => .next s
  | some c =>
    if staleFrame s c [s.commit.step] then .next (dropStale s port k)
    else
      let bs := frameBlocks c
      let known (j : Nat) : Bool := (s.slice (blockSlice j)).red.compared.contains j || (copyOf s j c.origin).isSome
      if !s.run.active || bs.any (fun e => known e.1) then .next s
      else
        let s := noteProgress (dropLanded s port k) 1
        .next ((bs.filter (fun e => s.ownsBlock e.1 && sampled s e.1)).foldl (fun t e => storeCopy t ⟨e.1, c.origin, e.2⟩) s)

/-- CHECK_COMPARE (11 R344, R346). -/
def execCheckCompare (sl : Slice) (block : Nat) (s : State) : Out :=
  let r := (s.slice sl).red
  if !s.run.active || blockSlice block != sl || !s.ownsBlock block || !sampled s block || r.compared.contains block
      || r.skipped.contains block || !r.final.contains block then .next s
  else match fullFold s block with
    | none => .next s
    | some f =>
      let sats := fullFoldSats s block
      let (g, s) := takeBlock s block
      let s := s.modRed (fun m => { m with blocksSaturated := sat64 m.blocksSaturated sats })
      let s := noteProgress (s.modRedSl sl (fun r => { r with compared := r.compared ++ [block] })) 1
      let s := s.modRed (fun m => { m with checked := sat64 m.checked 1 })
      if f = g then .next (judgeTrace s block false)
      else
        let s := s.modRed (fun m => { m with
          mismatches := sat64 m.mismatches 1,
          tracesNew := if m.tracesNew.contains block then m.tracesNew else m.tracesNew ++ [block] })
        .next (judgeTrace (raiseMc s sl .reduceMismatch (s.commit.step % 65536 * 2 ^ 36 + block % 2 ^ 36)) block true)

/-- TRACE_RECEIVED (11 R346). -/
def execTraceReceived (port : Slice) (k : Nat) (s : State) : Out :=
  match landedReduce s port k [6] with
  | none => .next s
  | some c =>
    if staleFrame s c [s.commit.step] then .next (dropStale s port k)
    else if !s.run.active then .next s
    else
      .next ((frameBlocks c).foldl (fun t e =>
        judgeTrace (t.modRed (fun r => { r with traceOuts := r.traceOuts ++ [⟨e.1, c.origin, e.2⟩] })) e.1
          ((t.red.tracesNew).contains e.1)) (dropLanded s port k))

/-! ### Phase N: the fused record (11 R347-R350) -/

/-- The slices of a side. -/
def sideSlices (side : Fin 4) : List Slice := (List.range 8).map (fun i => sliceOf (8 * side.val + i))

/-- FUSE (11 R348): a rim strip whose eight update engines are done sends its sum, count and flags. -/
def execFuse (side : Fin 4) (s : State) : Out :=
  let sls := sideSlices side
  if !s.run.active || !s.nodeLive (64 + side.val) || (vget s.red.fuse side).isSome || s.red.buckets.isEmpty || !sls.all (fun sl => ueDone s sl) then .next s
  else
    let us := sls.map (fun sl => (s.slice sl).ue)
    let m : FuseMsg :=
      { sumsq := us.foldl (fun a u => f64add a u.sumsq) 0, blocks := (us.map (fun u => u.blocks)).sum,
        flags := b2n (us.any (fun u => u.nonfinite)) + 2 * b2n (us.any (fun u => u.sat)) + 4 * b2n (us.any (fun u => u.sovf)) }
    .next ((countSent s (64 + side.val)).modRed (fun r => { r with fuse := vset r.fuse side (some m) }))

/-- The 48 bytes of a fused record (11 R349). -/
def Fused.bytes (f : Fused) (epoch : Nat) : List Byte :=
  leBytes 8 f.step ++ leBytes 8 f.sumsq.toNat ++ leBytes 8 f.loss.toNat ++ leBytes 8 f.tokens
    ++ leBytes 8 (f.clipNorm.toNat * 2 ^ 32 + f.skipLimit * 2 ^ 16 + f.flags)
    ++ leBytes 8 (epoch * 1024 + f.shard)

/-- A fused record with the watch bits from a frame's flit. -/
def fusedOf (bs : List Byte) : Fused :=
  let w4 := word64 bs 32
  { step := word64 bs 0, sumsq := w64 (word64 bs 8), loss := w64 (word64 bs 16), tokens := word64 bs 24,
    clipNorm := BitVec.ofNat 32 (bits w4 63 32), skipLimit := bits w4 31 16, flags := bits w4 3 0,
    shard := bits (word64 bs 40) 9 0, watch := (bs.drop 48).take 134 }

/-- A fused record sent on a ring (11 R350, 12 R379). -/
def sendFused (s : State) (yRing : Bool) (hop : Nat) (f : Fused) : State :=
  sendBundle s (if yRing then .yp else .xp) 0
    { reduceFrame s 9 f.step hop 0 0 0 .vermilion [] (f.bytes s.red.epoch ++ f.watch) 0 with origin := f.shard }

/-- The module's row goes round the Y ring once all of it is held (11 R350). -/
def sendRow (s : State) : State :=
  let mine := (List.range s.torus.x).map (fun x => x + s.torus.x * s.torus.cy)
  if s.red.xRound || s.torus.y ≤ 1 || !mine.all (fun k => (Tab.find s.red.gathered k).isSome) then s
  else
    let s := s.modRed (fun r => { r with xRound := true })
    (mine.filterMap (fun k => Tab.find s.red.gathered k)).foldl (fun t f => sendFused t true 0 f) s

/-- Whether every sampled owned block has been compared or skipped (11 R344, R345). -/
def checksDone (s : State) : Bool :=
  allSlices.all (fun sl => (ownedSampled s sl).all (fun j =>
    (s.slice sl).red.compared.contains j || (s.slice sl).red.skipped.contains j))

/-- The loss records of the training skillets (11 R349): sum, tokens and the non-finite flag. -/
def lossSums (s : State) : W64 × Nat × Bool :=
  (trainingPids s).foldl (fun a p =>
    let h := s.wh p
    (f64add a.1 h.lossSum, a.2.1 + h.lossTokens, a.2.2 || h.lossNonfinite)) (0, 0, false)

/-- The module's fused record. -/
def formFused (s : State) : Fused :=
  let (loss, tokens, nf) := lossSums s
  let ms := s.red.fuse.toList.filterMap (fun m => m)
  let flag (i : Nat) : Nat := b2n (ms.any (fun m => bit m.flags i))
  { step := s.commit.step, sumsq := ms.foldl (fun a m => f64add a m.sumsq) 0, loss := loss, tokens := tokens % 2 ^ 64,
    clipNorm := s.red.clipStep, skipLimit := s.red.skipStep,
    flags := b2n nf + 2 * flag 0 + 4 * flag 1 + 8 * flag 2, shard := s.shard, watch := watchSummary s }

/-- FUSED_RECORD_FORM (11 R349, R350, 13 R407, 15 R460). -/
def execFusedRecordForm (s : State) : Out :=
  if !s.run.active || s.red.sent || !s.red.fuse.toList.all (fun m => m.isSome) || !allReduced s || !checksDone s
      || !(trainingPids s).all (fun p => s.watch.read.contains p) || !(s.modules = 1 || s.rim.acked) then .next s
  else
    let f := formFused s
    let s := (trainingPids s).foldl (fun t p => clearLoss (recvCobalt t p.val) p) s
    let s := s.modRed (fun r => { r with sent := true, gathered := Tab.put r.gathered f.shard f })
    .next (sendRow (if 1 < s.torus.x then sendFused s false 0 f else s))

/-- FUSED_RECEIVED (11 R350): gathered and passed on round its ring. A record that is already held belongs to the next run
of the step. -/
def execFusedReceived (port : Slice) (k : Nat) (s : State) : Out :=
  match landedReduce s port k [9] with
  | none => .next s
  | some c =>
    if staleFrame s c [s.commit.step] then .next (dropStale s port k)
    else
      let f := fusedOf c.bytes
      if !s.run.active || (Tab.find s.red.gathered f.shard).isSome then .next s
      else
        let s := noteProgress (dropLanded s port k) 2
        let s := s.modRed (fun r => { r with gathered := Tab.put r.gathered f.shard f })
        let yRing := f.shard / max 1 s.torus.x != s.torus.cy
        let s := if c.hop + 2 < ringSize s yRing then sendFused s yRing (c.hop + 1) f else s
        .next (sendRow s)

/-! ### The watchdog (11 R339, R340) -/

/-- The shards of the torus. -/
def allShards (s : State) : List Nat := List.range s.modules

/-- Whether an all-wait point waits, and the contributors it misses. -/
def waitingAt (s : State) (point : Fin 6) : Bool × List Nat :=
  match point.val with
  | 0 => (s.run.active && allSlices.any (fun sl =>
      let r := (s.slice sl).red
      !r.held.isEmpty || r.reduced.length < r.launched), allSlices.filterMap (fun sl =>
        let r := (s.slice sl).red
        if !r.held.isEmpty || r.reduced.length < r.launched then some sl.val else none))
  | 1 => (s.run.active && allReduced s && !s.red.sent && !checksDone s,
      (allShards s).filter (fun k => allSlices.any (fun sl => (ownedSampled s sl).any (fun j => (copyOf s j k).isNone))))
  | 2 => (s.run.active && s.red.sent && s.red.gathered.length < s.modules,
      (allShards s).filter (fun k => (Tab.find s.red.gathered k).isNone))
  | 3 => (1 < s.modules && s.commit.loaded && s.life.st == .running && !s.rim.acked,
      [if s.torus.x = 1 then neighbourCoord s.torus .yp else neighbourCoord s.torus .xp])
  | 4 => (s.run.aRunning && 1 < s.modules, (allBundles.filter (bundleUsed s.torus)).map (neighbourCoord s.torus))
  | _ => (s.recov.phase = 4, (allShards s).filter (fun k => ((Tab.find s.recov.states k).filter (fun x => x.n == s.recov.n)).isNone))

/-- WATCHDOG_STALL (11 R340): once per step and point, and once per recovery for its gather; nothing else changes. -/
def execWatchdogStall (point : Fin 6) (s : State) : Out :=
  let (waits, missing) := waitingAt s point
  let raised := if point.val = 5 then s.recov.stallRaised else s.run.stallRaised.contains point.val
  if !waits || raised || s.time.ticks < vget s.run.progress point + s.red.stallLimit then .next s
  else
    let s := s.modRed (fun r => { r with watchdogExpiries := sat64 r.watchdogExpiries 1 })
    let s := if point.val = 5 then { s with recov := { s.recov with stallRaised := true } }
      else s.modRun (fun r => { r with stallRaised := r.stallRaised ++ [point.val] })
    .next (raiseMod s .watchdogStall (names (point.val :: missing)))

/-- WATCHDOG_STEP (11 R340): once per run of a step. -/
def execWatchdogStep (s : State) : Out :=
  if !s.run.active || s.run.stepRaised || s.time.ticks < s.run.begin_ + s.red.stepLimit then .next s
  else
    let s := s.modRed (fun r => { r with watchdogExpiries := sat64 r.watchdogExpiries 1 })
    .next (raiseMod (s.modRun (fun r => { r with stepRaised := true })) .watchdogStep (names [s.commit.step]))

/-! ### Reset of the reduction and the start of a step (11 R331, R341, 01 R18) -/

/-- The reduction of a slice as a step begins (11 R331, R341). What the all-gather and the buddy copy hold stays. -/
def RedSlice.cleared (r : RedSlice) : RedSlice :=
  { agStep := r.agStep, agGot := r.agGot, agSent := r.agSent, buddyStep := r.buddyStep,
    buddyGot := r.buddyGot }

/-- The places of the held frames of a slice are free. -/
def freeHeld (s : State) (sl : Slice) : State :=
  ((s.slice sl).red.held).foldl (fun t h =>
    match (t.slice sl).red.held.findIdx? (fun o => o = h) with
    | some k => leaveHeld t sl k h
    | none => t) s

/-- The reduction state returns to the start of a step (11 R331, R341); pending trace requests survive. -/
def resetReduction (s : State) : State :=
  let s := allSlices.foldl freeHeld s
  let s := allSlices.foldl (fun t sl => t.modSlice sl (fun x => { x with
    red := x.red.cleared,
    ue := { x.ue with
      sumsq := 0, blocks := 0, nonfinite := false, sat := false, sovf := false, phase := if x.ue.phase = 1 then 0 else x.ue.phase,
      poisonAt := if x.ue.phase = 3 then x.ue.poisonAt else none, stopped := x.ue.stopped && x.ue.phase == 3 } })) s
  s.modRed (fun r => { r with
    fuse := Vector.replicate 4 none, gathered := [], sent := false, xRound := false, traceOuts := [], judged := [],
    traces := r.traces ++ r.tracesNew.filter (fun j => !r.traces.contains j), tracesNew := [] })

/-- The buckets with a ready task, in descending number (11 R354). -/
def readyBuckets (s : State) : List Nat :=
  ((List.range s.red.buckets.length).filter (fun b => ((s.red.buckets[b]?).map (fun e => e.readyEn)).getD false)).reverse

/-- F of a step begins (01 R18, R24, 11 R340, R352, R360): the policy and the divisor of the step are fixed and the ready
tasks wait; `now` says that the replica is already complete (R354). -/
def beginStep (s : State) (now : Bool) : State :=
  let s := resetReduction s
  let s := s.modRed (fun r => { r with clipStep := r.clipNorm, skipStep := r.skipLimit, divisorStep := r.divisor })
  let s := s.modWatch (fun w => { w with sums := [], read := [], undeclaredRaised := false })
  s.modRun (fun r => { r with
    active := true, begin_ := s.time.ticks, stepRaised := false, stallRaised := [],
    progress := Vector.replicate 6 s.time.ticks, ready := readyBuckets s, readyNow := now })

/-! ### Entries (11 R352, R356, R360) -/

/-- CLIP_NORM (11 R352): the finiteness check comes first. -/
def wClipNorm (r : Req) (s : State) : Nat × State :=
  let v := reqF32 r
  accept (if !(f32num v).isFin then stInconsistent else if Num.lt (f32num v) (numOf 0 0) then stBelow else 0) s
    (s.modRed (fun x => { x with clipNorm := v }))

/-- CLIP_NORM_WRITE: OD 6100.01. -/
def execClipNormWrite (r : Req) (s : State) : Out := .next (serveWrite s r 0x6100 1 wClipNorm)

/-- SKIP_LIMIT (11 R352). -/
def wSkipLimit (r : Req) (s : State) : Nat × State :=
  accept (natRange (reqNat r) 0 1024) s (s.modRed (fun x => { x with skipLimit := reqNat r }))

/-- SKIP_LIMIT_WRITE: OD 6100.02. -/
def execSkipLimitWrite (r : Req) (s : State) : Out := .next (serveWrite s r 0x6100 2 wSkipLimit)

/-- ORDERED (11 R356). -/
def wOrdered (r : Req) (s : State) : Nat × State :=
  if s.life.st == .ready || s.life.st == .paused || s.life.st == .service then
    (0, { s with mesh := { s.mesh with ordered := reqNat r = 1 } })
  else (stWrongState, s)

/-- ORDERED_WRITE: OD 6101.01. -/
def execOrderedWrite (r : Req) (s : State) : Out := .next (serveWrite s r 0x6101 1 wOrdered)

/-- CHECK_DIVISOR (11 R360): range, then a power of two. -/
def wCheckDivisor (r : Req) (s : State) : Nat × State :=
  let n := reqNat r
  let st := match natRange n 16 4096 with
    | 0 => if (List.range 13).any (fun i => n = 2 ^ i) then 0 else stInconsistent
    | st => st
  accept st s (s.modRed (fun x => { x with divisor := n }))

/-- CHECK_DIVISOR_WRITE: OD 6101.02. -/
def execCheckDivisorWrite (r : Req) (s : State) : Out := .next (serveWrite s r 0x6101 2 wCheckDivisor)

/-- REDUCE_EPOCH (11 R360): in RECOVERING and READY. -/
def wReduceEpoch (r : Req) (s : State) : Nat × State :=
  if s.life.st == .recovering || s.life.st == .ready then (0, s.modRed (fun x => { x with epoch := reqNat r }))
  else (stWrongState, s)

/-- REDUCE_EPOCH_WRITE: OD 6105.01. -/
def execReduceEpochWrite (r : Req) (s : State) : Out := .next (serveWrite s r 0x6105 1 wReduceEpoch)

/-- STALL_LIMIT: OD 6102.01. -/
def wStallLimit (r : Req) (s : State) : Nat × State :=
  accept (natRange (reqNat r) 10000 4000000000) s (s.modRed (fun x => { x with stallLimit := reqNat r }))

/-- STEP_LIMIT: OD 6102.02. -/
def wStepLimit (r : Req) (s : State) : Nat × State :=
  accept (natRange (reqNat r) 1000000 1099511627776) s (s.modRed (fun x => { x with stepLimit := reqNat r }))

end Sys2Proof.Machine
end

