-- ==== Sys2Proof/Machine/PowerOps.lean ====
section
/-! DEFINITION. Machine/PowerOps.lean: the shared operations of power and heat (14): levels and ceilings, the estimate,
compute domains, the cap in force and the reload of a skillet. -/

namespace Sys2Proof.Machine

/-- An event of a skillet's monitor (15 R450). -/
def raiseMon (s : State) (p : Pid) (ev : Ev) (data : Nat) : State := raiseSk s p 7 ev data

/-- Whether the power controller runs (14 R441): from the end of STEWARD_BOOT on. -/
def State.controls (s : State) : Bool := !(s.life.st == .off || s.life.st == .stewardBoot)

/-- Whether a period of a length begins (14 R539): its number differs from that of the last one begun. -/
def periodDue (s : State) (last : Option Nat) (len : Nat) : Bool := last != some (s.time.count / len)

/-- The number of the present period. -/
def periodNow (s : State) (len : Nat) : Option Nat := some (s.time.count / len)

/-! ### Levels (14 R417-R419) -/

/-- The frequency of a level in MHz. -/
def levelMhz (l : Nat) : Nat :=
  if l ≤ 15 then 500 else [650, 800, 950, 1100, 1200, 1300, 1400, 1500].getD (l - 16) 1500

/-- The voltage of a level in 10 mV. -/
def levelVolt (l : Nat) : Nat := if l ≤ 15 then 55 else [58, 62, 66, 70, 75, 80, 84, 88].getD (l - 16) 88

/-- The issue slots of a level in sixteenths. -/
def levelSlots (l : Nat) : Nat := if l ≤ 15 then l + 1 else 16

/-- The highest level that an Fmax code allows (14 R418, 03 R85). -/
def fmaxLevel (code : Nat) : Nat := if 20 ≤ code then 23 else if 10 ≤ code then 22 else 21

/-- The LIMIT ceiling (14 R418): as the controller set it, and as Fmax allows. -/
def limitOf (s : State) (p : Pid) : Nat := min (s.mon p).limit (fmaxLevel (s.skCol p).fmax)

/-- Whether a skillet runs: its compute domain is on. -/
def runs (s : State) (p : Pid) : Bool := (s.mon p).domain == .on

/-- The lowest of the ceilings (14 R418, R430). -/
def ceiling (s : State) (p : Pid) : Nat :=
  let m := s.mon p
  let five := min (min (limitOf s p) m.margin) (min m.thermal m.droop)
  match m.forced with
  | some f => min five f
  | none => min five m.budgetLevel

/-- A level in force, counted. -/
def setLevel (s : State) (p : Pid) (l : Nat) : State :=
  if (s.mon p).level = l then s
  else s.modMon p (fun m => { m with level := l, levelChanges := sat64 m.levelChanges 1 })

/-- The level falls at once to the lowest ceiling, and a ramp above it is abandoned (14 R419, R440). -/
def settle (s : State) (p : Pid) : State :=
  if !runs s p then s
  else
    let c := ceiling s p
    let s := if (s.mon p).ramp.any (fun r => c < r) then s.modMon p (fun m => { m with ramp := none }) else s
    if c < (s.mon p).level then setLevel (s.modMon p (fun m => { m with ramp := none })) p c else s

/-- The level rises by one where a ceiling allows and 64 µs have passed since the last raise (14 R419): within OP0 at the
next issue slot, above it once the voltage has ramped. -/
def climb (s : State) (p : Pid) : State :=
  let m := s.mon p
  let rested := match m.lastRaise with | some t => decide (t + 64 ≤ s.time.ticks) | none => true
  if !runs s p || ceiling s p ≤ m.level || m.ramp.isSome || !rested then s
  else
    let s := s.modMon p (fun m => { m with lastRaise := some s.time.ticks })
    if m.level < 15 then setLevel s p (m.level + 1) else s.modMon p (fun x => { x with ramp := some (m.level + 1) })

/-! ### The estimate (14 R421, R422) -/

/-- The coefficient of a counter: loaded, or the configuration image's. -/
def coeffOf (m : Mon) (p : Pid) (k : Nat) : Num :=
  bf16.decode ((Tab.at m.coeffs k (Config.coefficient p.val k)).toNat)

/-- Whether a counter is one of griddle issue (14 R421: rates 1, 2 and 4 of each griddle). -/
def issueCounter (k : Nat) : Bool := k < 16 && k % 4 != 3

/-- Σ c × n × num / den over the counters, where issue terms also take the slot fraction: all over one denominator. -/
def activity (m : Mon) (p : Pid) (counts : List Nat) (issue other : Nat) : Num :=
  (counts.zipIdx).foldl (fun a e =>
    Num.add a (Num.mul (coeffOf m p e.2) (Num.ofInt (e.1 * (if issueCounter e.2 then issue else other))))) (.fin false 0 0)

/-- S in fifths of a mW (14 R422): between two entries of the table, 5 °C apart, it is linear. -/
def staticFifths (p : Pid) (v temp : Nat) : Nat :=
  Config.staticPower p.val v (temp / 5) * (5 - temp % 5) + Config.staticPower p.val v (temp / 5 + 1) * (temp % 5)

/-- S + V² × activity / (6,400 × 2.0 µs × den) in mW, as the monitor rounds it; `v` is V in 10 mV. -/
def estimateOf (p : Pid) (temp v den : Nat) (act : Num) : Nat :=
  let st := staticFifths p v temp
  match act with
  | .fin false m e =>
    let up := (max 0 e).toNat
    let dn := (max 0 (-e)).toNat
    let d := 12800 * den * 2 ^ dn
    Config.roundMw (st * d + 5 * (v * v * m * 2 ^ up)) (5 * d)
  | _ => Config.roundMw 0 0

/-- The estimate of an interval at the level in force (14 R422). -/
def estimate (s : State) (p : Pid) (counts : List Nat) : Nat :=
  let m := s.mon p
  estimateOf p m.temp (levelVolt m.level) 1 (activity m p counts 1 1)

/-- The power that a monitor predicts at another level (14 R422): the dynamic term by V² × f, the issue terms by the slot
fraction too. -/
def predict (s : State) (p : Pid) (counts : List Nat) (l : Nat) : Nat :=
  let m := s.mon p
  let now := levelMhz m.level * levelSlots m.level
  estimateOf p m.temp (levelVolt l) now
    (activity m p counts (levelMhz l * levelSlots l) (levelMhz l * levelSlots m.level))

/-- The BUDGET ceiling (14 R418, R427): the highest level whose prediction fits; 0 where none does. -/
def budgetCeiling (s : State) (p : Pid) (counts : List Nat) : Nat :=
  (((List.range 24).reverse).find? (fun l => predict s p counts l ≤ (s.mon p).budget)).getD 0

/-! ### TRIP_N and the cap (14 R423, R424, R436) -/

/-- TRIP_N (14 R436): asserted while a region has tripped and is neither restored nor isolated. -/
def tripN (s : State) : Bool := s.power.mons.toList.any (fun m => m.domain == .tripped)

/-- The cap in force and its source: the window opened most recently, or the base cap in effect. -/
def capNow (s : State) : Nat × Nat :=
  match (s.sched.windows.filter (fun w => w.kind = 3)).reverse with
  | w :: _ => (vget s.power.profiles (Fin.ofNat 16 w.arg), w.entry)
  | [] => (s.power.baseEff, 0xFF)

/-- The cap put in force; CAP_CHANGED at a change of value or source (14 R424, R428). -/
def setCap (s : State) : State :=
  let (v, src) := capNow s
  if v = s.power.cap && src = s.power.capSource then s
  else raiseMod (s.modPower (fun w => { w with cap := v, capSource := src, unreachable := false })) .capChanged (names [v, src])

/-! ### The carrier sensor (18 R531) -/

/-- The coolant limit in force (18 R531): 0 none, 1 MARGIN, 2 LIMITED, 3 FAILED. -/
def coolantCode (x : InputSt) : Nat := if x.failed.on then 3 else if x.limit.on then 2 else if x.margin.on then 1 else 0

/-- CSTATUS (18 R531). -/
def cstatus (x : InputSt) : Nat :=
  32768 * b2n x.pairA + 16384 * b2n x.pairB + 8192 * b2n x.limited + 4096 * b2n x.leak + 1024 * coolantCode x

/-- An event of the input and the coolant (18 R537): DATA holds CSTATUS and the reading that caused it. -/
def raiseInput (s : State) (ev : Ev) (reading : Nat) : State := raiseMod s ev (cstatus s.input + 65536 * (reading % 65536))

end Sys2Proof.Machine
end

