-- ==== Sys2Proof/Machine/Power.lean ====
section
/-! DEFINITION. Machine/Power.lean: the meanings of the power and heat commands (14). A command whose condition the state
does not meet does not come about. -/

namespace Sys2Proof.Machine

/-! ### The monitor of a skillet (14 R418-R422, R432, R433) -/

/-- DROOP_DETECT (14 R432): the arithmetic clock is stretched; an episode counts once. -/
def execDroopDetect (p : Pid) (s : State) : Out :=
  if !runs s p || (s.mon p).stretching then .next s
  else .next (s.modMon p (fun m => { m with stretching := true, droopEvents := sat64 m.droopEvents 1 }))

/-- DROOP_END (14 R432): the episode ends after `cycles` stretched cycles. -/
def execDroopEnd (p : Pid) (cycles : Nat) (s : State) : Out :=
  if !(s.mon p).stretching then .next s
  else .next (s.modMon p (fun m => { m with stretching := false, droopCycles := sat64 m.droopCycles cycles }))

/-- DROOP_WINDOW (14 R433): `cycles` of the window and how many of them were stretched. -/
def execDroopWindow (p : Pid) (cycles : Nat) (stretched : Nat) (s : State) : Out :=
  if !s.controls || !periodDue s (s.mon p).droopPeriod 10000 then .next s
  else
    let s := s.modMon p (fun m => { m with droopPeriod := periodNow s 10000 })
    if cycles < 100 * stretched then
      if (s.mon p).droopRun + 1 < 3 then
        .next (s.modMon p (fun m => { m with droopRun := m.droopRun + 1, droopFree := 0 }))
      else
        let s := s.modMon p (fun m => { m with droopRun := 0, droopFree := 0, droop := m.droop - 1 })
        .next (settle (raiseMon s p .droopFrequent (names [(s.mon p).droop])) p)
    else if (s.mon p).droopFree + 1 < 100 then
      .next (s.modMon p (fun m => { m with droopRun := 0, droopFree := m.droopFree + 1 }))
    else .next (s.modMon p (fun m => { m with droopRun := 0, droopFree := 0, droop := min 23 (m.droop + 1) }))

/-- BUDGET_ESTIMATE (14 R418, R419, R421, R422, R426, R430): the 48 counts of an interval of 2.0 µs and the hottest
junction. A distrusted skillet's own budget loop stands still. -/
def execBudgetEstimate (p : Pid) (counts : List Nat) (tempC : Nat) (s : State) : Out :=
  if !s.powered then .next s
  else
    let s := s.modMon p (fun m => { m with temp := min tempC 255 })
    let e := estimate s p counts
    let recent := ((s.mon p).estimates ++ [e]).drop ((s.mon p).estimates.length + 1 - 32)
    let s := s.modMon p (fun m => { m with
      estimateLast := e, estimates := recent, estimateAvg := Config.roundMw recent.sum recent.length })
    if !runs s p || (s.mon p).forced.isSome || (s.mon p).trust.distrusted then .next s
    else
      let b := budgetCeiling s p counts
      let s := s.modMon p (fun m => { m with
        budgetLevel := b, budgetExceeded := sat64 m.budgetExceeded (b2n (decide (m.budget < e))) })
      .next (climb (settle s p) p)

/-- LEVEL_RAMP_DONE (14 R419): the supply has reached the new voltage and the frequency switches. -/
def execLevelRampDone (p : Pid) (s : State) : Out :=
  match (s.mon p).ramp with
  | none => .next s
  | some l => .next (setLevel (s.modMon p (fun m => { m with ramp := none })) p l)

/-! ### The module loop (14 R425-R428, 18 R523, R533) -/

/-- The mapped skillets with their compute domain on (14 R425). -/
def budgeted (s : State) : List Pid := allPids.filter (fun p => runs s p && (s.logical? p).isSome)

/-- The module's total estimate (14 R422, R425): of the running skillets, and of the rim and carrier. -/
def totalEstimate (s : State) (rimMw : Nat) : Nat :=
  rimMw + ((allPids.filter (runs s)).map (fun p => (s.mon p).estimateAvg)).sum

/-- The average over the last 1.0 ms (14 R425): of the readings that stood, newest first, each for 64 µs, the sixteenth for
the 40 µs that are left. -/
def average1ms (xs : List Nat) : Nat :=
  if xs.length ≤ 15 then Config.roundMw xs.sum (max 1 xs.length)
  else Config.roundMw (64 * (xs.take 15).sum + 40 * xs.getD 15 0) 1000

/-- The pool in mW (14 R425, R430, R439, 18 R523, R533): the lowest of what each limit leaves. `vin` is the lower pair
voltage in 10 mV. With the module's estimator distrusted the busbar's 1.0 ms average, `busbar`, is held to 92 % of the cap
in place of the estimate to the cap. -/
def poolOf (s : State) (vin busbar : Nat) : Nat :=
  let w := s.power
  let cap := w.cap * 100000
  let base := if w.trust.distrusted then cap * 92 / 100 - w.rim - (busbar - cap * 92 / 100)
    else cap - w.rim - (w.average - cap)
  let cut := base - cap * w.poolCut / 100
  let inp := base - (cap - vin * 10 * s.input.iLim)
  let cool := if s.input.failed.on then 0 else if s.input.limit.on then min base (12000000 - w.rim) else base
  min (min cut inp) cool

/-- The budgets of R425 from the pool: equal shares, what low averages leave over given to the rest. -/
def budgetsOf (s : State) (pool : Nat) : List (Pid × Nat) :=
  let ps := budgeted s
  let share := pool / max 1 ps.length
  let low (p : Pid) : Bool := 10 * (s.mon p).estimateAvg < 9 * share
  let kept (p : Pid) : Nat := 11 * (s.mon p).estimateAvg / 10
  let rest := ps.filter (fun p => !low p)
  let above := ((ps.filter low).map (fun p => share - kept p)).sum
  ps.map (fun p => (p, if low p then min share (kept p) else share + above / max 1 rest.length))

/-- MODULE_POWER_PERIOD (14 R423-R428, R430, R445, 18 R523): the rim and carrier estimate, the lower pair voltage over the
last 1.0 ms and the 1.0 ms average of the busbar measurement. The budgets travel in POWER SET messages (R442). -/
def execModulePowerPeriod (rimMw : Nat) (vinMin10mV : Nat) (busbarMw : Nat) (s : State) : Out :=
  if !s.controls || !periodDue s s.power.modulePeriod 64 then .next s
  else
    let totals := (totalEstimate s rimMw :: s.power.totals).take 16
    let average := average1ms totals
    let s := s.modPower (fun w => { w with
      modulePeriod := periodNow s 64, baseEff := w.baseCap, rim := rimMw, totals := totals, average := average })
    let s := allPids.foldl (fun t p => settle (t.modMon p (fun m => { m with limit := 15 + t.power.maxPoint })) p) s
    let s := setCap s
    let pool := poolOf s vinMin10mV busbarMw
    let limited := vinMin10mV * 10 * s.input.iLim < s.power.cap * 100000
    let was := s.input.limited
    let s := { s with input := { s.input with limited := limited } }
    let s := if limited && !was then raiseInput s .inputLimited vinMin10mV else s
    let bs := budgetsOf s pool
    let s := s.modPower (fun w => { w with
      pool := pool
      budgets := bs.foldl (fun v e => vset v e.1 e.2) (Vector.replicate 64 0)
      floorPeriods := sat64 w.floorPeriods (b2n (allPids.any (fun p => runs s p && decide ((s.mon p).budgetLevel < 15)))) })
    let above := s.power.cap * 100000 < average && allPids.all (fun p => !runs s p || (s.mon p).level = 0)
    .next (if above && !s.power.unreachable then
        raiseMod (s.modPower (fun w => { w with unreachable := true })) .capUnreachable (names [s.power.cap])
      else s)

/-! ### POWER messages (14 R442) -/

/-- Whether a POWER message is turned away (14 R436): the region is tripped, switched off or isolated. -/
def powerRefused (s : State) (p : Pid) : Bool :=
  let d := (s.mon p).domain
  d == .tripped || d == .offHeat || d == .isolated

/-- POWER_SET (14 R442; a node that takes no part in the cobalt network hears nothing, 09 R275): reserved bits, then the
levels' range, then the region's state. -/
def execPowerSet (p : Pid) (budget : Nat) (limit : Nat) (thermal : Nat) (measured : Bool) (force : Nat) (rsv : Nat)
    (s : State) : Out :=
  if !s.nodeLive p.val then .next s
  else
    let s := recvCobalt s p.val
    let st := if rsv != 0 || (!measured && force != 0) then stReserved
      else if 23 < limit || 23 < thermal || 23 < force then stAbove
      else if powerRefused s p then stWrongState else 0
    if st != 0 then .next (sendReply s p.val st [])
    else
      let s := s.modMon p (fun m => { m with
        budget := budget % 2 ^ 32, limit := limit, thermal := thermal, forced := if measured then some force else none })
      .next (sendReply (settle s p) p.val 0 [])

/-- COMPUTE_OFF (14 R435, R442): a mapped skillet goes off for heat, any other is simply off. -/
def execComputeOff (p : Pid) (s : State) : Out :=
  if !s.nodeLive p.val then .next s
  else
    let s := recvCobalt s p.val
    if powerRefused s p then .next (sendReply s p.val stWrongState [])
    else
      let d : Domain := if (s.logical? p).isSome && runs s p then .offHeat else if runs s p then .off else (s.mon p).domain
      let s := domainOff s p d
      .next (sendReply (if d == .offHeat then
          raiseMon ((s.modMon p (fun m => { m with heatOffs := sat64 m.heatOffs 1 })).modPower
            (fun w => { w with heatOffTotal := sat32 w.heatOffTotal 1 })) p .regionOffHeat (names [(s.mon p).temp])
        else s) p.val 0 [])

/-- Whether a region may be restored (14 R437): switched off or tripped, cooled, neither a
hole nor to be isolated. -/
def cooled (s : State) (p : Pid) : Bool :=
  let m := s.mon p
  !s.isHole p && (m.domain == .offHeat || m.domain == .tripped) && m.temp + 10 ≤ s.power.throttleTemp
    && (m.domain == .offHeat || m.trips < 3)

/-- A region restored (14 R437). -/
def restoreRegion (s : State) (p : Pid) : State := raiseMon (domainOn s p 15) p .regionRestored (names [(s.mon p).temp])

/-- COMPUTE_ON (14 R437, R441, R442): restores a cooled region, or powers one that is simply off. -/
def execComputeOn (p : Pid) (s : State) : Out :=
  if !s.nodeLive p.val then .next s
  else
    let s := recvCobalt s p.val
    if cooled s p then .next (sendReply (restoreRegion s p) p.val 0 [])
    else if (s.mon p).domain == .off && !s.isHole p then .next (sendReply (domainOn s p 23) p.val 0 [])
    else if runs s p then .next (sendReply s p.val 0 [])
    else .next (sendReply s p.val stWrongState [])

/-- POWER_COEFF (14 R431, R442): 24 coefficients from counter 0 or 24. -/
def execPowerCoeff (p : Pid) (first : Nat) (coeffs : List W16) (s : State) : Out :=
  if !s.nodeLive p.val then .next s
  else
    let s := recvCobalt s p.val
    if powerRefused s p then .next (sendReply s p.val stWrongState [])
    else if first != 0 && first != 24 then .next (sendReply s p.val stReserved [])
    else
      let t := ((coeffs.take 24).zipIdx).foldl (fun t e => Tab.put t (first + e.2) e.1) (s.mon p).coeffs
      .next (sendReply (s.modMon p (fun m => { m with coeffs := t })) p.val 0 [])

/-! ### Estimate against measurement (14 R429-R431) -/

/-- What a window does to the trust in an estimator: its new state, the event and whether a fit has been made. -/
def judgeWindow (t : Trust) (e m : Nat) : Trust × Option Ev × Bool :=
  let diff := max e m - min e m
  let bad := 12 * m < 100 * diff
  let near := 100 * diff ≤ 6 * m
  let t := { t with
    disagreeRun := if bad then t.disagreeRun + 1 else 0, agreeRun := if near then t.agreeRun + 1 else 0 }
  if !t.distrusted then
    if 20 ≤ t.disagreeRun then ({ t with distrusted := true, windows := 0, agreeRun := 0 }, some .estimatorDistrusted, false)
    else (t, none, false)
  else if 3 ≤ t.attempts then (t, none, false)
  else if 20 ≤ t.agreeRun then
    ({ t with distrusted := false, disagreeRun := 0, attempts := 0, windows := 0 }, some .estimatorTrusted, false)
  else
    let n := t.windows + 1
    if n = 64 then ({ t with windows := n }, none, true)
    else if n < 128 then ({ t with windows := n }, none, false)
    else ({ t with windows := 0, attempts := t.attempts + 1 }, some .recalibrationFailed, false)

/-- CHECK_WINDOW (14 R429, R431): the mean estimate and the mean measurement of a window, of a running skillet or of the
module. -/
def execCheckWindow (scope : Option Pid) (estimate : Nat) (measuredMw : Nat) (s : State) : Out :=
  let fitted (s : State) (b : Bool) : State := s.modPower (fun w => { w with recalibrations := sat32 w.recalibrations (b2n b) })
  match scope with
  | some p =>
    if !s.controls || !runs s p || !periodDue s (s.mon p).trust.period 10000 then .next s
    else
      let (t, ev, fit) := judgeWindow (s.mon p).trust estimate measuredMw
      let bad := b2n (decide (12 * measuredMw < 100 * (max estimate measuredMw - min estimate measuredMw)))
      let s := s.modMon p (fun m => { m with
        trust := { t with period := periodNow s 10000 }, measured := measuredMw,
        disagreeWindows := sat64 m.disagreeWindows bad, forced := if t.distrusted then m.forced else none })
      .next (match ev with
        | some v => raise (fitted s fit) 68 v (plocBlock p.val) (names [p.val])
        | none => fitted s fit)
  | none =>
    if !s.controls || !periodDue s s.power.trust.period 10000 then .next s
    else
      let (t, ev, fit) := judgeWindow s.power.trust estimate measuredMw
      let s := s.modPower (fun w => { w with trust := { t with period := periodNow s 10000 }, measured := measuredMw })
      .next (match ev with
        | some v => raiseMod (fitted s fit) v (names [])
        | none => fitted s fit)

/-- MEASURED_PERIOD (14 R430): a distrusted skillet's level is set from its measured power; which level the controller
takes to hold 92 % of the budget is a free value. -/
def execMeasuredPeriod (p : Pid) (powerMw : Nat) (s : State) : Out :=
  if !s.controls || !(s.mon p).trust.distrusted || !runs s p || !periodDue s (s.mon p).measuredPeriod 50 then .next s
  else
    let (f, s) := draw s
    let l := if 100 * powerMw ≤ 92 * (s.mon p).budget then f % 24 else f % (s.mon p).level.succ
    let s := s.modMon p (fun m => { m with measuredPeriod := periodNow s 50, forced := some l })
    .next (climb (settle s p) p)

/-! ### Ageing (14 R420) -/

/-- The highest level whose frequency does not exceed a measured one; 0 where none does (14 R420). -/
def levelWithin (mhz : Nat) : Nat := (((List.range 24).reverse).find? (fun l => levelMhz l ≤ mhz)).getD 0

/-- The lowest Fmax code recorded for a skillet, in force or due (03 R85). -/
def lowestFmax (s : State) (p : Pid) : Nat :=
  (s.col.due.filter (fun r => r.kind = 5 && r.pid == p)).foldl (fun a r => min a r.a) (s.skCol p).fmax

/-- A measured Fmax (14 R420): MARGIN, and the records that it brings. -/
def applyMargin (s : State) (p : Pid) (mhz : Nat) : State :=
  let s := s.modMon p (fun m => { m with fmaxMeasured := mhz })
  let m := s.mon p
  let s := if m.margin < 23 && levelMhz (m.margin + 1) ≤ mhz then s.modMon p (fun x => { x with margin := 23 }) else s
  let s := if mhz < levelMhz m.level then
      raiseMon (s.modMon p (fun x => { x with margin := levelWithin mhz })) p .marginLow (names [mhz])
    else s
  let s := if 1300 ≤ mhz && (mhz - 1300) / 10 < lowestFmax s p then
      appendRecord s 5 2 p ((mhz - 1300) / 10) 0 Ev.marginLow.code
    else s
  let s := if mhz < 1300 then
      let s := s.modMon p (fun x => { x with margin := min x.margin 20 })
      if holeNamed s p then s else appendRecord s 1 2 p 1 0 Ev.marginLow.code
    else s
  settle s p

/-- MARGIN_MEASURE (14 R420): the ageing monitors' reading in MHz. -/
def execMarginMeasure (p : Pid) (mhz : Nat) (s : State) : Out :=
  if !s.controls then .next s else .next (applyMargin s p mhz)

/-! ### Heat (14 R434-R439) -/

/-- The readings of the junction sensors by PID, then of the rim strips. -/
def readTemps (s : State) (temps : List Nat) : State :=
  let s := allPids.foldl (fun t p => t.modMon p (fun m => { m with temp := min (temps.getD p.val m.temp) 255 })) s
  s.modPower (fun w => { w with rimTemps := Vector.ofFn (fun i => min (temps.getD (64 + i.val) (vget w.rimTemps i)) 255) })

/-- The first of the hottest among some skillets. -/
def hottestOf (s : State) (ps : List Pid) : Option Pid :=
  ps.foldl (fun a p => match a with
    | none => some p
    | some q => if (s.mon q).temp < (s.mon p).temp then some p else some q) none

/-- The first of the coolest among some skillets. -/
def coolestOf (s : State) (ps : List Pid) : Option Pid :=
  ps.foldl (fun a p => match a with
    | none => some p
    | some q => if (s.mon p).temp < (s.mon q).temp then some p else some q) none

/-- A skillet switched off for heat (14 R435). -/
def heatOff (s : State) (p : Pid) : State :=
  let s := domainOff s p .offHeat
  let s := (s.modMon p (fun m => { m with heatOffs := sat64 m.heatOffs 1 })).modPower
    (fun w => { w with heatOffTotal := sat32 w.heatOffTotal 1 })
  raiseMon s p .regionOffHeat (names [(s.mon p).temp])

/-- One throttle step (14 R434). -/
def throttle (s : State) (p : Pid) : State :=
  let m := s.mon p
  let th := min m.thermal m.level - 1
  let start := !m.throttled && th < limitOf s p
  let s := s.modMon p (fun m => { m with thermal := th, throttled := m.throttled || start })
  settle (if start then raiseMon s p .throttleStart (names [m.temp]) else s) p

/-- Whether a running skillet is at or above THROTTLE_TEMP (14 R434). -/
def anyHot (s : State) : Bool := allPids.any (fun p => runs s p && decide (s.power.throttleTemp ≤ (s.mon p).temp))

/-- THERMAL_DOWN_PERIOD (14 R434, R435, R437): a switch-off takes the place of a throttle step of the same skillet (R440). -/
def execThermalDownPeriod (temps : List Nat) (s : State) : Out :=
  if !s.controls || !periodDue s s.power.downPeriod 1000 then .next s
  else
    let s := readTemps (s.modPower (fun w => { w with downPeriod := periodNow s 1000, throttleTemp := w.throttleNext })) temps
    let lim := s.power.throttleTemp
    let s := if anyHot s then s.modPower (fun w => { w with hotSeen := true }) else s
    let off := (budgeted s).filter (fun p => lim + 12 ≤ (s.mon p).temp)
    let s := off.foldl heatOff s
    let s := match hottestOf s (allPids.filter (fun p => runs s p && lim ≤ (s.mon p).temp)) with
      | some p => throttle s p
      | none => s
    .next ((allPids.filter (cooled s)).foldl restoreRegion s)

/-- THERMAL_UP_PERIOD (14 R434, R439): one cool skillet's THERMAL rises; every tenth period with every stack at most 90 °C
gives 5 % of the cap back to the pool. -/
def execThermalUpPeriod (temps : List Nat) (s : State) : Out :=
  if !s.controls || !periodDue s s.power.upPeriod 10000 then .next s
  else
    let s := readTemps (s.modPower (fun w => { w with
      upPeriod := periodNow s 10000, throttleTemp := w.throttleNext, upPeriods := w.upPeriods + 1 })) temps
    let lim := s.power.throttleTemp
    let cool := allSlices.all (fun sl => (s.slice sl).mc.temp ≤ 90)
    let s := if cool then s.modPower (fun w => { w with
        poolCut := if w.upPeriods % 10 = 0 then w.poolCut - 5 else w.poolCut, throttleEpisode := false }) else s
    let hot := s.power.hotSeen || anyHot s
    let s := s.modPower (fun w => { w with hotSeen := false })
    if hot then .next s
    else match coolestOf s (allPids.filter (fun p => runs s p && (s.mon p).thermal < 23 && (s.mon p).temp + 5 ≤ lim)) with
      | none => .next s
      | some p =>
        let s := s.modMon p (fun m => { m with thermal := m.thermal + 1 })
        .next (if (s.mon p).thermal = 23 then
            raiseMon (s.modMon p (fun m => { m with throttled := false })) p .throttleEnd (names [(s.mon p).temp])
          else s)

/-- TRIP_TEMP in °C (00 R8, 14 R436, R445). -/
def tripTemp : Nat := 118

/-- REGION_TRIP (14 R436): with the hottest sensor at 118 °C or more the comparator stops the region; TRIP_N
follows from the tripped regions. -/
def execRegionTrip (x : RegionReading) (s : State) : Out :=
  let p := x.p
  let s := if s.life.st == .off then s else s.modMon p (fun m => { m with temp := min x.tempC 255 })
  if x.tempC < tripTemp || s.life.st == .off || (s.mon p).domain == .isolated || (s.mon p).domain == .tripped then .next s
  else
    let s := (domainOff s p .tripped).modMon p (fun m => { m with trips := sat64 m.trips 1 })
    let s := s.modPower (fun w => { w with tripsTotal := sat32 w.tripsTotal 1 })
    .next (raiseMon s p .regionTrip (names [(s.mon p).trips]))

/-- The flits that a skillet's router holds are lost (15 R464). -/
def dropHeld (s : State) (p : Pid) : State :=
  let s := s.modRt (nodeOf p) (fun r => { r with landing := Vector.replicate 4 [], merge := [], reorder := [] })
  { s with mesh := { s.mesh with
    outQ := s.mesh.outQ.filter (fun e => e.1 / 16 != p.val), slack := s.mesh.slack.filter (fun e => e.1 / 16 != p.val) } }

/-- A region isolated (03 R74, R84, R91, 15 R464): its supply is off, its router's flits are lost and a HOLE record with
reason 0x04 names it, also where it was a hole already, so that its supply stays off after module reset. -/
def isolateRegion (s : State) (p : Pid) (cause : Nat) : State :=
  let s := { s with col := { s.col with isolated := vset s.col.isolated p true } }
  let s := dropHeld (domainOff s p .isolated) p
  if isolationNamed (s.col.base ++ s.col.journal) p then s else appendRecord s 1 2 p 4 0 cause

/-- HEAT_ISOLATION (14 R437): a region that has not cooled in time, or has tripped for the third time. -/
def execHeatIsolation (p : Pid) (s : State) : Out :=
  let m := s.mon p
  let late := m.offAt + s.power.restoreLimit ≤ s.time.ticks && !(m.temp + 10 ≤ s.power.throttleTemp)
  if !(m.domain == .offHeat || m.domain == .tripped) || !(late || 3 ≤ m.trips) then .next s
  else .next (isolateRegion (raiseMon s p .heatIsolation (names [m.trips])) p Ev.heatIsolation.code)

/-- MESH_HEAT_EMERGENCY (14 R438): `tempC` is the hottest router or rim-strip sensor of a half. The half slows at 105 °C,
and returns once every sensor has stayed at most 95 °C for 100 ms. -/
def execMeshHeatEmergency (east : Bool) (tempC : Nat) (s : State) : Out :=
  if !s.controls then .next s
  else
    let h : Fin 2 := if east then 1 else 0
    let cool := if 95 < tempC then none else some ((vget s.power.meshCool h).getD s.time.ticks)
    let s := s.modPower (fun w => { w with meshCool := vset w.meshCool h cool })
    if 105 ≤ tempC then .next (setHalf s east true)
    else if cool.any (fun t => decide (t + 100000 ≤ s.time.ticks)) then .next (setHalf s east false)
    else .next s

/-- STACK_THROTTLE (14 R439): every 10 ms while a stack is at 95 °C the pool falls by 5 % of the cap; one event an
episode, which ends when every stack is at most 90 °C. -/
def execStackThrottle (s : State) : Out :=
  if !s.controls || !allSlices.any (fun sl => 95 ≤ (s.slice sl).mc.temp) || !periodDue s s.power.cutPeriod 10000 then .next s
  else
    let first := !s.power.throttleEpisode
    let s := s.modPower (fun w => { w with
      poolCut := min 100 (w.poolCut + 5), throttleEpisode := true, cutPeriod := periodNow s 10000 })
    .next (if first then raiseMod s .stackThrottle (names [s.power.poolCut]) else s)

/-! ### Entries (14 R423, R424, R445) -/

/-- BASE_CAP (14 R423): in effect from the next period. -/
def wBaseCap (r : Req) (s : State) : Nat × State :=
  accept (natRange (reqNat r) 80 300) s (s.modPower (fun w => { w with baseCap := reqNat r }))

/-- BASE_CAP_WRITE: OD 3000.01. -/
def execBaseCapWrite (r : Req) (s : State) : Out := .next (serveWrite s r 0x3000 1 wBaseCap)

/-- A cap profile (14 R424): one in force takes effect at the next period, when the controller sets the cap. -/
def wCapProfile (i : Fin 16) (r : Req) (s : State) : Nat × State :=
  accept (natRange (reqNat r) 80 300) s (s.modPower (fun w => { w with profiles := vset w.profiles i (reqNat r) }))

/-- CAP_PROFILE_WRITE: OD 3001.00 to 3001.0F. -/
def execCapProfileWrite (i : Fin 16) (r : Req) (s : State) : Out := .next (serveWrite s r 0x3001 i.val (wCapProfile i))

/-- MAX_POINT (14 R445): it lowers LIMIT at once on every skillet, and raises it at the next period. -/
def wMaxPoint (r : Req) (s : State) : Nat × State :=
  let n := reqNat r
  let t := s.modPower (fun w => { w with maxPoint := n })
  accept (natRange n 0 8) s
    (allPids.foldl (fun t p => settle (t.modMon p (fun m => { m with limit := min m.limit (15 + n) })) p) t)

/-- MAX_POINT_WRITE: OD 3000.04. -/
def execMaxPointWrite (r : Req) (s : State) : Out := .next (serveWrite s r 0x3000 4 wMaxPoint)

/-- THROTTLE_TEMP: OD 3100.01, from the next thermal period. -/
def wThrottleTemp (r : Req) (s : State) : Nat × State :=
  accept (natRange (reqNat r) 80 100) s (s.modPower (fun w => { w with throttleNext := reqNat r }))

/-- HEAT_RESTORE_LIMIT: OD 3100.04. -/
def wRestoreLimit (r : Req) (s : State) : Nat × State :=
  accept (natRange (reqNat r) 1000000 600000000) s (s.modPower (fun w => { w with restoreLimit := reqNat r }))

end Sys2Proof.Machine
end

