-- ==== Sys2Proof/Machine/Regs.lean ====
section
/-! DEFINITION. Machine/Regs.lean: the register blocks of the units (04 R130, 06 R184, 07 R214, 08 R246-R248, 09 R280, 10
R319, R320, 12 R396, 13 R404, 14 R443) as READREG and REG_READ find them, and REG_WRITE and REPLY. -/

namespace Sys2Proof.Machine

/-- Fields packed into a word: value and lowest bit. -/
def pack (fs : List (Nat × Nat)) : Nat := fs.foldl (fun a f => a + f.1 * 2 ^ f.2) 0

/-- A register of a block whose entries follow each other from offset 0x00. -/
def regAt (xs : List Nat) (off : Nat) : Option Nat := xs[off / 8]?

/-! ### The blocks of a skillet -/

/-- HEAD of a griddle (04 R130): 0 none, 1 WAIT, 2 ISSUE, 3 ABORTED. -/
def headCode (g : Griddle) : Nat :=
  if g.faulted then 3
  else if g.active.any (fun a => a.st == .issue) then 2
  else if g.queue.isEmpty && g.retryQueue.isEmpty then 0 else 1

/-- The griddle block (04 R130). -/
def grReg (g : Griddle) (off : Nat) : Option Nat :=
  let status := pack [(g.lastStatus, 48), ((g.windows.filter (fun w => !w.closing)).length, 32), ((g.front.map (fun t => t.wFmt)).getD 0, 20),
    (b2n g.front.isSome, 19), (b2n ((g.front.map (fun t => t.transposed)).getD false), 18), (g.queue.length, 8),
    (b2n g.halted, 2), (headCode g, 0)]
  regAt [status, g.passes, g.rowsIssued, g.stallInput, g.stallLoad, g.stallOutput, g.skipped, g.retries, g.accCorrected,
    g.passesRejected] off

/-- STATE of a shelf (06 R176). -/
def shelfCode : ShelfState → Nat
  | .off => 0
  | .waking => 1
  | .opened => 2
  | .closing => 3

/-- The pantry block (06 R184). -/
def pnReg (x : Pantry) (retired : Nat) (off : Nat) : Option Nat :=
  let shelves := (List.finRange 15).map (fun i => (shelfCode (vget x.shelves i).st, 32 + 2 * i.val))
  let busy := (x.slots.filter (fun e => e.2.st != .empty)).length
  let status := pack (shelves ++ [(retired, 16), (busy, 0)])
  regAt ([status] ++ x.conflict.toList ++ x.accesses.toList ++ [x.rotatorSplits, x.rmw, x.ceCorrected, x.ueDetected,
    x.poisonReads, x.scrubPasses, x.slotOrder, x.writesRejected, x.memops]) off

/-- STATE of a task (08 R217). -/
def taskCode : TaskState → Nat
  | .free => 0
  | .ready => 1
  | .running => 2
  | .waiting => 3
  | .faulted => 4

/-- The tasks in a state as a mask. -/
def taskMask (q : Seq) (st : TaskState) : Nat :=
  ((List.finRange 16).filter (fun t => (vget q.tasks t).st == st)).foldl (fun a t => a + 2 ^ t.val) 0

/-- A TASK word (08 R246). -/
def taskWord (x : Task) : Nat :=
  pack [(x.status, 48), (taskCode x.st, 45), (x.loops.length, 42), (x.waitKind, 39), (x.cause, 36), (x.pc, 0)]

/-- Four 16-bit counters of a list from place i. -/
def quad (xs : List Nat) (i : Nat) : Nat := pack ((List.range 4).map (fun k => (xs.getD (i + k) 0, 16 * k)))

/-- The sequencer block (08 R246); `count` is COUNT. -/
def sqReg (q : Seq) (count off : Nat) : Option Nat :=
  let runnable := taskMask q .ready ||| taskMask q .running
  let status := pack [(runnable, 48), (taskMask q .waiting, 32), (taskMask q .faulted, 16), (b2n q.current.isSome, 4),
    ((q.current.map (fun t => t.val)).getD 0, 0)]
  if off < 0x58 then
    regAt [status, count, q.words, q.switches, q.idleCycles, q.sliceExpired, q.rejects, q.timeatLate, q.signalsSent,
      q.signalsReceived, q.counterOverflows] off
  else if 0x80 ≤ off && off < 0x100 then (q.tasks.toList[(off - 0x80) / 8]?).map taskWord
  else if 0x100 ≤ off && off < 0x300 then q.sg.toList[(off - 0x100) / 8]?
  else if 0x300 ≤ off then
    let i := (off - 0x300) / 8
    (q.tasks.toList[i / 2]?).map (fun x => quad x.cc.toList (4 * (i % 2)))
  else none

/-- The whisk block (08 R248). -/
def whReg (x : Whisk) (off : Nat) : Option Nat :=
  let status := pack [(x.lastStatus, 48), ((x.running.map (fun o => o.desc.op)).getD 0, 40), (x.queue.length, 32),
    (x.cause, 1), (b2n x.halted, 0)]
  regAt [status, x.ops, x.elements, x.stallInput, x.stallOutput, x.opsRejected, x.lossSum.toNat, x.lossTokens,
    b2n x.lossNonfinite, x.tapDropped] off

/-- The selected entry of a tap bank. -/
def tapEntry (b : TapBank) (select : Nat) : Option (Nat × Tab Nat) := b.points[select % 64]?

/-- The tap window (13 R404): TAP_SELECT, TAP_TAG, TAP_CTL, which is write-only and reads zero (00 R15), and TAP_BINS. -/
def tapReg (b : TapBank) (select off : Nat) : Option Nat :=
  if off = 0x100 then some select
  else if off = 0x108 then some (match tapEntry b select with
    | some e => 2 ^ 63 + e.1 % 1024
    | none => 0)
  else if off = 0x110 then some 0
  else if 0x200 ≤ off && off < 0x300 then
    let i := (off - 0x200) / 8
    let c := b.entries.getD (select % 64) []
    some (Tab.at c (2 * i) 0 + Tab.at c (2 * i + 1) 0 * 2 ^ 32)
  else none

/-- The bank that a skillet's window shows. -/
def Taps.shown (t : Taps) : TapBank := if t.select / 256 % 2 = t.bank then t.active else t.idle

/-- DOMAIN (14 R443). -/
def domainCode : Domain → Nat
  | .on => 0
  | .offHeat => 1
  | .tripped => 2
  | .off => 3
  | .isolated => 4

/-- The monitor block (14 R443). -/
def monReg (m : Mon) (off : Nat) : Option Nat :=
  let status := pack [(m.temp, 56), (m.level, 51), (m.thermal, 46), (m.limit, 41), (m.margin, 36), (m.droop, 31),
    (m.budgetLevel, 26), (domainCode m.domain, 23), (b2n m.trust.distrusted, 22), (b2n m.stretching, 21)]
  regAt [status, m.budget, m.estimateLast, m.estimateAvg, m.measured, m.budgetExceeded, m.levelChanges, m.droopEvents,
    m.droopCycles, m.fmaxMeasured, m.disagreeWindows, m.heatOffs, m.trips] off

/-- STATE of a ladle (07 R205). -/
def ladleCode : LadleState → Nat
  | .idle => 0
  | .active => 1
  | .tail => 2
  | .stopping => 3
  | .halted => 4

/-- The ladle block (07 R214); `free` is the pool's free tags. -/
def ldReg (d : Ladle) (free off : Nat) : Option Nat :=
  let status := pack [(d.lastStatus, 48), (d.listPos % 64, 32), (d.blockIx % 256, 24), (d.portions.length, 14), (d.cause, 8),
    (b2n ((d.head.map (fun h => h.deep)).getD false), 4), (b2n d.pending.isSome, 3), (ladleCode d.st, 0)]
  regAt [status, d.portionsDone, d.bytes, d.stallTags, d.stallSlot, d.stallCredit, d.latMax, d.latePortions, d.lateLimit,
    d.armsRejected, d.pendingDiscarded, free] off

/-- Whether the half of a node runs at 650 MHz (09 R267, R268): columns 0-3 are west, 4-7 east; a north or south crossbar,
which both halves feed, shows either. -/
def halfRate (m : MeshSt) (node : Nat) : Bool :=
  if node < 64 then (if node % 8 < 4 then m.westHalf else m.eastHalf)
  else if node = 65 then m.eastHalf else if node = 67 then m.westHalf else m.westHalf || m.eastHalf

/-- The router block (09 R280). -/
def mrReg (m : MeshSt) (r : Router) (node off : Nat) : Option Nat :=
  let status := pack [(m.epoch, 62), (b2n m.hold, 61), (b2n m.ordered, 60), (b2n (halfRate m node), 59), (m.bank, 58),
    (r.linkDown.toNat, 52), (b2n (r.faulty || r.cobaltFaulty), 51), (r.merge.length, 43)]
  if 0x200 ≤ off then some (Tab.at r.lag ((off - 0x200) / 8) 0)
  else regAt ([status] ++ r.flitsOut.toList ++ r.flitsLanded.toList ++ [r.merges, r.landingAdds, r.mergeWait, r.slackFull,
    r.linkRetries, r.discarded, r.mcastLagLimit, r.seamFull, r.cobaltSent, r.cobaltReceived, r.cobaltDiscarded]) off

/-! ### The blocks of a rim strip -/

/-- The memory controller's block (10 R319). -/
def mcReg (m : Stack) (off : Nat) : Option Nat :=
  let status := pack [(m.temp, 56), (m.link, 54), (b2n m.hot, 53), (m.repairs, 32), (m.failed.toNat, 0)]
  regAt [status, m.readBytes, m.writeBytes, m.raWrites, m.raAdds, m.raRaises, m.raSaturated, m.blockWait, m.ceCorrected,
    m.ueDetected, m.refreshes, m.rfmIssued, m.readLatMax, m.refused] off

/-- The update engine's block with its tap window (10 R320, 13 R404). -/
def ueReg (u : Ue) (off : Nat) : Option Nat :=
  let status := pack [(b2n u.ptr, 63), (u.rule, 60), (u.phase, 58), (u.cause, 56), (u.stripe % 2 ^ 25, 0)]
  if 0x100 ≤ off then tapReg u.bank u.select off
  else regAt [status, u.params, u.clamps, u.gCycles, u.faults] off

/-- STATE of a port (12 R381). -/
def portCode : PortState → Nat
  | .disabled => 0
  | .down => 1
  | .training => 2
  | .verify => 3
  | .held => 4
  | .standby => 5
  | .inService => 6
  | .draining => 7
  | .failed => 8

/-- BUNDLE of a port (12 R396). -/
def bundleCode : Option Bundle → Nat
  | none => 0
  | some .xp => 1
  | some .xm => 2
  | some .yp => 3
  | some .ym => 4

/-- LPSTATUS (12 R396). -/
def lpStatus (s : State) (n : Slice) : Nat :=
  let p := s.port n
  let b := portBundle s.torus n
  let valid := p.peerPort.isSome && p.peerCoord.isSome
  let pos := if p.st == .inService then ((b.map (fun b => (serviceports s b).findIdx (fun q => q == n))).getD 0) else 0
  pack [(portCode p.st, 60), (p.heldReason, 56), (if valid then p.peerPort.getD 0xFF % 256 else 0xFF, 48),
    (if valid then p.peerCoord.getD 0x3FF % 1024 else 0x3FF, 38), (bundleCode b, 35), (pos % 16, 31), (b2n p.long, 30),
    (b2n p.degraded, 29), (b2n (s.time.source == 1 && s.time.linkPort == n.val), 28), (b2n valid, 27)]

/-- The port's block (12 R396). -/
def lpReg (s : State) (n : Slice) (off : Nat) : Option Nat :=
  let p := s.port n
  regAt [lpStatus s n, p.framesSent, p.framesAccepted, p.retries, p.naksSent, p.crcErrors, p.fecCorrected, p.fecUncorrectable,
    p.creditStall, p.windowStall, p.linkAdds, p.linkRaises, p.forwarded, p.framesDiscarded, p.rtt, p.failures,
    p.routeDropped] off

/-! ### Reading -/

/-- A register of a skillet by its READREG code (08 R224); the tap window is the steward's only (13 R404). None where the
block holds nothing there. -/
def skReg (s : State) (p : Pid) (unit off : Nat) (steward : Bool) : Option Nat :=
  if unit ≤ 3 then grReg (s.gr p (Fin.ofNat 4 unit)) off
  else if unit = 4 then
    (if off < 0x100 then whReg (s.wh p) off else if steward then tapReg (s.sk p).taps.shown (s.sk p).taps.select off else none)
  else if unit = 5 then pnReg (s.pn p) (s.skCol p).banks.length off
  else if unit = 6 then sqReg (s.sq p) s.time.count off
  else if unit = 7 then monReg (s.mon p) off
  else if unit ≤ 0xF then ldReg (s.ld p (Fin.ofNat 8 (unit - 8))) (2048 - poolUsed s p) off
  else if unit = 0x10 then mrReg s.mesh (s.rt (nodeOf p)) p.val off
  else none

/-- A register of a rim strip (09 R277). -/
def rimReg (s : State) (node unit off : Nat) : Option Nat :=
  let sl := sliceOf (8 * (node - 64) + unit % 8)
  if unit ≤ 7 then mcReg (s.slice sl).mc off
  else if unit ≤ 0xF then ueReg (s.slice sl).ue off
  else if unit ≤ 0x17 then lpReg s sl off
  else if unit = 0x18 then mrReg s.mesh (s.rt (Fin.ofNat 68 node)) node off
  else none

/-- What a node's register reads as. -/
def regValue (s : State) (node unit off : Nat) : Option Nat :=
  if h : node < 64 then skReg s ⟨node, h⟩ unit off true else rimReg s node unit off

/-- READREG (08 R231): the value at this instant; an offset within the block that names no register reads a free value. -/
def execReadreg (p : Pid) (s : State) : Out :=
  .next (issueWord s p .readreg (fun s t w =>
    let (f, s) := draw s
    let v := (skReg s p (bits w 108 104) (bits w 103 92) false).getD f
    advance (setTr s p t (bits w 111 109) v) p t))

/-- Whether a unit code is reserved at a node (09 R277). -/
def unitReserved (node unit : Nat) : Bool :=
  if node < 64 then 0x10 < unit else if node < 68 then 0x18 < unit else true

/-- What passes by itself until a register of a rim unit is read: the refreshes of the stack (10 R319) and the blocks that an
update engine has dealt with in G (R320) are timing, free numbers. -/
def passRefreshes (s : State) (node unit : Nat) : State :=
  if 64 ≤ node && node < 68 && unit ≤ 7 then
    let (a, s) := draw s
    let (b, s) := draw s
    s.modMc (sliceOf (8 * (node - 64) + unit)) (fun m => { m with
      refreshes := sat64 m.refreshes a, rfmIssued := sat64 m.rfmIssued b })
  else if 64 ≤ node && node < 68 && unit ≤ 0xF then
    let sl := sliceOf (8 * (node - 64) + unit % 8)
    if (s.slice sl).ue.phase != 2 then s
    else
      let (n, s) := draw s
      ueRun s sl (n % ((engineBlocks s sl).length - (s.slice sl).ue.next + 1))
  else s

/-- REG_READ (09 R277): answered with a REPLY. A reserved unit is answered with 0x0305; what an offset that names no
register is answered with is open, free values. -/
def execRegRead (node : Fin 69) (unit : Fin 32) (offset : Nat) (s : State) : Out :=
  if !s.nodeLive node.val then .next s
  else
    let s := recvCobalt s node.val
    if unitReserved node.val unit.val then .next (sendReply s node.val stReserved [])
    else
      let s := passRefreshes s node.val unit.val
      let v := if offset % 8 = 0 then regValue s node.val unit.val offset else none
      match v with
      | some v => .next (sendReply s node.val 0 [v])
      | none =>
        let (st, s) := draw s
        let (x, s) := draw s
        .next (sendReply s node.val (st % 65536) [x % 2 ^ 64])

/-! ### Writing -/

/-- A written limit in cycles: 64 to 1,048,576 (07 R214, 09 R280). -/
def limitStatus (v : Nat) : Nat := natRange v 64 1048576

/-- TAP_CTL of a skillet (13 R404): the banks are exchanged before they are zeroed. -/
def tapCtl (s : State) (p : Pid) (v : Nat) : State :=
  let s := if bit v 0 then tapSwitch s p else s
  let s := if bit v 1 then clearIdle s p else s
  if bit v 2 then clearActive s p else s

/-- A register written: its status and the state; none where the register is not one that a write changes. -/
def writeReg (s : State) (node unit off v : Nat) : Option (Nat × State) :=
  if h : node < 64 then
    let p : Pid := ⟨node, h⟩
    if 8 ≤ unit && unit ≤ 0xF && off = 0x40 then
      some (accept (limitStatus v) s (s.modLd p (Fin.ofNat 8 (unit - 8)) (fun d => { d with lateLimit := v })))
    else if unit = 0x10 && off = 0x78 then
      some (accept (limitStatus v) s (s.modRt (nodeOf p) (fun r => { r with mcastLagLimit := v })))
    else if unit = 4 && off = 0x100 then
      some (accept (if 512 ≤ v || bits v 7 6 != 0 then stReserved else 0) s
        (s.modSk p (fun k => { k with taps := { k.taps with select := v } })))
    else if unit = 4 && off = 0x110 then some (accept (if 8 ≤ v then stReserved else 0) s (tapCtl s p v))
    else none
  else
    let sl := sliceOf (8 * (node - 64) + unit % 8)
    if unit = 0x18 && off = 0x78 then
      some (accept (limitStatus v) s (s.modRt (Fin.ofNat 68 node) (fun r => { r with mcastLagLimit := v })))
    else if 8 ≤ unit && unit ≤ 0xF && off = 0x100 then
      some (accept (if 512 ≤ v || bits v 7 6 != 0 then stReserved else 0) s (s.modUe sl (fun u => { u with select := v % 64 })))
    else if 8 ≤ unit && unit ≤ 0xF && off = 0x110 then
      some (accept (if 8 ≤ v then stReserved else 0) s
        (if bit v 1 || bit v 2 then s.modUe sl (fun u => { u with bank := {} }) else s))
    else none

/-- REG_WRITE (09 R277): answered with a REPLY. What a write of a register that no write changes is answered with is open,
a free value. -/
def execRegWrite (node : Fin 69) (unit : Fin 32) (offset : Nat) (value : W64) (s : State) : Out :=
  if !s.nodeLive node.val then .next s
  else
    let s := recvCobalt s node.val
    if unitReserved node.val unit.val then .next (sendReply s node.val stReserved [])
    else match writeReg s node.val unit.val offset value.toNat with
      | some (st, s) => .next (sendReply s node.val st [])
      | none =>
        let (st, s) := draw s
        .next (sendReply s node.val (st % 65536) [])

/-- A message that the steward takes from a node (09 R271): one of another epoch is discarded and counted at the rim
strip that the steward is attached to. Its own messages cross no network. -/
def stewardTake (s : State) (kind : CobaltKind) (src : Nat) : Option (Option CobaltMsg × State) :=
  match takeMsg s.mesh.cobalt kind src 68 with
  | none => none
  | some (m, rest) =>
    let s := { s with mesh := { s.mesh with cobalt := rest } }
    if src < 68 && (m.epoch != s.mesh.epoch || !cobaltAdmitted m) then
      some (none, s.modRt 67 (fun r => { r with cobaltDiscarded := sat64 r.cobaltDiscarded 1 }))
    else some (some m, s)

/-- REPLY (09 R277): the oldest answer of a node reaches the steward. -/
def execReply (node : Fin 69) (s : State) : Out :=
  match stewardTake s .reply node.val with
  | none => .next s
  | some (_, s) => .next s

end Sys2Proof.Machine
end

