-- ==== Sys2Proof/Machine/Routes.lean ====
section
/-! DEFINITION. Machine/Routes.lean: the routing tables that the steward computes around isolated regions and dead links
(09 R255, R256). A position is a skillet's PID or, from 64 on, a place of a rim strip under its slice's port number. -/

namespace Sys2Proof.Machine

/-- A place on the grid of skillets and rim strips. -/
abbrev Place := Fin 96

/-- Whether the router of a place lives (09 R252, R274): the isolation of its region's supply removes it, and a faulty router
or crossbar is routed around. -/
def liveNode (s : State) (p : Nat) : Bool :=
  if h : p < 64 then !vget s.col.isolated ⟨p, h⟩ && !(s.rt ⟨p, by omega⟩).faulty
  else !(s.rt (Fin.ofNat 68 (64 + (p - 64) / 8))).faulty

/-- Whether a skillet's link in a direction (0 north, 1 east, 2 south, 3 west) is up. -/
def linkUpAt (s : State) (p dir : Nat) : Bool :=
  if h : p < 68 then !(s.rt ⟨p, h⟩).linkDown.getLsbD (3 - dir) else true

/-- The place one move further, without regard to what is dead: along a strip, between a strip and its skillets, or
between skillets. -/
def moveFrom (p dir : Nat) : Option Nat :=
  if p < 64 then
    let x := p % 8
    let y := p / 8
    match dir with
    | 0 => some (if y = 0 then 64 + x else p - 8)
    | 1 => some (if x = 7 then 72 + y else p + 1)
    | 2 => some (if y = 7 then 80 + x else p + 8)
    | _ => some (if x = 0 then 88 + y else p - 1)
  else
    let side := (p - 64) / 8
    let i := p % 8
    let along : Nat := if side = 0 || side = 2 then 1 else 2
    let back : Nat := if side = 0 || side = 2 then 3 else 0
    let inward : Nat := match side with | 0 => 2 | 1 => 3 | 2 => 0 | _ => 1
    if dir = inward then some (attached side i)
    else if dir = along then (if i < 7 then some (p + 1) else none)
    else if dir = back then (if 0 < i then some (p - 1) else none)
    else none

/-- The opposite direction. -/
def opposite (dir : Nat) : Nat := (dir + 2) % 4

/-- The live place one move further over a live link (09 R255). -/
def liveMove (s : State) (p : Place) (dir : Nat) : Option Place :=
  match moveFrom p.val dir with
  | none => none
  | some q =>
    if h : q < 96 then
      let up := (if p.val < 64 then linkUpAt s p.val dir else true) && (if q < 64 then linkUpAt s q (opposite dir) else true)
      if liveNode s p.val && liveNode s q && up then some ⟨q, h⟩ else none
    else none

/-- The live moves of every place, computed once. -/
abbrev Moves := Vector (Vector (Option Place) 4) 96

/-- The live moves of a state. -/
def movesOf (s : State) : Moves := Vector.ofFn (fun p => Vector.ofFn (fun d => liveMove s p d.val))

/-- The length of the shortest way to a destination from each place. -/
abbrev Dist := Vector Nat 96

/-- No way. -/
def noWay : Nat := 1000

/-- One phase of a segment before the phases already covered by `d`: any number of moves in the given directions. -/
def phaseDist (m : Moves) (dirs : List (Fin 4)) (d : Dist) : Dist :=
  (List.range 10).foldl (fun d _ => Vector.ofFn (fun p => dirs.foldl (fun b k => match vget (vget m p) k with
    | some q => min b (vget d q + 1)
    | none => b) (vget d p))) d

/-- The lengths with one, two and three segments left, as pairs: before the moves along X and before those along Y. -/
def segmentDists (m : Moves) (dest : Place → Bool) : List (Dist × Dist) :=
  let seg (d : Dist) : Dist × Dist :=
    let y := phaseDist m [0, 2] d
    (phaseDist m [1, 3] y, y)
  let a := seg (Vector.ofFn (fun p => if dest p then 0 else noWay))
  let b := seg a.1
  [a, b, seg b.1]

/-- Whether a place belongs to a destination port (09 R250): a rim buffer or the bridge is reached at any place of its
strip. -/
def placeOfPort (dest : Nat) (p : Place) : Bool :=
  if dest < 96 then p.val = dest else if dest < 100 then (p.val - 64) / 8 = dest - 96 && 64 ≤ p.val else 88 ≤ p.val

/-- The length of the route from a place (09 R255). -/
def routeLen (ds : List (Dist × Dist)) (p : Place) : Nat := (ds.map (fun d => vget d.1 p)).foldl min noWay

/-- The first hop of the route from a place (09 R255): the fewest segments, then east, west, south, north. -/
def firstHop (m : Moves) (ds : List (Dist × Dist)) (p : Place) : Option Nat :=
  let l := routeLen ds p
  if l = 0 || noWay ≤ l then none
  else match ds.find? (fun d => vget d.1 p = l) with
    | none => none
    | some d =>
      (([1, 3, 2, 0] : List (Fin 4)).find? (fun k => match vget (vget m p) k with
        | some q => vget (if k.val = 1 || k.val = 3 then d.1 else d.2) q + 1 = l
        | none => false)).map (fun k => k.val)

/-- The attachment link by which the route from a place of a strip leaves the strip (09 R255): its moves along the strip up
to the one that goes inward. -/
def stripExit (fuel : Nat) (m : Moves) (ds : List (Dist × Dist)) (p : Place) : Option Nat :=
  match fuel with
  | 0 => none
  | fuel + 1 =>
    let inward : Nat := match (p.val - 64) / 8 with | 0 => 2 | 1 => 3 | 2 => 0 | _ => 1
    match firstHop m ds p with
    | none => none
    | some k => if (k : Nat) == inward then some (p.val % 8)
                else match vget (vget m p) (Fin.ofNat 4 k) with
                  | some q => stripExit fuel m ds q
                  | none => none

/-- Place i of a rim strip. -/
def stripPlace (node : Fin 68) (i : Nat) : Place := Fin.ofNat 96 (64 + 8 * (node.val - 64) + i)

/-- The place of a strip from which the way to a destination is shortest, the lowest among equals: the one by which a unit
without an index of its own leaves. -/
def bestPlace (ds : List (Dist × Dist)) (node : Fin 68) : Nat :=
  let cost (i : Nat) : Nat := routeLen ds (stripPlace node i)
  let best := ((List.range 8).map cost).foldl min noWay
  ((List.range 8).find? (fun i => cost i = best)).getD 0

/-- The table of a router: where it differs from the dimension-ordered default nothing is saved by leaving it out, so
every destination with a route is listed; a crossbar has entries for its units without an index and for each place. -/
def tableOf (m : Moves) (all : List (Nat × List (Dist × Dist))) (node : Fin 68) : Tab (Nat × Nat) :=
  if h : node.val < 64 then all.filterMap (fun e => (firstHop m e.2 ⟨node.val, by omega⟩).map (fun o => (e.1, (o, 0))))
  else
    let away := all.filter (fun e => portNode e.1 != node.val)
    away.filterMap (fun e => (stripExit 9 m e.2 (stripPlace node (bestPlace e.2 node))).map (fun o => (e.1, (o, 0))))
      ++ (List.range 8).flatMap (fun i => away.filterMap (fun e =>
        (stripExit 9 m e.2 (stripPlace node i)).map (fun o => (128 * (i + 1) + e.1, (o, 0)))))

/-- The Manhattan distance between two ends (09 R256). -/
def manhattan (a b : Place) : Nat :=
  let att (p : Place) : Nat := if p.val < 64 then p.val else attached ((p.val - 64) / 8) (p.val % 8)
  pidDist (Fin.ofNat 64 (att a)) (Fin.ofNat 64 (att b)) + b2n (64 ≤ a.val) + b2n (64 ≤ b.val)

/-- Whether the route from a live place to a destination port is missing or more than 4 hops too long (09 R256). -/
def unreachable (s : State) (dest : Nat) (ds : List (Dist × Dist)) : Bool :=
  let ends := (List.finRange 96).filter (fun q => placeOfPort dest q && liveNode s q.val)
  !ends.isEmpty && ((List.finRange 96).filter (fun p => liveNode s p.val)).any (fun p =>
    (ends.map (fun q => manhattan p q)).foldl min noWay + 4 < routeLen ds p)

/-- The tables of all routers as the rules give them, and whether some pair of live ports has no route. -/
def routeTables (s : State) : List (Tab (Nat × Nat)) × Bool :=
  let m := movesOf s
  let all := (List.range 101).map (fun dest => (dest, segmentDists m (placeOfPort dest)))
  ((List.finRange 68).map (fun n => tableOf m all n), all.any (fun e => unreachable s e.1 e.2))

/-- Whether every region and link is as the dimension-ordered routes need it (09 R254). -/
def meshWhole (s : State) : Bool :=
  s.col.isolated.toList.all (fun b => !b) && s.mesh.routers.toList.all (fun r => r.linkDown == 0 && !r.faulty)

/-- The routes rebuilt into the idle bank (09 R255, 15 R457 step 2), where a region is isolated or a link is down and the
tables in force are not these already. -/
def rebuildRoutes (s : State) : State :=
  if meshWhole s then s
  else
    let (ts, bad) := routeTables s
    let now := (List.finRange 68).map (fun n => vget (s.rt n).tables (Fin.ofNat 2 s.mesh.bank))
    let s := if now = ts then s
      else
        let idle : Fin 2 := Fin.ofNat 2 (1 - s.mesh.bank)
        let s := ((List.finRange 68).zip ts).foldl (fun t e =>
          t.modRt e.1 (fun r => { r with tables := vset r.tables idle e.2 })) s
        { s with mesh := { s.mesh with banksWritten := true } }
    if bad then raiseMod s .routeUnreachable 0 else s

end Sys2Proof.Machine
end

