-- ==== Sys2Proof/Machine/WhiskMath.lean ====
section
/-! DEFINITION. Machine/WhiskMath.lean: the whisk's arithmetic on rows (08 R233, R236-R238): binary32 steps, table
functions within 2 ulp, row reductions, and the operations on one row. -/

namespace Sys2Proof.Machine

/-- Fixed-point fraction bits of the reference values below. -/
def fixBits : Nat := 120

/-- ln 2 in fixed point: 2 × atanh(1/3) by its series. -/
def fixLn2 : Nat :=
  2 * ((List.range 40).foldl (fun a i => a + 2 ^ fixBits / (3 ^ (2 * i + 1) * (2 * i + 1))) 0)

/-- exp of a fixed-point number in [0, ln 2) by its series. -/
def fixExp (r : Nat) : Nat :=
  ((List.range 40).foldl (fun (a : Nat × Nat) i => (a.1 + a.2, a.2 * r / 2 ^ fixBits / (i + 1))) (0, 2 ^ fixBits)).1

/-- A finite number in fixed point. -/
def toFix (x : Num) : Int :=
  match x with
  | .fin s m e => signed s (let k := e + fixBits; if 0 ≤ k then m * 2 ^ k.toNat else m / 2 ^ (-k).toNat)
  | _ => 0

/-- exp of a finite number of magnitude below 256, to about 2^-100; beyond that an overflow or a vanishing value. -/
def expNum (x : Num) : Num :=
  if Num.lt (.fin false 256 0) x then .inf false
  else if Num.lt x (.fin true 256 0) then .fin false 1 (-300)
  else
    let v := toFix x
    let k := v / (fixLn2 : Int)
    .fin false (fixExp (v - k * fixLn2).toNat) (k - fixBits)

/-- ln of a positive finite number, to about 2^-100: k ln 2 + 2 atanh((y - 1) / (y + 1)) for y in [1, 2). -/
def lnNum (m : Nat) (e : Int) : Num :=
  let lg := Nat.log2 m
  let y := m * 2 ^ fixBits / 2 ^ lg
  let z := (y - 2 ^ fixBits) * 2 ^ fixBits / (y + 2 ^ fixBits)
  let z2 := z * z / 2 ^ fixBits
  let s := ((List.range 45).foldl (fun (a : Nat × Nat) i => (a.1 + a.2 / (2 * i + 1), a.2 * z2 / 2 ^ fixBits)) (0, z)).1
  let v : Int := (e + lg) * fixLn2 + 2 * (s : Int)
  .fin (decide (v < 0)) v.natAbs (-(fixBits : Int))

/-- A table result (08 R233): one of the binary32 values within 2 ulp of the exact value, chosen by a free value that
depends on the function and its operand alone; a result that overflows binary32 is an infinity (08 R237). `exact` is
positive, zero or infinite up to its sign. -/
def tableResult (fn arg : Nat) (exact : Num) : W32 :=
  match exact with
  | .fin s m e =>
    if m = 0 || b32.encode (.fin false m e) = b32.infBits false then f32of exact
    else
      let near := b32.encode (.fin false m e)
      let above := Num.lt (.fin false m e) (b32.decode near)
      let same := !above && !Num.lt (b32.decode near) (.fin false m e)
      let low := if above then near - 1 else near
      let k := Config.tableUlp fn arg
      let i : Int := if same then (low : Int) - 2 + (k % 5 : Nat) else (low : Int) - 1 + (k % 4 : Nat)
      let i : Nat := min (max 0 i).toNat (b32.infBits false - 1)
      BitVec.ofNat 32 (if s then i + 2 ^ 31 else i)
  | _ => f32of exact

/-- binary32 +0, +infinity, -infinity and the canonical NaN. -/
def w32Zero : W32 := 0
/-- binary32 +infinity. -/
def w32Inf : W32 := f32of (.inf false)
/-- binary32 -infinity. -/
def w32NegInf : W32 := f32of (.inf true)
/-- The canonical binary32 NaN. -/
def w32Nan : W32 := f32of .nan

/-- EXP (08 R233, R237): +0 for -infinity, +infinity on overflow. -/
def whiskExp (a : W32) : W32 :=
  match f32num a with
  | .nan => w32Nan
  | .inf neg => if neg then w32Zero else w32Inf
  | x => tableResult 0x13 a.toNat (expNum x)

/-- LOG (08 R233, R237): -infinity for zero and NaN for a negative input. -/
def whiskLog (a : W32) : W32 :=
  match f32num a with
  | .nan => w32Nan
  | .inf neg => if neg then w32Nan else w32Inf
  | .fin neg m e => if m = 0 then w32NegInf else if neg then w32Nan else tableResult 0x14 a.toNat (lnNum m e)

/-- RECIP (08 R233, R237): an infinity for a zero. -/
def whiskRecip (a : W32) : W32 := tableResult 0x15 a.toNat (Num.div (.fin false 1 0) (f32num a))

/-- RSQRT (08 R233, R237): +infinity for +0 and NaN for a negative input; the result for -0 is stated nowhere and free. -/
def whiskRsqrt (a : W32) : W32 :=
  match f32num a with
  | .fin true m _ => if m = 0 then BitVec.ofNat 32 (Config.whiskElem 0x16 [] [[a.toNat]] 0) else w32Nan
  | .inf true => w32Nan
  | x => tableResult 0x16 a.toNat (Num.div (.fin false 1 0) (Num.sqrt x))

/-- Element maximum (08 R236): a NaN input gives NaN. Equal numbers have equal bits but for the zeros, of which +0 is the
larger (05 R136). -/
def whiskMax (a b : W32) : W32 :=
  if (f32num a).isNan || (f32num b).isNan then w32Nan
  else if Num.lt (f32num a) (f32num b) then b
  else if Num.lt (f32num b) (f32num a) then a
  else a &&& b

/-- Element minimum (08 R236): of the zeros −0 is the smaller. -/
def whiskMin (a b : W32) : W32 :=
  if (f32num a).isNan || (f32num b).isNan then w32Nan
  else if Num.lt (f32num b) (f32num a) then b
  else if Num.lt (f32num a) (f32num b) then a
  else a ||| b

/-- Pairs of a list added, the last one alone where its length is odd. -/
def addPairs : List W32 → List W32
  | a :: b :: r => f32add a b :: addPairs r
  | r => r

/-- The fixed pairwise tree over lane sums (08 R233). -/
def treeSum (fuel : Nat) (xs : List W32) : W32 :=
  match fuel, xs with
  | _, [] => 0
  | _, [a] => a
  | 0, a :: _ => a
  | fuel + 1, xs => treeSum fuel (addPairs xs)

/-- A row reduction (08 R233): lane i sums columns i, i + 8,192, ... in ascending order, and the lanes are combined in a
pairwise tree; lanes beyond the row are zero and change nothing. -/
def rowSum (xs : List W32) : W32 :=
  let lanes := min 8192 xs.length
  let sums := (List.range lanes).map (fun i =>
    (List.range ((xs.length - i + 8191) / 8192)).foldl (fun a j => f32add a (xs.getD (i + 8192 * j) 0)) 0)
  treeSum 14 sums

/-- The largest value of a row; a NaN gives NaN. -/
def rowMax (xs : List W32) : W32 := xs.foldl whiskMax w32NegInf

/-- Whether every value of a row is -infinity, and whether one is a NaN or +infinity (08 R237). -/
def rowAllNegInf (xs : List W32) : Bool := xs.all (fun x => x == w32NegInf)
/-- Whether a row holds a NaN or +infinity (08 R237). -/
def rowBad (xs : List W32) : Bool := xs.any (fun x => (f32num x).isNan || x == w32Inf)

/-- The binary32 value nearest a quotient of integers. -/
def f32lit (n d : Nat) : W32 := f32of (Num.div (.fin false n 0) (.fin false d 0))

/-- binary32 1. -/
def w32One : W32 := f32lit 1 1

/-- A value with its sign changed. -/
def f32neg (a : W32) : W32 := a ^^^ 0x80000000

/-- A product of three factors: the formula leaves open which two are multiplied first. -/
def mul3 (op : Nat) (a b c : W32) : W32 :=
  match Config.stepOrder op % 3 with
  | 0 => f32mul (f32mul a b) c
  | 1 => f32mul a (f32mul b c)
  | _ => f32mul (f32mul a c) b

/-- tanh by its exponential (08 R233): as 1 − 2/(exp 2u + 1), or from exp −2|u| with the sign of u. -/
def tanhSteps (u : W32) : W32 :=
  if Config.stepOrder 0 % 2 = 0 then
    f32sub w32One (f32mul (f32lit 2 1) (whiskRecip (f32add (whiskExp (f32mul (f32lit 2 1) u)) w32One)))
  else
    let t := whiskExp (f32mul (f32neg (f32lit 2 1)) (u &&& 0x7FFFFFFF))
    f32mul (f32sub w32One t) (whiskRecip (f32add w32One t)) ||| (u &&& 0x80000000)

/-- The tanh of GELU (08 R236): tanh(0.797 884 56·(A + 0.044 715·A³)). -/
def geluTanh (x : W32) : W32 :=
  tanhSteps (f32mul (f32lit 79788456 100000000) (f32add x (f32mul (f32lit 44715 1000000) (f32mul (f32mul x x) x))))

/-- GELU (08 R236). -/
def whiskGelu (x : W32) : W32 := mul3 0x11 (f32lit 1 2) x (f32add w32One (geluTanh x))

/-- 1 / (1 + exp(−A)), the factor of SILU (08 R236). -/
def sigmoid (x : W32) : W32 := whiskRecip (f32add w32One (whiskExp (f32neg x)))

/-- SILU (08 R236). -/
def whiskSilu (x : W32) : W32 := f32mul x (sigmoid x)

/-- The derivative of GELU (08 R236): with t the tanh, ½(1 + t) + ½·A·(1 − t²)·0.797 884 56·(1 + 3·0.044 715·A²). -/
def geluSlope (x : W32) : W32 :=
  let t := geluTanh x
  let du := f32mul (f32lit 79788456 100000000) (f32add w32One (mul3 0x18 (f32lit 134145 1000000) x x))
  f32add (f32mul (f32lit 1 2) (f32add w32One t)) (f32mul (mul3 0x18 (f32lit 1 2) x (f32sub w32One (f32mul t t))) du)

/-- The derivative of SILU (08 R236): with σ the factor, σ·(1 + A·(1 − σ)). -/
def siluSlope (x : W32) : W32 :=
  let g := sigmoid x
  f32mul g (f32add w32One (f32mul x (f32sub w32One g)))

/-- The sum of a row's exponentials, each of the value less the row's largest, so that no finite row overflows. -/
def rowExpSum (xs : List W32) : W32 := rowSum (xs.map (fun x => whiskExp (f32sub x (rowMax xs))))

/-- softmax of a row (08 R236, R237). -/
def softmaxRow (xs : List W32) : List W32 :=
  if rowBad xs then xs.map (fun _ => w32Nan)
  else if rowAllNegInf xs then xs.map (fun _ => w32Zero)
  else xs.map (fun x => f32mul (whiskExp (f32sub x (rowMax xs))) (whiskRecip (rowExpSum xs)))

/-- ln of the sum of a row's exponentials (08 R236, R237). -/
def rowLse (xs : List W32) : W32 :=
  if rowBad xs then w32Nan
  else if rowAllNegInf xs then w32NegInf
  else f32add (rowMax xs) (whiskLog (rowExpSum xs))

/-- The mean of a row: its sum by a reciprocal of the number of columns, or over it. -/
def rowMean (xs : List W32) : W32 :=
  let n := f32lit xs.length 1
  if Config.stepOrder 1 % 2 = 0 then f32mul (rowSum xs) (whiskRecip n) else f32div (rowSum xs) n

/-- Columns of two rows combined. -/
def zipCols (f : W32 → W32 → W32) (a b : List W32) : List W32 := (List.zip a b).map (fun e => f e.1 e.2)

/-- 1/√(mean A² + P0), the factor of RMSNORM (08 R236). -/
def rmsFactor (p0 : W32) (a : List W32) : W32 := whiskRsqrt (f32add (rowMean (a.map (fun x => f32mul x x))) p0)

/-- A row less its mean. -/
def centred (a : List W32) : List W32 := a.map (fun x => f32sub x (rowMean a))

/-- 1/√(var + P0), the factor of LAYERNORM (08 R236): the variance as the mean of the squared differences, or as the mean
square less the squared mean. -/
def layerFactor (p0 : W32) (a : List W32) : W32 :=
  let var := if Config.stepOrder 2 % 2 = 0 then rowMean ((centred a).map (fun x => f32mul x x))
    else f32sub (rowMean (a.map (fun x => f32mul x x))) (f32mul (rowMean a) (rowMean a))
  whiskRsqrt (f32add var p0)

/-- dx of a norm (08 R236): of the normalised row x̂, the factor r and h = gain · dy, r · (h − shift − x̂ · mean(h · x̂)),
where shift is mean h in LAYERNORM and 0 in RMSNORM. -/
def normGrad (r : W32) (xhat h shifted : List W32) : List W32 :=
  let q := rowMean (zipCols f32mul h xhat)
  (List.zip xhat shifted).map (fun e => f32mul r (f32sub e.2 (f32mul e.1 q)))

/-- The inputs of a SOFTMAX row (08 R236): P0·A + B. -/
def softmaxIn (p0 : W32) (a b : List W32) : List W32 :=
  (List.range a.length).map (fun j =>
    let x := f32mul p0 (a.getD j 0)
    if b.isEmpty then x else f32add x (b.getD j 0))

/-- What D receives for one row of an operation other than CONVERT and DISTILL (08 R236, R237); a per-row operation
gives one value. No other code passes R240. -/
def whiskRow (op : Nat) (p0 p1 : W32) (a b c : List W32) : List W32 :=
  match op with
  | 0x01 => zipCols f32add a b
  | 0x02 => zipCols f32sub a b
  | 0x03 => zipCols f32mul a b
  | 0x04 => zipCols f32add (zipCols f32mul a b) c
  | 0x05 => zipCols (fun x y => f32add (f32mul p0 x) (f32mul p1 y)) a b
  | 0x06 => zipCols whiskMax a b
  | 0x07 => zipCols whiskMin a b
  | 0x08 => a.map (fun x => f32add (f32mul p0 x) p1)
  | 0x10 => a.map (fun x => whiskMax w32Zero x)
  | 0x11 => a.map whiskGelu
  | 0x12 => a.map whiskSilu
  | 0x13 => a.map (fun x => whiskExp (f32mul p0 x))
  | 0x14 => a.map whiskLog
  | 0x15 => a.map whiskRecip
  | 0x16 => a.map whiskRsqrt
  | 0x18 => zipCols (fun x dy => f32mul dy (geluSlope x)) a b
  | 0x19 => zipCols (fun x dy => f32mul dy (siluSlope x)) a b
  | 0x20 => [rowSum a]
  | 0x21 => [rowSum (a.map (fun x => f32mul x x))]
  | 0x22 => [rowMax a]
  | 0x23 => [rowLse a]
  | 0x28 => softmaxRow (softmaxIn p0 a b)
  | 0x29 =>
    let s := rowSum (zipCols (fun y dy => f32mul dy y) a b)
    zipCols (fun y dy => mul3 0x29 p0 y (f32sub dy s)) a b
  | 0x2A => zipCols (fun x g => mul3 0x2A x g (rmsFactor p0 a)) a b
  | 0x2B =>
    let r := rmsFactor p0 a
    let h := zipCols f32mul c b
    normGrad r (a.map (fun x => f32mul x r)) h h
  | 0x2C => zipCols f32add (zipCols (fun x g => mul3 0x2C x g (layerFactor p0 a)) (centred a) b) c
  | 0x2D =>
    let r := layerFactor p0 a
    let h := zipCols f32mul c b
    normGrad r ((centred a).map (fun x => f32mul x r)) h (centred h)
  | _ => a

/-- z / T of a row of logits (01 R39): T = 1.0 changes nothing. -/
def tempered (t : W32) (z : List W32) : List W32 := if t = w32One then z else z.map (fun x => f32mul x (whiskRecip t))

/-- KL(softmax(z_t / T) ‖ softmax(z_s / T)) of two tempered rows (01 R39): a term with p_t = 0 adds nothing (08 R238); a
non-finite teacher logit makes it non-finite (01 R40). The logarithm of a probability is its logit less the row's LSE. -/
def klRow (zt zs : List W32) : W32 :=
  if zt.any (fun x => !(f32num x).isFin) then w32Nan
  else
    let lt := rowLse zt
    let ls := rowLse zs
    rowSum ((List.zip (softmaxRow zt) (List.zip zt zs)).map (fun e =>
      if (f32num e.1).isZero then w32Zero
      else f32mul e.1 (f32sub (f32sub e.2.1 lt) (f32sub e.2.2 ls))))

/-- CE(softmax(z_s), y) (01 R39). -/
def crossEntropy (zs : List W32) (label : Nat) : W32 := f32sub (rowLse zs) (zs.getD label 0)

/-- The loss of a row (01 R39): without a teacher (R40) only its second term. -/
def distillLoss (t alpha beta : W32) (zs zt : List W32) (label : Nat) : W32 :=
  let hard := f32mul beta (crossEntropy zs label)
  if zt.isEmpty then hard
  else f32add (mul3 0x38 alpha (f32mul t t) (klRow (tempered t zt) (tempered t zs))) hard

/-- The gradient of a row (01 R39). -/
def distillGrad (t alpha beta : W32) (zs zt : List W32) (label : Nat) : List W32 :=
  let hard := (softmaxRow zs).zipIdx.map (fun e => f32mul beta (if e.2 = label then f32sub e.1 w32One else e.1))
  if zt.isEmpty then hard
  else zipCols f32add
    ((List.zip (softmaxRow (tempered t zs)) (softmaxRow (tempered t zt))).map (fun e =>
      mul3 0x39 alpha t (f32sub e.1 e.2))) hard

/-- One row of DISTILL (08 R238): the gradient row, scaled, and the loss where the row counts. A label of COLS or more is
ignored. `ps` holds T, alpha, beta and the output scale. -/
def distillRow (ps : List W32) (zs zt : List W32) (label : Nat) : List W32 × Option W32 :=
  let (t, alpha, beta, scale) := (ps.getD 0 0, ps.getD 1 0, ps.getD 2 0, ps.getD 3 0)
  if zs.length ≤ label then (zs.map (fun _ => w32Zero), none)
  else ((distillGrad t alpha beta zs zt label).map (fun g => f32mul scale g), some (distillLoss t alpha beta zs zt label))

end Sys2Proof.Machine
end

