-- ==== Sys2Proof/Machine/Whisk.lean ====
section
/-! DEFINITION. Machine/Whisk.lean: the whisk (08 R232-R243): acceptance, start, end and faults of its operations, and
the tap commands (08 R245, 13 R404). -/

namespace Sys2Proof.Machine

/-- The operation codes of R236. -/
def whiskOpOk (op : Nat) : Bool :=
  (1 ≤ op && op ≤ 8) || (0x10 ≤ op && op ≤ 0x16) || op == 0x18 || op == 0x19 || (0x20 ≤ op && op ≤ 0x23) || op == 0x28
    || op == 0x29 || (0x2A ≤ op && op ≤ 0x2D) || op == 0x30 || op == 0x38

/-- CONVERT and DISTILL (08 R236). -/
def WhiskDesc.convert (d : WhiskDesc) : Bool := d.op == 0x30
/-- DISTILL (08 R238). -/
def WhiskDesc.distill (d : WhiskDesc) : Bool := d.op == 0x38

/-- Operations with one value per row (08 R236). -/
def WhiskDesc.perRow (d : WhiskDesc) : Bool := 0x20 ≤ d.op && d.op ≤ 0x23

/-- Whether DISTILL has a teacher part (08 R238): α above 0. -/
def WhiskDesc.teacher (d : WhiskDesc) : Bool := Num.lt (.fin false 0 0) (f32num d.p1)

/-- Whether operand B is required, and whether it is optional (08 R236, R238). -/
def WhiskDesc.needsB (d : WhiskDesc) : Bool :=
  (1 ≤ d.op && d.op ≤ 7) || d.op == 0x18 || d.op == 0x19 || d.op == 0x29 || (0x2A ≤ d.op && d.op ≤ 0x2D)
    || (d.distill && d.teacher)
/-- Whether operand C is required (08 R236). -/
def WhiskDesc.needsC (d : WhiskDesc) : Bool :=
  d.op == 4 || d.op == 0x2B || d.op == 0x2C || d.op == 0x2D || d.distill

/-- Whether an operand word is present. -/
def Operand.present (o : Operand) : Bool := o.raw != 0

/-- The scalars that an operation uses (08 R236, R238). -/
def WhiskDesc.scalars (d : WhiskDesc) : List Bool :=
  let two := d.op == 5 || d.op == 8
  let one := two || d.op == 0x13 || (0x28 ≤ d.op && d.op ≤ 0x2D)
  [one || d.distill, two || d.distill, d.distill, d.distill]

/-- The four scalars. -/
def WhiskDesc.ps (d : WhiskDesc) : List W32 := [d.p0, d.p1, d.p2, d.p3]

/-- The bytes of a scale array (04 R100): one per block of 32 along each row. -/
def WhiskDesc.scaleBytes (d : WhiskDesc) : Nat := d.rows * ((d.cols + 31) / 32)

/-- The bytes that an operand's rows span; STRIDE 0 gives one row to every row. -/
def Operand.spanned (o : Operand) (rows len : Nat) : Nat := if rows = 0 then 0 else (rows - 1) * (o.stride * 64) + len

/-- Bytes of a per-row output (08 R235): packed where STRIDE is 0. -/
def Operand.spannedRow (o : Operand) (rows : Nat) : Nat := if o.stride = 0 then 2 * rows else o.spanned rows 2

/-- The pantry ranges of an operation: operand where it has one, base, length, and whether it is a destination. -/
def WhiskDesc.ranges (d : WhiskDesc) : List (Option Operand × Nat × Nat × Bool) :=
  if d.rows = 0 || d.cols = 0 then []
  else
    let src (o : Operand) (len : Nat) : List (Option Operand × Nat × Nat × Bool) :=
      if o.present then [(some o, o.base, o.spanned d.rows len, false)] else []
    src d.a (rowBytes d.inFmt d.cols) ++ src d.b (rowBytes d.inFmt d.cols)
      ++ (if d.distill then [(some d.c, d.c.base, 4 * d.rows, false)] else src d.c (rowBytes d.inFmt d.cols))
      ++ (if d.convert && fmtScaled d.inFmt then [(none, d.inScale * 64, d.scaleBytes, false)] else [])
      ++ (if d.convert && fmtScaled d.outFmt then [(none, d.outScale * 64, d.scaleBytes, true)] else [])
      ++ [(some d.d, d.d.base, if d.perRow then d.d.spannedRow d.rows else d.d.spanned d.rows (rowBytes d.outFmt d.cols), true)]
      ++ (if d.e.present then [(some d.e, d.e.base, d.e.spannedRow d.rows, true)] else [])

/-- A destination pitch smaller than its row (08 R240). -/
def pitchShort (o : Operand) (rowLen : Nat) (perRow : Bool) : Bool :=
  o.present && !(perRow && o.stride = 0) && o.stride * 64 < rowLen

/-- The inconsistencies of a descriptor (08 R240, R236, R238). -/
def WhiskDesc.inconsistent (d : WhiskDesc) : Bool :=
  let fmtBad := if d.convert then 8 < d.inFmt || 8 < d.outFmt else 1 < d.inFmt || 1 < d.outFmt
  let bOk := d.needsB || d.op == 0x28
  let zero : Num := .fin false 0 0
  let used := List.zip d.ps d.scalars
  let slots (os : List Operand) : List Nat := (os.filter (fun o => o.present && o.chk)).map (fun o => o.slot)
  fmtBad || !d.a.present || !d.d.present || (d.needsB && !d.b.present) || (d.needsC && !d.c.present)
    || (!bOk && d.b.present) || (!d.needsC && d.c.present) || (!d.distill && d.e.present)
    || (!d.convert && used.any (fun e => !e.2 && e.1 != 0)) || (d.convert && (d.p0 != 0 || d.p1 != 0))
    || (d.convert && ((!fmtScaled d.inFmt && d.inScale != 0) || (!fmtScaled d.outFmt && d.outScale != 0)))
    || [d.a, d.b, d.c, d.d, d.e].any Operand.unusedField || (!d.tapEn && d.tap != 0) || (d.sat && 1 < d.outFmt)
    || (d.d.stride = 0 && !d.perRow)
    || ((d.op == 0x2A || d.op == 0x2C) && d.b.stride != 0) || (d.op == 0x2C && d.c.stride != 0)
    || (d.distill && d.c.stride != 0)
    || (!d.convert && used.any (fun e => e.2 && !(f32num e.1).isFin))
    || (d.distill && (!Num.lt zero (f32num d.p0) || Num.lt (f32num d.p1) zero || Num.lt (f32num d.p2) zero
      || ((f32num d.p1).isZero && (f32num d.p2).isZero)))
    || (slots [d.a, d.b, d.c]).any (fun x => (slots [d.d, d.e]).contains x)

/-- The first status of R240 whose condition holds for a descriptor at a unit address; 0 where it stands. -/
def whiskStatus (k : Pantry) (addr : Nat) (d : WhiskDesc) : Nat :=
  let rs := d.ranges
  let outside (r : Option Operand × Nat × Nat × Bool) : Bool := match r.1 with
    | some o => o.chk && !(k.slot o.slot).covers r.2.1 r.2.2.1
    | none => false
  if paLimit < addr * 64 + 64 then stDescFormat
  else if !whiskOpOk d.op || 0xB ≤ d.inFmt || 0xB ≤ d.outFmt || (d.convert && d.w2rsv != 0)
      || [d.a, d.b, d.c, d.d, d.e].any (fun o => o.rsv) then stReserved
  else if d.inconsistent then stInconsistent
  else if 131072 < d.rows || 131072 < d.cols || 16777216 < d.rows * d.cols || rs.any (fun r => paLimit < r.2.1 + r.2.2.1)
      || rs.any outside || (!rs.isEmpty && (pitchShort d.d (if d.perRow then 2 else rowBytes d.outFmt d.cols) d.perRow
      || pitchShort d.e 2 true)) then stDescRange
  else if rs.any (fun r => !rangeOpen k r.2.1 r.2.2.1) then stBankClosed
  else 0

/-- WHISK_RUN (08 R232, R240): the descriptor is copied, validated and queued; a full queue makes the task wait. -/
def execWhiskRun (p : Pid) (s : State) : Out :=
  .next (issueWord s p .run (fun s t w =>
    let addr := bits w 111 89
    if 4 ≤ (s.wh p).queue.length then waitTask s p t 5 w
    else
      let i := issuerOf s p t w
      let (r, s) := if paLimit < addr * 64 + 64 then (⟨List.replicate 64 0, [], []⟩, s) else readRange s p 4 (addr * 64) 64
      let d := whiskDescOf r.bytes
      match whiskStatus (s.pn p) addr d with
      | 0 => finishWord (s.modWh p (fun h => { h with queue := h.queue ++ [{ addr := addr, desc := d, issuer := i }] })) p t w 0
      | st =>
        let s := s.modWh p (fun h => { h with lastStatus := st, opsRejected := sat64 h.opsRejected 1 })
        finishWord (raiseSk s p 4 .whiskRejected (names [addr, st])) p t w st))

/-! ### Running -/

/-- The checked source and destination operands of an operation. -/
def WhiskDesc.srcs (d : WhiskDesc) : List Operand := [d.a, d.b, d.c].filter (fun o => o.present && o.chk)
/-- The checked destination operands of an operation. -/
def WhiskDesc.dsts (d : WhiskDesc) : List Operand := [d.d, d.e].filter (fun o => o.present && o.chk)

/-- The releases and completions that an operation's words name (08 R232). -/
def whiskSlots (s : State) (p : Pid) (d : WhiskDesc) : State :=
  let s := d.srcs.foldl (fun t o => releaseOperand t p o) s
  d.dsts.foldl (fun t o => if o.fin then slotCompletion t p o.slot else t) s

/-- Whether the slots let an operation start (08 R232). -/
def whiskSlotsOk (s : State) (p : Pid) (d : WhiskDesc) : Bool :=
  d.srcs.all (fun o => s.slotSt p o.slot == .full) && d.dsts.all (fun o => slotWritable s p o.slot)

/-- A source operand's rows as bytes, with whether poison came. -/
def readOperand (s : State) (p : Pid) (o : Operand) (rows len : Nat) : List (List Byte) × Bool × State :=
  if o.present then readRows s p 4 o.base (o.stride * 64) rows len else (List.replicate rows [], false, s)

/-- The binary32 values of a row in a 16-bit format (08 R233). -/
def row32 (fmt n : Nat) (bs : List Byte) : List W32 :=
  if bs.isEmpty then [] else (List.range n).map (fun j => f32of ((fmt16 fmt).decode (rowElem fmt bs j)))

/-- What one row leaves: the bytes for D, the scale bytes, the bytes for E, the values that the tap sees, the loss. -/
structure RowOut where
  d : List Byte
  scales : List Byte
  e : List Byte
  taps : List Num
  loss : Option W32
  deriving DecidableEq, Repr

/-- Values rounded to a 16-bit OUT_FMT (08 R233, 05 R150). -/
def row16 (d : WhiskDesc) (xs : List W32) : List Byte × List Num :=
  let vs := xs.map (fun x => toFmt16 d.outFmt d.sat (f32num x))
  (vs.flatMap (fun v => leBytes 2 v), vs.map (fun v => (fmt16 d.outFmt).decode v))

/-- The 32-element blocks of a row. -/
def rowBlocks (n : Nat) : List Nat := List.range ((n + 31) / 32)

/-- CONVERT of one row (08 R237, 05 R141): blocks of 32 along the row, a partial last block filled with zeros. -/
def convertRow (d : WhiskDesc) (bs scales : List Byte) : RowOut :=
  let xs := (rowNums d.inFmt d.cols bs scales).map (fun x => b32.rnd x)
  if fmtScaled d.outFmt then
    let blocks := (rowBlocks d.cols).map (fun b =>
      let part := (xs.drop (32 * b)).take 32
      let e := blockEncode d.outFmt (part ++ List.replicate (32 - part.length) (.fin false 0 0))
      (e.1, e.2.take part.length))
    let sc := blocks.map (fun b => BitVec.ofNat 8 b.1)
    { d := packRow d.outFmt (blocks.flatMap (fun b => b.2)), scales := sc, e := [], loss := none,
      taps := blocks.flatMap (fun b => b.2.map (fun v => scaledNum d.outFmt v b.1)) }
  else
    let r := row16 d (xs.map f32of)
    { d := r.1, scales := [], e := [], taps := r.2, loss := none }

/-- One row of an operation (08 R236-R238). -/
def runRow (d : WhiskDesc) (a b c scales : List Byte) : RowOut :=
  if d.convert then convertRow d a scales
  else if d.distill then
    let (g, loss) := distillRow d.ps (row32 d.inFmt d.cols a) (row32 d.inFmt d.cols b) (leNat c)
    let r := row16 d g
    { d := r.1, scales := [], taps := r.2, loss := loss, e := if d.e.present then (row16 d [loss.getD 0]).1 else [] }
  else
    let n (o : Operand) : Nat := if o.present then d.cols else 0
    let r := row16 d (whiskRow d.op d.p0 d.p1 (row32 d.inFmt d.cols a) (row32 d.inFmt (n d.b) b) (row32 d.inFmt (n d.c) c))
    { d := r.1, scales := [], e := [], taps := r.2, loss := none }

/-- The address of row r of a destination: packed where it is a per-row output with STRIDE 0 (08 R235). -/
def Operand.rowAt (o : Operand) (r : Nat) (perRow : Bool) : Nat :=
  if perRow && o.stride = 0 then o.base + 2 * r else o.base + r * o.stride * 64

/-- An operation starts (08 R232): its operands are read, its results computed; they are written at its end. -/
def startWhisk (s : State) (p : Pid) (x : WhiskOp) : State :=
  let d := x.desc
  let s := d.dsts.foldl (fun t o => slotProduce t p o.slot) s
  let (a, p1, s) := readOperand s p d.a d.rows (rowBytes d.inFmt d.cols)
  let (b, p2, s) := readOperand s p d.b d.rows (rowBytes d.inFmt d.cols)
  let (c, p3, s) := if d.distill then readRows s p 4 d.c.base 4 d.rows 4
    else readOperand s p d.c d.rows (rowBytes d.inFmt d.cols)
  let nb := (d.cols + 31) / 32
  let (sc, p4, s) := if d.convert && fmtScaled d.inFmt then readRows s p 4 (d.inScale * 64) nb d.rows nb
    else (List.replicate d.rows [], false, s)
  let rows := (List.range d.rows).map (fun r => runRow d (a.getD r []) (b.getD r []) (c.getD r []) (sc.getD r []))
  let outs := rows.zipIdx.flatMap (fun e =>
    [(d.d.rowAt e.2 d.perRow, e.1.d)]
      ++ (if e.1.scales.isEmpty then [] else [(d.outScale * 64 + e.2 * nb, e.1.scales)])
      ++ (if e.1.e.isEmpty then [] else [(d.e.rowAt e.2 true, e.1.e)]))
  let (c1, s) := draw s
  let (c2, s) := draw s
  s.modWh p (fun h => { h with
    stallInput := sat64 h.stallInput c1, stallOutput := sat64 h.stallOutput c2,
    running := some { x with
      outs := outs, taps := if d.tapEn then rows.flatMap (fun r => r.taps.map tapBin) |>.map (fun b => (d.tap, b)) else [],
      losses := rows.filterMap (fun r => r.loss), fault := if p1 || p2 || p3 || p4 then 1 else 0 } })

/-- WHISK_OP_START (08 R232, R241, 06 R170): the oldest queued operation. An operation of no rows or columns ends at once;
a slot out of state ends it with 0x0704, unperformed. `errs` are errors that the banks have taken (06 R180). -/
def execWhiskOpStart (p : Pid) (errs : List (Nat × Bool)) (s : State) : Out :=
  let s := strike s p errs
  let h := s.wh p
  match h.queue with
  | [] => .next s
  | x :: rest =>
    if h.running.isSome || h.halted || !s.computeOn p then .next s
    else
      let d := x.desc
      let s := s.modWh p (fun h => { h with queue := rest })
      if d.rows = 0 || d.cols = 0 then
        .next (postCompletion ((whiskSlots s p d).modWh p (fun h => { h with ops := sat64 h.ops 1 })) p x.issuer 0)
      else if !whiskSlotsOk s p d then
        let s := s.modWh p (fun h => { h with opsRejected := sat64 h.opsRejected 1 })
        .next (postCompletion (countOrder s p stSlotOrder) p x.issuer stSlotOrder)
      else .next (startWhisk s p x)

/-- The binned values counted in the bank in force (08 R245). -/
def tapBins (s : State) (p : Pid) (xs : List (Nat × Nat)) : State :=
  let r := xs.foldl (fun (a : TapBank × Nat) x =>
    let c := a.1.count x.1 x.2; (c.1, if c.2 then a.2 + 1 else a.2)) ((s.sk p).taps.active, 0)
  let first := 0 < r.2 && !r.1.fullRaised
  let s := s.modSk p (fun k => { k with
    taps := { k.taps with active := { r.1 with fullRaised := r.1.fullRaised || first } },
    whisk := { k.whisk with tapDropped := sat64 k.whisk.tapDropped r.2 } })
  if first then raiseSk s p 4 .tapTableFull (names [(xs.head?.map (fun x => x.1)).getD 0]) else s

/-- The loss record with the losses of an operation (08 R239): a binary64 sum in row order. -/
def Whisk.addLosses (h : Whisk) (xs : List W32) : Whisk :=
  { h with
    lossSum := xs.foldl (fun a x => f64add a (f64of (f32num x))) h.lossSum
    lossTokens := h.lossTokens + xs.length
    lossNonfinite := h.lossNonfinite || xs.any (fun x => !(f32num x).isFin) }

/-- The end of a whisk operation (08 R232, R239, R244): the results are written; a rejected write is cause 2; otherwise
releases, completions, taps and the loss record follow and the completion is posted. -/
def whiskEnd (s : State) (p : Pid) : State :=
  match (s.wh p).running with
  | none => s
  | some x =>
    if x.fault != 0 then s
    else
      let d := x.desc
      let (ok, s) := x.outs.foldl (fun r e => let w := writeRange r.2 p 4 e.1 e.2; (r.1 && w.1, w.2)) (true, s)
      if !ok then s.modWh p (fun h => { h with running := some { x with fault := 2 } })
      else
        let s := s.modWh p (fun h => { h.addLosses x.losses with
          running := none, ops := sat64 h.ops 1, elements := sat64 h.elements (d.rows * d.cols) })
        let s := if x.taps.isEmpty then s else tapBins s p x.taps
        postCompletion (whiskSlots s p d) p x.issuer 0

/-- WHISK_OP_END (08 R232). -/
def execWhiskOpEnd (p : Pid) (s : State) : Out := .next (whiskEnd s p)

/-- WHISK_FAULT (08 R243): causes 1 and 2 as the running operation has met them, 3 a parity error at any time; the
queue stands until HALT_ALL. -/
def execWhiskFault (p : Pid) (cause : Nat) (s : State) : Out :=
  let h := s.wh p
  let met := match h.running with
    | some x => x.fault
    | none => 0
  if h.halted || !(cause = 3 || (cause != 0 && met = cause)) then .next s
  else
    let addr := match h.running with
      | some x => x.addr
      | none => (h.queue.head?.map (fun x => x.addr)).getD 0
    .next (raiseSk (s.modWh p (fun h => { h with halted := true, cause := cause, running := none })) p 4 .whiskFault
      (names [addr, cause]))

end Sys2Proof.Machine
end

