-- ==== Sys2Proof/Machine/Runtime.lean ====
section
/-! DEFINITION. Machine/Runtime.lean: what the runtime on the steward does to a step as a whole: clearing the skillets (08
R220), discarding a step (01 R34, R35), the start table (17 R513), the colander changes that are due (03 R89), entering
PAUSED, and the pass boundary at which a stop takes effect. -/

namespace Sys2Proof.Machine

/-! ### Clearing a skillet (08 R220 steps 1 and 2) -/

/-- A griddle flushed (04 R126): the pass in ISSUE meets its boundary, passes in DRAIN and EMIT complete, everything else
goes. -/
def flushGriddle (p : Pid) (s : State) (g : Fin 4) : State :=
  let s := s.modGr p g (fun x => { x with flushPending := true })
  let s := match passBoundary s p g 0 with
    | some t => t
    | none => doFlush s p g
  let s := (List.range ((s.gr p g).active.length)).foldl (fun t _ => emitEnd (drainEnd t p g) p g) s
  doFlush (s.modGr p g (fun x => { x with active := [], windows := [] })) p g

/-- A ladle stopped, its memory portions let go under the hold (07 R207). -/
def clearLadle (p : Pid) (s : State) (l : Fin 8) : State :=
  let s := if (s.ld p l).st == .idle then s else stopLadle s p l
  let d := s.ld p l
  let s := s.modLd p l (fun d => { d with st := .idle, stopIssuers := [], chain := [], portions := [] })
  d.stopIssuers.foldl (fun t i => postCompletion t p i 0) s

/-- Every slot of a skillet reset (06 R175). -/
def resetSlots (s : State) (p : Pid) : State :=
  s.modPn p (fun k => { k with slots := emptiedSlots k.slots })

/-- One skillet cleared (08 R220): HALT_ALL; griddles flushed, ladles stopped, the running whisk operation and the memory
operations that need no slot finished; every slot reset. -/
def clearSkillet (s : State) (p : Pid) : State :=
  let s := haltAll (recvCobalt s p.val) p
  let s := (List.finRange 4).foldl (flushGriddle p) s
  let s := (List.finRange 8).foldl (clearLadle p) s
  let s := (whiskEnd s p).modWh p (fun h => { h with running := none, queue := [], halted := false })
  let s := ((s.pn p).memopQueue).foldl (fun t _ => memopEnd t p 0) s
  resetSlots (s.modPn p (fun k => { k with memopQueue := [] })) p

/-- Every skillet that is not a hole cleared while the mesh is held (09 R271). -/
def clearAll (s : State) : State := (allPids.filter (fun p => !s.isHole p)).foldl clearSkillet s

/-! ### Discarding a step (01 R34, R35) -/

/-- The step in progress discarded, with the mesh held: skillets, reduction, taps and loss records. -/
def discardStep (s : State) : State :=
  let s := clearAll (holdMesh s)
  let s := clearTaps (resetReduction s)
  let s := allPids.foldl (fun t p => clearLoss (recvCobalt t p.val) p) s
  s.modRun (fun r => { r with active := false, ready := [] })

/-! ### Starting tasks (17 R513, 11 R354) -/

/-- Start-table entries started in order (17 R513), each answered to the steward. -/
def startTable (s : State) (es : List StartEntry) : State :=
  es.foldl (fun t e => match t.pidOf e.logical with
    | none => t
    | some p =>
      let (st, t) := startTask (recvCobalt t p.val) p (Fin.ofNat 16 e.task) e.pc (w64 e.arg)
      sendReply t p.val st []) s

/-- The loaded plan's start table. -/
def startPlan (s : State) : State :=
  match s.dict.plan with
  | none => s
  | some x => startTable s x.starts

/-- A step begins from F with the plan's start table, as at START, at RESUME and after a discard; the replica is complete
(01 R18, 08 R220, 11 R354, 17 R513). -/
def runStep (s : State) : State := beginStep (startPlan s) true

/-! ### Due colander changes and PAUSED (03 R89, R90, 17 R498) -/

/-- The colander changes that are due take effect (03 R89, R90). -/
def applyColander (s : State) : State :=
  match s.col.due with
  | [] => s
  | due@(r :: _) =>
    let first := (due.find? (fun x => x.kind == 1)).getD r
    applyDue s none first.origin first.cause

/-- PAUSED is entered: no step is in progress, the due colander changes take effect and the command that was held ends
(03 R89, 17 R498, R499). -/
def enterPaused (s : State) : State :=
  let s := s.modRun (fun r => { r with active := false, ready := [], boundary := none, gRunning := false, aRunning := false })
  let s := applyColander (changeLife s .paused)
  if s.life.held.isSome then endCommand s 0 else s

/-- The stop of R35 before the gate outcome is known: the step is discarded and the module is PAUSED with counter S. -/
def stopNow (s : State) : State := enterPaused (releaseMesh (discardStep s))

/-- Whether a pass is streaming rows somewhere on the wafer. -/
def passIssuing (s : State) : Bool := s.sks.toList.any (fun k => k.griddles.toList.any Griddle.issuing)

/-- A stop that is held takes effect once every griddle has met its pass boundary (01 R35, 04 R125). -/
def takeStop (s : State) : State := if stopHeld s && !passIssuing s then stopNow s else s

/-- PASS_BOUNDARY (04 R120): a pass boundary, the last of which lets a held stop take effect (01 R35, 04 R125). -/
def execPassBoundary (p : Pid) (g : Fin 4) (skipped : Nat) (s : State) : Out :=
  .next (match passBoundary s p g skipped with
    | none => s
    | some t => takeStop t)

/-- GRIDDLE_FAULT (04 R127-R129): a fault ends the issue of a pass, too, and a held stop may take effect. -/
def execGriddleFault (p : Pid) (g : Fin 4) (cause : Nat) (col : Fin 256) (s : State) : Out :=
  .next (takeStop (griddleFault p g cause col s))

end Sys2Proof.Machine
end

