-- ==== Sys2Proof/Machine/Train.lean ====
section
/-! DEFINITION. Machine/Train.lean: the training step (01): scheduled entries as they fire (02 R63-R65), the gate, U, the
all-gather, the buddy copy and the ready tasks (11 R350-R355). A command whose condition the state does not meet does
not come about. -/

namespace Sys2Proof.Machine

/-! ### Windows and scheduled entries (02 R63-R65) -/

/-- The cap follows its windows: only a change of source puts a new cap in force (14 R424). -/
def capMoved (s : State) : State := if (capNow s).2 = s.power.capSource then s else setCap s

/-- Whether a window's length has ended on or before this beat. -/
def closeDue (s : State) : Bool := s.sched.windows.any (fun w => w.close ≤ s.time.count)

/-- WINDOW_CLOSE (02 R63): the window of an entry whose length has ended closes. DESIGN CHOICE (notes/assumptions/59): an
evaluation pass that still runs then runs on until A begins (R64 is silent). -/
def execWindowClose (i : Fin 64) (s : State) : Out :=
  if s.sched.windows.any (fun w => w.entry = i.val && w.close ≤ s.time.count) then
    .next (capMoved (s.modSched (fun c => { c with
      windows := c.windows.filter (fun w => !(w.entry = i.val && w.close ≤ s.time.count)) })))
  else .next s

/-- Whether an entry has fallen due. -/
def entryDue (s : State) (i : Fin 64) : Bool :=
  let e := vget s.sched.entries i
  e.arm && e.fireAt ≤ s.time.count

/-- The entry that fires next on this beat: after every close, the STEP_BOUNDARY first, then in ascending index. -/
def nextDue (s : State) : Option (Fin 64) :=
  if closeDue s then none
  else match boundaryEntry s with
    | some i => if entryDue s i then some i else (List.finRange 64).find? (fun j => entryDue s j)
    | none => (List.finRange 64).find? (fun j => entryDue s j)

/-- An entry after it has fired: a periodic one is armed for TIME + PERIOD, a one-shot one has ARM 0. -/
def SchedEntry.fired (e : SchedEntry) (merged : Bool) : SchedEntry :=
  if e.period = 0 then { e with state := if merged then .missed else .fired, arm := false, moved := none }
  else { e with state := if merged then .missed else .armed, time := (e.time + e.period) % 2 ^ 64, moved := none }

/-- A boundary falls due (02 R64, R65): it waits for the U of the step in progress, or is merged into a U that waits. -/
def boundaryDue (s : State) (i : Fin 64) (at' : Nat) : State :=
  let put (s : State) (m : Bool) : State := s.modSched (fun c => { c with entries := vmod c.entries i (fun e => e.fired m) })
  if !s.commit.loaded || !(s.life.st == .running || s.life.st == .recovering) then put s false
  else if s.run.boundary.isSome then
    let s := (put s true).modSched (fun c => { c with boundariesMerged := sat32 c.boundariesMerged 1 })
    raiseMod s .boundaryMerged (names [s.commit.step])
  else (put s false).modRun (fun r => { r with boundary := some at' })

/-- The skillets that an evaluation pass runs on: the slice in RUNNING (01 R41), the whole wafer in SELF_TEST, RECOVERING and
SERVICE (01 R43). -/
def evalPids (s : State) : List Pid := if s.life.st == .running then slicePids s else s.col.eff.map.toList

/-- An evaluation pass begins with its own plan (01 R41-R43). -/
def startEval (s : State) (num : Nat) : State :=
  match s.dict.plan with
  | none => s
  | some x => match x.evals.find? (fun e => e.num == num) with
    | none => s
    | some e =>
      let s := (evalPids s).foldl (fun t p => loadImages t e.images 0 p) s
      (startTable s e.starts).modRun (fun r => { r with evalRunning := some num, evalWaits := none })

/-- The states in which evaluation runs (01 R41, R43). -/
def evalState (l : Life) : Bool := l == .running || l == .selfTest || l == .recovering || l == .service

/-- An evaluation window opens (01 R41-R43). DESIGN CHOICE (notes/assumptions/59): a window that opens while the pass of an
earlier one still runs loads the images and issues the start table again; one that opens while A runs begins its pass when A
has completed, so that the pass reads the most recent committed step (R42). -/
def openEval (s : State) (num : Nat) : State :=
  if !evalState s.life.st then s
  else if s.run.aRunning then s.modRun (fun r => { r with evalWaits := some num })
  else startEval s num

/-- The pass of a window that opened during A begins, if its window is still open (01 R42; notes/assumptions/59). -/
def evalAfterA (s : State) : State :=
  match s.run.evalWaits with
  | none => s
  | some n =>
    if s.sched.windows.any (fun w => w.kind = 2 && w.arg = n) && evalState s.life.st then startEval s n
    else s.modRun (fun r => { r with evalWaits := none })

/-- SCHED_ENTRY_FIRE (02 R63-R65). -/
def execSchedEntryFire (i : Fin 64) (s : State) : Out :=
  if nextDue s != some i then .next s
  else
    let e := vget s.sched.entries i
    if e.kind = 1 then .next (boundaryDue s i e.fireAt)
    else
      let s := s.modSched (fun c => { c with entries := vmod c.entries i (fun e => e.fired false) })
      let opened (s : State) : State := s.modSched (fun c => { c with
        windows := c.windows ++ [⟨i.val, e.fireAt + 64 * e.length, e.kind, e.arg⟩] })
      .next (match e.kind with
        | 2 => openEval (opened s) e.arg
        | 3 => capMoved (opened s)
        | _ => if s.rim.acked || s.modules = 1 || !s.commit.loaded then s else raiseMod s .buddyLate (names [s.commit.step]))

/-! ### The gate (01 R22-R26, 11 R350, R351) -/

/-- The fused result (11 R350). -/
structure FusedSum where
  sumsq : W64
  loss : W64
  tokens : Nat
  flags : Nat
  deriving DecidableEq, Repr

/-- Whether a binary64 value is finite. -/
def f64fin (v : W64) : Bool := (f64num v).isFin

/-- The fused result of the gathered records in ascending shard. -/
def fusedSum (fs : List Fused) : FusedSum :=
  let sumsq := fs.foldl (fun a f => f64add a f.sumsq) 0
  let loss := fs.foldl (fun a f => f64add a f.loss) 0
  let any (i : Nat) : Bool := fs.any (fun f => bit f.flags i)
  { sumsq := sumsq, loss := loss, tokens := (fs.map (fun f => f.tokens)).sum,
    flags := b2n (any 0 || !f64fin loss) + 2 * b2n (any 1 || !f64fin sumsq) + 4 * b2n (any 2) + 8 * b2n (any 3) }

/-- f.sumsq (11 R350): the total scaled as the update engines scale the gradient. -/
def scaledSumsq (o : Optim) (f : FusedSum) : W64 :=
  let g := f64of32 o.gscale
  if !o.meanByTokens then f64mul f.sumsq (f64mul g g)
  else if f.tokens = 0 then 0
  else
    let q := f64div g (f64nat f.tokens)
    f64mul f.sumsq (f64mul q q)

/-- The clip factor from the norm (01 R23). -/
def clipFactor (clipNorm : W32) (norm : W64) : W64 :=
  let c := f64of32 clipNorm
  if Num.lt (numOf 0 0) (f64num c) && Num.lt (f64num c) (f64num norm) then f64div c norm else f64one

/-- The gate's outcome (01 R23): the flags decide COMMIT or SKIP, and the limit turns a SKIP into HALT. -/
def gateOutcome (flags skipLimit skips : Nat) : Outcome :=
  if flags = 0 then .commit
  else if skipLimit != 0 && skipLimit ≤ skips + 1 then .halt
  else .skip

/-- The code of LAST_OUTCOME (11 R360). -/
def outcomeCode : Outcome → Nat
  | .commit => 1
  | .skip => 2
  | .halt => 3

/-- Whether this module's policies, as its own frame of the step carries them, differ from shard 0's (11 R350, 13 R408). -/
def policyDiffers (s : State) (own f : Fused) : Bool :=
  s.red.clipStep != f.clipNorm || s.red.skipStep != f.skipLimit || frameThreshold own.watch != frameThreshold f.watch
    || frameQuietSteps own.watch != frameQuietSteps f.watch

/-- The LAST entries (11 R351, R360). The norm and the clip factor of a step that does not commit, and the loss of no
tokens, are values that the spec does not state: free values. -/
def writeLast (s : State) (out : Outcome) (f : FusedSum) (norm clip : W64) : State :=
  let (n, s) := draw s
  let (c, s) := draw s
  let (l, s) := draw s
  let commits := out == .commit
  s.modRun (fun r => { r with
    lastOutcome := outcomeCode out
    lastClip := if commits then f32of64 clip else BitVec.ofNat 32 c
    lastNorm := if commits then f32of64 norm else BitVec.ofNat 32 n
    lastLoss := if f.tokens = 0 then BitVec.ofNat 32 l else f32of64 (f64div f.loss (f64nat f.tokens))
    lastTokens := f.tokens % 2 ^ 64, lastFlags := f.flags })

/-- The event of an outcome (11 R351). -/
def raiseOutcome (s : State) (out : Outcome) : State :=
  match out with
  | .commit => s
  | .skip => raiseMod s .gateSkip (names [s.commit.step])
  | .halt => raiseMod s .gateHalt (names [s.commit.step])

/-- GATE_EVALUATE (01 R22, R23, 11 R350, R351): with every module's record held, the outcome and the clip factor are
fixed. After SKIP the next step may begin at once (01 R26, 13 R411). -/
def execGateEvaluate (s : State) : Out :=
  let fs := (allShards s).filterMap (fun k => Tab.find s.red.gathered k)
  match fs with
  | [] => .next s
  | f0 :: _ =>
    if !s.run.active || !s.red.sent || fs.length != s.modules then .next s
    else
      let own := (Tab.find s.red.gathered s.shard).getD f0
      let f := fusedSum fs
      let norm := f64sqrt (scaledSumsq (optimFor s) f)
      let clip := clipFactor f0.clipNorm norm
      let out := gateOutcome f.flags f0.skipLimit s.run.skips
      let s := if policyDiffers s own f0 then raiseMod s .policyDiffers (names [s.commit.step]) else s
      let s := raiseOutcome (writeLast s out f norm clip) out
      let e : Ended :=
        { step := s.commit.step, outcome := out, clip := clip, tokens := f.tokens,
          cOver := clusterBits (fs.map (fun f => f.watch)) 0 false, cQuiet := clusterBits (fs.map (fun f => f.watch)) 64 true,
          threshold := frameThreshold f0.watch, quietSteps := frameQuietSteps f0.watch,
          ownThreshold := frameThreshold own.watch, ownSteps := frameQuietSteps own.watch, sums := s.watch.sums }
      let s := s.modRun (fun r => { r with active := false, ended := r.ended ++ [e] })
      let s := { s with recov := { s.recov with
        loopStep := none, loopCount := 0, loopGate := if out == Outcome.commit then some s.commit.step else none } }
      let s := s.modRed (fun r => { r with traces := [] })
      .next (if out == .skip && !scaleMoves s e && s.life.held.isNone then beginStep s true else s)

/-! ### Phase A (01 R29, R32, 11 R353, R355) -/

/-- The real blocks that a slice owns. -/
def agOwn (s : State) (sl : Slice) : List Nat := (ownedBlocks s sl).filter (fun j => !s.padding j)

/-- The real blocks of a slice in a bucket. -/
def agBlocks (s : State) (b : Nat) (sl : Slice) : List Nat := (bucketBlocks s b sl).filter (fun j => !s.padding j)

/-- How far round the X ring a block has come when it is here (11 R353). -/
def agHop (s : State) (j : Nat) : Nat := ringDist (ringUp (blockSlice j)) (s.xOwner (blockStripe j)) s.torus.cx s.torus.x

/-- The blocks of a bucket that a slice sends on the X ring: those that have not come all the way round. -/
def agSendBlocks (s : State) (b : Nat) (sl : Slice) : List Nat :=
  if s.torus.x ≤ 1 then [] else (agBlocks s b sl).filter (fun j => agHop s j + 1 < s.torus.x)

/-- A frame of the all-gather (11 R337): one block of W of step `step`. -/
def sendAg (s : State) (sl : Slice) (yRing : Bool) (hop origin j : Nat) (bytes : List Byte) : State :=
  sendBundle s (ringBundle yRing (ringUp sl)) (sl.val / 2)
    { reduceFrame s (if yRing then 3 else 4) s.run.aStep hop 0 j 0 .vermilion [] bytes 0 with origin := origin }

/-- A block that an update engine reads in A (10 R308, R314): poisoned input stops it, and a stopped engine sends no more. -/
def engineRead (s : State) (sl : Slice) (j a n : Nat) (act : State → List Byte → State) : State :=
  if !(s.slice sl).ue.goes then s
  else
    let (w, bad, s) := planRead (s.modUe sl (fun u => { u with stripe := blockStripe j / s.modules })) a n
    if bad then s.modUe sl (fun u => { u with poisonAt := some j }) else act s w

/-- A block of the replica sent on the X ring and noted. -/
def sendAgX (s : State) (sl : Slice) (j : Nat) : State :=
  engineRead s sl j (replicaAddr s j) 64 (fun s w =>
  (sendAg s sl false (agHop s j) (s.ownerOf (blockStripe j)) j w).modRedSl sl (fun r => { r with agSent := r.agSent ++ [j] }))

/-- A slice sends the X-ring blocks that it holds, in descending bucket number: bucket b only after all of b + 1. -/
def agPump (s : State) (sl : Slice) : State :=
  ((List.range s.red.buckets.length).reverse).foldl (fun t b =>
    let later := (List.range s.red.buckets.length).filter (fun i => b < i)
    if !later.all (fun i => (agSendBlocks t i sl).all (fun j => (t.slice sl).red.agSent.contains j)) then t
    else ((agSendBlocks t b sl).filter (fun j =>
      (t.slice sl).red.agGot.contains j && !(t.slice sl).red.agSent.contains j)).foldl (fun t j => sendAgX t sl j) t) s

/-- The own shard of a slice put in the replica and sent (11 R353): the engine takes up the new slot A (10 R316). -/
def agStart (s : State) (sl : Slice) : State :=
  let own := ((List.range s.red.buckets.length).reverse).flatMap (fun b => (agBlocks s b sl).filter (fun j => s.ownsBlock j))
  let s := s.modUe sl (fun u => { u with phase := 3, ptr := s.commit.ptr = 1, poisonAt := none, stopped := false })
  let s := s.modRedSl sl (fun r => { r with agStep := s.run.aStep, agGot := [], agSent := [] })
  let s := own.foldl (fun t j => engineRead t sl j (recordAddr t (ownedKind t false) 0 j) 64 (fun t w =>
    let t := (planWrite t (replicaAddr t j) w).modRedSl sl (fun r => { r with agGot := r.agGot ++ [j] })
    if t.torus.y ≤ 1 then t else sendAg t sl true 0 t.shard j w)) s
  agPump s sl

/-- A record of the buddy copy sent (11 R355): to +X, or +Y where X = 1. -/
def sendBuddy (step : Nat) (sl : Slice) (s : State) (e : Nat × Nat) : State :=
  engineRead s sl e.1 (recordAddr s (ownedKind s false) e.2 e.1) (recordLen e.2) (fun s w =>
    sendBundle s (if s.torus.x = 1 then .yp else .xp) sl.val (reduceFrame s 7 step 0 s.shard e.1 e.2 .ash [] w 0))

/-- Every record of a slice's owned shard: the block and the sub-array. -/
def shardRecords (s : State) (sl : Slice) : List (Nat × Nat) :=
  (engineBlocks s sl).flatMap (fun j => [(j, 0), (j, 1), (j, 2), (j, 3)])

/-- The whole committed shard sent to the buddy as the copy of a step (01 R29); a single module has none. -/
def sendBuddyCopy (s : State) (step : Nat) : State :=
  if s.modules ≤ 1 then s
  else allSlices.foldl (fun t sl => (shardRecords t sl).foldl (sendBuddy step sl) t) s

/-- Whether a slice's replica holds every real block of a bucket. -/
def agHas (s : State) (b : Nat) (sl : Slice) : Bool := (agBlocks s b sl).all (fun j => (s.slice sl).red.agGot.contains j)

/-- Whether the all-gather is complete (01 R32). -/
def agComplete (s : State) : Bool :=
  allSlices.all (fun sl => (List.range s.red.buckets.length).all (fun b => agHas s b sl))

/-- Whether an evaluation pass still has a task that is not FREE. -/
def evalBusy (s : State) : Bool :=
  s.run.evalRunning.isSome && (evalPids s).any (fun p => (s.sq p).tasks.toList.any (fun t => t.st != .free))

/-- An evaluation pass still running is abandoned as A begins (01 R42). The number of its NOTICE event is a free value. -/
def evalAbandon (s : State) : State :=
  match s.run.evalRunning with
  | none => s
  | some n =>
    let busy := evalBusy s
    let s := s.modRun (fun r => { r with evalRunning := none })
    if busy then
      raiseAs ((evalPids s).foldl (fun t p => haltAll (recvCobalt t p.val) p) s) 68 (names [42] % 65536) .notice plocMod (names [n])
    else s

/-- The module PAUSED by a held command: a step that has begun early is discarded (01 R35, R36). -/
def pauseNow (s : State) : State := if s.run.active then stopNow s else enterPaused s

/-- A is complete: a pass of an evaluation window that waited begins (01 R42), and a held stop or pause takes effect (01 R35,
R36). A step past its gate is finished first; a pause waits for the boundary of a step that has begun. -/
def finishA (s : State) : State :=
  if !s.run.aRunning || !agComplete s then s
  else
    let s := allSlices.foldl (fun t sl => t.modUe sl (fun u => { u with phase := if u.phase = 3 then 0 else u.phase })) s
    let s := evalAfterA (s.modRun (fun r => { r with aRunning := false }))
    match s.life.st, s.life.held with
    | .running, some c => if s.run.ended.isEmpty && (c = 3 || !s.run.active) then pauseNow s else s
    | _, _ => s

/-- A of a committed step begins (01 R29, 11 R353, R355); with M = 1 it is complete at once. -/
def startA (s : State) (step : Nat) (buddy : Bool) : State :=
  let s := evalAbandon s
  let s := s.modRun (fun r => { r with aRunning := true, aStep := step })
  let s := noteProgress (allSlices.foldl agStart s) 4
  if buddy then sendBuddyCopy { s with rim := { s.rim with acked := s.modules ≤ 1 } } step else s

/-! ### U (01 R25, R28, R33, 10 R316, 13 R409-R413) -/

/-- What the U of an ended step does to the runs, the skip count, the cursor and the commit record. -/
def flip (s : State) (e : Ended) : State :=
  let commits := e.outcome == .commit
  let s := s.modRun (fun r => { r with
    saved := some { skips := r.skips, runs := s.watch.runs, cursor := r.cursor }
    skips := if commits then 0 else min 65535 (r.skips + 1)
    cursor := r.cursor + 1
    committed := sat64 r.committed (b2n commits), skipped := sat64 r.skipped (b2n !commits) })
  if commits then { s with commit := { s.commit with step := (s.commit.step + 1) % 2 ^ 64, ptr := 1 - s.commit.ptr } } else s

/-- The watch in U (13 R405, R409-R413): scales, then local runs, the published table and the step report. -/
def flipWatch (s : State) (e : Ended) : State :=
  let commits := e.outcome == .commit
  let s := (List.range 512).foldl (scalePoint e) s
  let s := (List.range 1024).foldl (localRun e) s
  let s := publishScales s
  let s := if commits then (match firstNonfinite s e.sums with
    | some w => raiseMod s .nonfiniteObserved (watchData s w e.step)
    | none => s) else s
  stepReport s e (outcomeCode e.outcome)

/-- BOUNDARY_LATE (01 R28, 02 R64), and the beat on which the boundary took effect. -/
def boundaryTaken (s : State) (at' : Nat) : State :=
  let s := s.modSched (fun c => { c with lastBoundary := some s.time.count })
  if at' < s.time.count then
    raiseMod (s.modSched (fun c => { c with boundariesLate := sat32 c.boundariesLate 1 })) .boundaryLate (names [s.commit.step])
  else s

/-- What follows U (01 R25, R26, R35, R36): A and the next step, PAUSED after HALT or for a held command, or the step again.
A re-run that began early and has passed its own gate is the step in progress: it goes on to its own U. -/
def afterFlip (s : State) (e : Ended) : State :=
  match e.outcome with
  | .commit =>
    let s := startA (if s.run.active then s else resetReduction s) e.step true
    if s.life.held.isSome then finishA s
    else finishA (beginStep s false)
  | .halt => pauseNow (resetReduction (s.modRun (fun r => { r with halted := true })))
  | .skip =>
    if !s.run.ended.isEmpty then s
    else if s.life.held.isSome then pauseNow (if s.run.active then s else resetReduction s)
    else if s.run.active then s else beginStep s true

/-- STEP_FLIP (01 R28): U of the oldest ended step, at the later of its boundary and the completion of G. -/
def execStepFlip (s : State) : Out :=
  match s.run.ended, s.run.boundary with
  | e :: rest, some at' =>
    let gDone := e.outcome != .commit || (s.run.gRunning && allSlices.all (fun sl => (s.slice sl).ue.gDone))
    if s.life.st != .running || !gDone then .next s
    else
      let s := boundaryTaken s at'
      let (e, s) := takeUeBanks s e
      let s := flip s e
      let s := flipWatch s (if e.outcome == .commit then e else
        { e with sums := e.sums.filter (fun x => (Tab.at s.watch.table x.1 {}).kind != 3) })
      let s := s.modRun (fun r => { r with ended := rest, boundary := none, gRunning := false })
      .next (afterFlip s e)
  | _, _ => .next s

/-! ### Frames of phase A (11 R338, R353, R355) -/

/-- Whether a frame of phase A belongs to an A that is still to begin here: of the step in progress, or of the last step
while a recovery has not reached its A. -/
def aheadFrame (s : State) (c : Content) : Bool :=
  c.repoch == s.red.epoch && (c.step == s.commit.step % 65536
    || ((s.life.st == .recovering || !s.commit.loaded) && c.step == stepBefore s.commit.step % 65536))

/-- AG_RECEIVED (11 R353): each block is written into the replica and forwarded. -/
def execAgReceived (port : Slice) (k : Nat) (s : State) : Out :=
  match landedReduce s port k [3, 4] with
  | none => .next s
  | some c =>
    if !(s.run.aRunning && c.repoch == s.red.epoch && c.step == s.run.aStep % 65536) then
      .next (if aheadFrame s c then s else dropStale s port k)
    else
      let s := noteProgress (dropLanded s port k) 4
      let yRing := c.kind = 3
      let s := (List.range (c.count % 4 + 1)).foldl (fun t i =>
        let j := c.block + i
        let sl := blockSlice j
        let w := (c.bytes.drop (64 * i)).take 64
        let t := planWrite t (replicaAddr t j) w
        let t := t.modRedSl sl (fun r => { r with agGot := if r.agGot.contains j then r.agGot else r.agGot ++ [j] })
        let t := if yRing && c.hop + 2 < t.torus.y then sendAg t sl true (c.hop + 1) c.origin j w else t
        agPump t sl) s
      .next (finishA s)

/-- BUDDY_RECEIVED (11 R355): a record of the copy is written into BUDDY_S(STEP mod 2). -/
def execBuddyReceived (port : Slice) (k : Nat) (s : State) : Out :=
  match landedReduce s port k [7] with
  | none => .next s
  | some c =>
    let step := stepBefore s.commit.step
    if c.repoch != s.red.epoch || c.step != step % 65536 || !s.commit.loaded then
      .next (if aheadFrame s c then s else dropStale s port k)
    else
      let s := dropLanded s port k
      .next ((List.range (c.count % 4 + 1)).foldl (fun t i =>
        let j := c.block + i
        let sl := blockSlice j
        let n := recordLen c.sub
        let t := planWrite t (recordAddr t (6 + step % 2) c.sub j) ((c.bytes.drop (n * i)).take n)
        t.modRedSl sl (fun r =>
          let got := if r.buddyStep = step then r.buddyGot else []
          { r with buddyStep := step, buddyGot := if got.contains (j, c.sub) then got else got ++ [(j, c.sub)] })) s)

/-- The shard of the module whose buddy this is: the -X neighbour, or the -Y neighbour where X = 1 (11 R355). -/
def wardShard (s : State) : Nat :=
  let c := neighbourCoord s.torus (if s.torus.x = 1 then .ym else .xm)
  c % 32 + s.torus.x * (c / 32)

/-- Whether a slice holds every record of the copy of a step. -/
def copyHeld (s : State) (step : Nat) (sl : Slice) : Bool :=
  let r := (s.slice sl).red
  r.buddyStep == step && ((List.range s.ownedStripes).flatMap (fun u => stripeBlocks (wardShard s + u * s.modules) sl)).all
    (fun j => [0, 1, 2, 3].all (fun sub => r.buddyGot.contains (j, sub)))

/-- BUDDY_COPY_COMPLETE (11 R355): every record of the copy is written; BUDDY_ACK is sent and BUDDY_HELD set. -/
def execBuddyCopyComplete (s : State) : Out :=
  let step := (s.slice 0).red.buddyStep
  if s.modules ≤ 1 || !s.commit.loaded || s.ownedStripes = 0 || !allSlices.all (copyHeld s step) then .next s
  else
    let s := allSlices.foldl (fun t sl => t.modRedSl sl (fun r => { r with buddyGot := [] })) s
    let s := { s with rim := { s.rim with buddyHeld := step } }
    .next (sendBundle s (if s.torus.x = 1 then .ym else .xm) 0 (reduceFrame s 8 step 0 s.shard 0 0 .ash [] [] 0))

/-- BUDDY_ACK (01 R31, 11 R355): the acknowledgement of the copy of the last committed step. -/
def execBuddyAck (port : Slice) (k : Nat) (s : State) : Out :=
  match landedReduce s port k [8] with
  | none => .next s
  | some c =>
    let step := stepBefore s.commit.step
    if c.repoch != s.red.epoch || c.step != step % 65536 || !s.commit.loaded then
      .next (if aheadFrame s c then s else dropStale s port k)
    else
      let s := noteProgress (dropLanded s port k) 3
      .next { s with rim := { s.rim with acked := true, buddyAcked := step } }

/-! ### Ready tasks (11 R354) -/

/-- READY_TASK_START (11 R354): bucket b's ready task is STARTed on every training skillet once its replica is held. -/
def execReadyTaskStart (b : Nat) (s : State) : Out :=
  let now := if s.run.readyNow then s.run.ready.head? = some b else allSlices.all (fun sl => agHas s b sl)
  match s.red.buckets[b]? with
  | none => .next s
  | some e =>
    if !s.run.active || s.life.st != .running || !s.run.ready.contains b || !now then .next s
    else
      let s := s.modRun (fun r => { r with ready := r.ready.filter (fun x => x != b) })
      .next ((trainingPids s).foldl (fun t p =>
        let (st, t) := startTask (recvCobalt t p.val) p (Fin.ofNat 16 e.readyTask) e.readyPc (w64 t.commit.step)
        let t := sendReply t p.val st []
        if st = 0 then t else raiseMod t .readyStartRejected (names [t.commit.step, b, p.val])) s)

end Sys2Proof.Machine
end

