-- ==== Sys2Proof/Machine/Recovery.lean ====
section
/-! DEFINITION. Machine/Recovery.lean: the event log, the rollback that every module of the torus runs, the revert and the
adoption of a spare (15). A command whose condition the state does not meet does not come about. -/

namespace Sys2Proof.Machine

/-- The state with recovery and the log changed. -/
def State.modRecov (s : State) (f : RecoverSt → RecoverSt) : State := { s with recov := f s.recov }

/-! ### The log (15 R446, R449-R454, 17 R510) -/

/-- The class code (15 R446). -/
def classCode : EvClass → Fin 4
  | .notice => 0
  | .corrected => 1
  | .contained => 2
  | .fatal => 3

/-- A new entry of the volatile log is delivered to a session that selects its class (17 R510). -/
def deliverTo (e : LogEntry) (x : Session) : Session :=
  if bit x.subMask (classCode e.record.cls).val && x.subNext ≤ e.seq then { x with evSeq := x.evSeq + 1, subNext := e.seq + 1 }
  else x

/-- A record enters the volatile log, and the persistent log where it is CONTAINED or FATAL (15 R452). -/
def logRecord (s : State) (r : EventRec) : State :=
  let e : LogEntry := ⟨s.recov.logCount, r⟩
  let s := s.modRecov (fun v => { v with
    log := (v.log ++ [e]).drop (v.log.length + 1 - 65536), logCount := v.logCount + 1 })
  let s := { s with dict := { s.dict with sessions := s.dict.sessions.map (deliverTo e) } }
  if r.cls == .contained || r.cls == .fatal then
    s.modRecov (fun v => { v with
      plog := (v.plog ++ [({ seq := v.plogCount, record := r } : LogEntry)]).drop (v.plog.length + 1 - 16384), plogCount := v.plogCount + 1 })
  else s

/-- The fault totals that 7100.08 to 7100.0B show (15 R469). -/
def faultTotal (event : Nat) : Option (Fin 4) :=
  if event = Ev.ladleFault.code then some 0 else if event = Ev.taskFault.code then some 1
  else if event = Ev.whiskFault.code then some 2
  else if event = Ev.meshLinkDown.code || event = Ev.routerParity.code then some 3 else none

/-- A record counted by class (15 R469). -/
def countRecord (v : RecoverSt) (r : EventRec) : RecoverSt :=
  { v with
    byClass := vmod v.byClass (classCode r.cls) (fun n => sat64 n 1)
    faultTotals := match faultTotal r.event with
      | some i => vmod v.faultTotals i (fun n => sat64 n 1)
      | none => v.faultTotals }

/-- The window of R453 in which the steward stands: a new window starts with no pair, and the count of an ended one is
due. -/
def rollWindow (s : State) : State :=
  let w := s.time.count / 2 ^ 20
  if s.recov.window = w then s
  else s.modRecov (fun v => { v with
    window := w, pairs := [], windowSuppressed := 0,
    suppressedDue := if v.windowSuppressed = 0 then v.suppressedDue else v.suppressedDue ++ [v.windowSuppressed] })

/-- The records logged of a pair of EVENT and PLOC in the window, or none where it cannot be tracked (15 R453). -/
def pairCount (v : RecoverSt) (r : EventRec) : Option Nat :=
  match v.pairs.find? (fun x => x.1 = r.event && x.2.1 = r.ploc) with
  | some x => some x.2.2
  | none => if v.pairs.length < 1024 then some 0 else none

/-- A pair counted. -/
def putPair (v : RecoverSt) (r : EventRec) (n : Nat) : RecoverSt :=
  { v with pairs := (v.pairs.filter (fun x => !(x.1 = r.event && x.2.1 = r.ploc))) ++ [(r.event, r.ploc, n)] }

/-- A NOTICE or CORRECTED record logged, or suppressed beyond 16 of its pair in the window (15 R453). -/
def logLimited (s : State) (r : EventRec) : State :=
  match pairCount s.recov r with
  | some n => if n < 16 then logRecord (s.modRecov (fun v => putPair v r (n + 1))) r
              else s.modRecov (fun v => { v with suppressed := sat64 v.suppressed 1, windowSuppressed := v.windowSuppressed + 1 })
  | none => s.modRecov (fun v => { v with suppressed := sat64 v.suppressed 1, windowSuppressed := v.windowSuppressed + 1 })

/-! ### QUARANTINED and STATE_LOST (15 R448, R466, 12 R394, 03 R93) -/

/-- A job's state is lost (15 R466): STATE_LOST is raised and LOADED clears. -/
def loseState (s : State) : State :=
  let s := { s with commit := { s.commit with loaded := false } }
  raiseMod (s.modRecov (fun v => { v with lost := true, phase := 0, adoptedSelf := false, loopHeld := false })) .stateLost 0

/-- QUARANTINED (15 R448, 12 R394): every port is DISABLED and every cartridge dark; a command that was held ends with
0x0401. A single module loses its job's state (15 R466). -/
def quarantine (s : State) : State :=
  if s.life.st == .quarantined then s
  else
    let s := changeLife s .quarantined
    let s := (List.finRange 32).foldl (fun t n => if (t.port n).st == .disabled then t else disablePort t n) s
    let s := (List.finRange 16).foldl (fun t b => t.modBay b (fun y => { y with st := if y.st == .lit then .warming else y.st })) s
    let s := s.modRecov (fun v => { v with alert := v.alert ||| 4, phase := 0 })
    let s := s.modRun (fun r => { r with
      active := false, ended := [], boundary := none, aRunning := false, gRunning := false, ready := [], evalRunning := none, evalWaits := none })
    let s := { s with col := { s.col with shown := none } }
    let s := if s.modules = 1 && s.commit.loaded then loseState s else s
    if s.life.held.isSome then endCommand s stWrongState else s

/-- STATE_LOST ends a recovery in PAUSED (15 R466). -/
def stateLost (s : State) : State :=
  let s := loseState { s with col := { s.col with shown := none } }
  enterPaused s

/-! ### Recovery frames (12 R380, 15 R456) -/

/-- The commit record's STEP as a signed number (15 R458). -/
def signed64 (n : Nat) : Int := if n < 2 ^ 63 then n else (n : Int) - 2 ^ 64

/-- A ROUTED frame sent towards a shard (12 R379, R380). -/
def sendRouted (s : State) (shard : Nat) (c : Content) : State :=
  let d := s.torus.coordOf shard
  let c := { c with
    ftype := .routed, destX := d % 32, destY := d / 32, srcX := s.torus.cx, srcY := s.torus.cy, hops := 0 }
  match nextHop s.torus c.destX c.destY with
  | none => s
  | some b => sendBundle s b c.addr c

/-- The module's COORD as a recovery frame and LAST_RECOVERY carry it. -/
def ownCoord (s : State) : Nat := if s.torus.known then s.torus.coord else 0x3FF

/-- A RUNTIME frame of the recovery (15 R456): 1 ROLLBACK, 2 STATE, 3 RESTORE_REQ. -/
def sendRuntime (s : State) (shard rkind : Nat) (bytes : List Byte) : State :=
  sendRouted s shard { blankContent with
    cls := .control, kind := 2, rkind := rkind, len := 31,
    bytes := leBytes 4 s.recov.n ++ leBytes 2 (ownCoord s) ++ bytes ++ List.replicate (250 - bytes.length) 0 }

/-- The other modules. -/
def otherShards (s : State) : List Nat := (allShards s).filter (fun k => k != s.shard)

/-- ROLLBACK to every other module: cause, step counter, and the cause's PLOC and LOGICAL. -/
def sendRollback (s : State) (event ploc logical : Nat) : State :=
  (otherShards s).foldl (fun t k => sendRuntime t k 1
    (leBytes 2 event ++ leBytes 8 t.commit.step ++ leBytes 8 (names [ploc, logical] % 2 ^ 64))) s

/-- Whether a stack burst in the regions of a kind is uncorrectable (15 R463). -/
def kindBad (s : State) (kind : Nat) : Bool :=
  allSlices.any (fun sl => (s.slice sl).mc.bad.any (fun b => (regionOfLocal s (64 * b)).any (fun r => r.kind == kind)))

/-- The STATE record of this module (15 R456, R462, R463). -/
def ownState (s : State) : RecState :=
  if s.recov.adoptedSelf then ⟨s.recov.n, 0, 2 ^ 64 - 1, true, false⟩
  else
    let held := if kindBad s (6 + s.rim.buddyHeld % 2) then 2 ^ 64 - 1 else s.rim.buddyHeld
    ⟨s.recov.n, s.commit.step, held, false, kindBad s (ownedKind s false)⟩

/-- A STATE record kept by shard: the one with the highest number. -/
def keepState (s : State) (k : Nat) (x : RecState) : State :=
  match Tab.find s.recov.states k with
  | some y => if x.n < y.n then s else s.modRecov (fun v => { v with states := Tab.put v.states k x })
  | none => s.modRecov (fun v => { v with states := Tab.put v.states k x })

/-- STATE sent to every module (15 R457 step 4). -/
def sendState (s : State) : State :=
  let x := ownState s
  let s := keepState s s.shard x
  (otherShards s).foldl (fun t k => sendRuntime t k 2
    (leBytes 2 (b2n x.adopted + 2 * b2n x.lostA) ++ leBytes 8 x.step ++ leBytes 8 x.held)) s

/-! ### The start of a recovery (15 R455, R457 steps 1-4) -/

/-- RECOVERING is entered, or the recovery starts afresh with a new number. -/
def enterRecovering (s : State) (n event coord : Nat) : State :=
  let first := s.life.st != .recovering
  let shown := if first then some s.col.eff else s.col.shown
  let s := changeLife { s with col := { s.col with shown := shown } } .recovering
  let s := s.modRecov (fun v => { v with
    n := n, phase := 4, cause := event, causeCoord := coord, begin_ := if first then s.time.count else v.begin_,
    reverted := false, adoptedAny := false, restoring := 0, restored := 0, loopHeld := false, stallRaised := false,
    rollbacks := sat64 v.rollbacks 1 })
  raiseMod s .rollbackBegin n

/-- What a recovery discards of the step (15 R457 step 1, 01 R34). -/
def abandonStep (s : State) : State :=
  let s := discardStep s
  let s := s.modRun (fun r => { r with
    ended := [], gRunning := false, aRunning := false, evalRunning := none, evalWaits := none, halted := false })
  allSlices.foldl (fun t sl => t.modUe sl (fun u => { u with phase := 0, gDone := false, poisonAt := none, stopped := false, next := 0 })) s

/-- A recovery starts (15 R457 steps 1 to 4). `send` says that this module began it (R455). -/
def startRecovery (s : State) (n event coord ploc logical : Nat) (send : Bool) : State :=
  let s := enterRecovering s n event coord
  let s := if send then sendRollback s event ploc logical else s
  let s := abandonStep s
  let s := rebuildRoutes (applyRepairs (applyColander s))
  let s := releaseMesh (s.modRed (fun r => { r with epoch := n % 256 }))
  noteProgress (sendState s) 5

/-- Whether a module runs a job that a rollback concerns (15 R455). -/
def State.inJob (s : State) : Bool :=
  s.commit.loaded && (s.life.st == .running || s.life.st == .paused || s.life.st == .recovering)

/-- A CONTAINED record starts a recovery with the next number (15 R455, R461). -/
def containedFault (s : State) (r : EventRec) : State :=
  if s.inJob then startRecovery s ((s.recov.n + 1) % 2 ^ 32) r.event (ownCoord s) r.ploc r.logical true else s

/-! ### Events reach the steward -/

/-- An event record handled (15 R446, R448, R452-R455): counted, logged or suppressed, and what its class brings. -/
def handleRecord (s : State) (r : EventRec) : State :=
  let s := rollWindow (s.modRecov (fun v => countRecord v r))
  match r.cls with
  | .notice | .corrected => logLimited s r
  | .contained => containedFault ((logRecord s r).modRecov (fun v => { v with alert := v.alert ||| 1 })) r
  | .fatal => quarantine ((logRecord s r).modRecov (fun v => { v with alert := v.alert ||| 2 }))

/-- EVENT_RECORD (15 R452): the oldest event message of a node reaches the steward. -/
def execEventRecord (node : Fin 69) (s : State) : Out :=
  if s.life.st == .off then .next s
  else match stewardTake s .event node.val with
    | none => .next s
    | some (none, s) => .next s
    | some (some m, s) => match m.record with
      | none => .next s
      | some r => .next (handleRecord s r)

/-- EVENTS_SUPPRESSED (15 R453): a window with suppressed records has ended. -/
def execEventsSuppressed (s : State) : Out :=
  if s.life.st == .off then .next s
  else
    let s := rollWindow s
    match s.recov.suppressedDue with
    | [] => .next s
    | n :: rest =>
      let s := passFrac (s.modRecov (fun v => { v with suppressedDue := rest }))
      .next (handleRecord s (mkRecord s 68 Ev.eventsSuppressed.code .notice plocMod n))

/-- ALERT_N (15 R454, 16 R479): asserted while ALERT_PENDING is not zero, and by a halted boot. -/
def alertN (s : State) : Bool := s.recov.alert != 0 || s.sec.halted

/-- ALERT_ACK (15 R454). -/
def wAlertAck (r : Req) (s : State) : Nat × State :=
  let v := reqNat r
  if 2 ≤ v then (stReserved, s)
  else (0, if v = 1 then s.modRecov (fun x => { x with alert := x.alert &&& 6 }) else s)

/-- ALERT_ACK: OD 7001.02. -/
def execAlertAck (r : Req) (s : State) : Out := .next (serveWrite s r 0x7001 2 wAlertAck)

/-- ROLLBACK_LIMIT: OD 7011.01. -/
def wRollbackLimit (r : Req) (s : State) : Nat × State :=
  accept (natRange (reqNat r) 1 64) s (s.modRecov (fun v => { v with limit := reqNat r }))

/-- A region isolated by its own short (15 R464). -/
def execRegionShort (p : Pid) (s : State) : Out :=
  if s.life.st == .off || vget s.col.isolated p then .next s
  else .next (raise (isolateRegion s p Ev.regionShort.code) 68 .regionShort (plocBlock p.val) (names [p.val]))

/-! ### Frames of a recovery -/

/-- ROLLBACK (15 R455): a higher number starts the recovery afresh, any other is merged. A module that runs no job learns
the number (R462). -/
def execRollback (port : Slice) (k : Nat) (s : State) : Out :=
  match landedRecovery s port k 1 with
  | none => .next s
  | some c =>
    let s := dropLanded s port k
    let n := leNat (c.bytes.take 4)
    let coord := leNat ((c.bytes.drop 4).take 2) % 1024
    let event := leNat ((c.bytes.drop 6).take 2)
    if s.inJob then
      if s.recov.n < n then .next (startRecovery s n event coord 0 0xFF false)
      else .next (s.modRecov (fun v => { v with merged := sat64 v.merged 1 }))
    else if s.life.st == .quarantined then .next s
    else
      let newer : Bool := match s.recov.heard with
        | some h => decide (h.1 < n)
        | none => true
      .next (if newer then s.modRecov (fun v => { v with heard := some (n, event, coord) }) else s)

/-- STATE (15 R456, R457 step 4): a record of a shard; one with a number that this module has not reached yet is kept.
Where the sender's plan or job seed is not this module's, the state is lost (R461). -/
def execState (port : Slice) (f : StateFrame) (s : State) : Out :=
  match landedRecovery s port f.k 2 with
  | none => .next s
  | some c =>
    let s := dropLanded s port f.k
    let flags := leNat ((c.bytes.drop 6).take 2)
    let x : RecState :=
      ⟨leNat (c.bytes.take 4), leNat ((c.bytes.drop 8).take 8), leNat ((c.bytes.drop 16).take 8), bit flags 0, bit flags 1⟩
    let shard := s.torus.shardOf (leNat ((c.bytes.drop 4).take 2))
    let s := keepState s shard x
    .next (if !f.sameJob && s.life.st == .recovering then stateLost s
      else if s.recov.phase = 4 && x.n = s.recov.n then noteProgress s 5 else s)

/-! ### Restores (12 R380, 15 R458, R462, R463) -/

/-- Bytes of plan space read burst by burst. -/
def planBytes (s : State) (a n : Nat) : List Byte × State :=
  (List.range (n / 64)).foldl (fun r i =>
    let (bs, _, t) := planRead r.2 (a + 64 * i) 64
    (r.1 ++ bs, t)) ([], s)

/-- A range of plan space sent as RESTORE frames of 256 bytes to be written at `dst` in an entry of the region table. -/
def sendRestore (s : State) (shard src dst len entry : Nat) : State :=
  (List.range ((len + 255) / 256)).foldl (fun t i =>
    let n := min 256 (len - 256 * i)
    let (bs, t) := planBytes t (src + 256 * i) n
    sendRouted t shard { blankContent with
      cls := .ash, kind := 1, repoch := t.red.epoch, len := n / 8 - 1, region := entry, addr := (dst + 256 * i) / 64,
      bytes := bs ++ List.replicate (256 - n) 0 }) s

/-- The bytes of a compound region's records (10 R297): W, M1, M2 and R of every owned stripe. -/
def compoundBytes (s : State) : Nat := s.ownedStripes * (3 * regUnit + 65536)

/-- The entry of the region table with a kind. -/
def entryOf (s : State) (kind : Nat) : Nat := s.regions.findIdx (fun r => r.kind == kind)

/-- The shard of a module's buddy (01 R29). -/
def buddyShard (s : State) (k : Nat) : Nat :=
  let x := max 1 s.torus.x
  if s.torus.x ≤ 1 then k % x + x * ((k / x + 1) % max 1 s.torus.y) else (k % x + 1) % x + x * (k / x)

/-- The copy of step c - 1 sent to the module whose copy this is (15 R458). -/
def sendSlotA (s : State) (k : Nat) : State :=
  let from_ := s.regionBase (6 + stepBefore s.recov.c % 2)
  let dest := ownedKind s false
  sendRestore s k from_ (s.regionBase dest) (compoundBytes s) (entryOf s dest)

/-- RESTORE_REQ sent to the buddy for a range of plan space (15 R456, R463), which it then awaits. -/
def requestRange (s : State) (a len entry : Nat) : State :=
  let s := sendRuntime s (buddyShard s s.shard) 3 (leBytes 2 entry ++ leBytes 8 (a / 64) ++ leBytes 8 (len / 64))
  s.modRecov (fun v => { v with restoring := v.restoring + len })

/-- The plan address of a burst of a stack that lies in a region (10 R290). -/
def planAddr (r : Region) (sl : Slice) (burst : Nat) : Nat :=
  let g := 4096 / 2 ^ r.gran
  let o := 64 * burst - r.base * regUnit / 32
  r.base * regUnit + ((o / g) * 32 + sl.val) * g + o % g

/-- The uncorrectable bursts of the TEACHER regions, with their entries and plan addresses. -/
def teacherBad (s : State) : List (Nat × Nat) :=
  allSlices.flatMap (fun sl => (s.slice sl).mc.bad.filterMap (fun b =>
    match regionOfLocal s (64 * b) with
    | some r => if r.kind = 8 then some (s.regions.findIdx (fun x => x == r), planAddr r sl b) else none
    | none => none))

/-- The TEACHER regions requested whole by a spare, or their uncorrectable bursts by any other module (15 R458, R463). -/
def requestTeachers (s : State) : State :=
  if s.recov.adoptedSelf then
    (s.regions.zipIdx).foldl (fun t e => if e.1.kind = 8 then requestRange t (e.1.base * regUnit) (e.1.size * regUnit) e.2 else t) s
  else (teacherBad s).foldl (fun t e => requestRange t e.2 64 e.1) s

/-- RESTORE_REQ (15 R463): the buddy sends the range. -/
def execRestoreReq (port : Slice) (k : Nat) (s : State) : Out :=
  match landedRecovery s port k 3 with
  | none => .next s
  | some c =>
    let s := dropLanded s port k
    let n := leNat (c.bytes.take 4)
    let entry := leNat ((c.bytes.drop 6).take 2)
    let a := leNat ((c.bytes.drop 8).take 8) * 64
    let len := leNat ((c.bytes.drop 16).take 8) * 64
    if n != s.recov.n || !s.inJob then .next s
    else .next (sendRestore s (s.torus.shardOf (leNat ((c.bytes.drop 4).take 2))) a a len entry)

/-! ### Step 6 (15 R457, R461, R467) -/

/-- LAST_RECOVERY (15 R467). -/
def lastRecovery (v : RecoverSt) (end_ : Nat) : List Byte :=
  let w0 := v.n % 2 ^ 32 * 2 ^ 32 + v.cause % 65536 * 65536 + v.causeCoord % 1024 * 64 + b2n v.reverted * 32 + b2n v.adoptedAny * 16
  leBytes 8 w0 ++ leBytes 8 v.begin_ ++ leBytes 8 end_ ++ leBytes 8 v.c

/-- SPARE_ADOPTED as step c begins on an adopted spare (15 R462). -/
def spareBegins (s : State) : State :=
  if s.recov.spareDue then raiseMod (s.modRecov (fun v => { v with spareDue := false })) .spareAdopted (names [s.commit.step]) else s

/-- Step 6 begins (15 R457): RUNNING, with A of step c - 1 and then step c from F. A stop or pause that is held keeps step
c from beginning (R461). -/
def beginStep6 (s : State) : State :=
  let end_ := s.time.count
  let took := (end_ + 2 ^ 64 - s.recov.begin_) % 2 ^ 64
  let s := s.modRecov (fun v => { v with
    last := lastRecovery v end_, recoveryBeats := sat64 v.recoveryBeats took, phase := 0, adoptedSelf := false,
    loopHeld := false, restoring := 0, restored := 0 })
  let s := changeLife { s with col := { s.col with shown := none } } .running
  let s := raiseMod s .rollbackDone took
  let before := stepBefore s.recov.c
  let s := if s.modules = 1 || s.recov.sendCopy then s
    else { s with rim := { s.rim with acked := true, buddyAcked := before } }
  let s := startA s before s.recov.sendCopy
  finishA (if s.life.held.isSome then s else spareBegins (beginStep (startPlan s) false))

/-- The rollback is that of a step for the limit-th time in a row (15 R461): once step 5 is complete the module is PAUSED
and raises ROLLBACK_LOOP. -/
def checkLoop (s : State) : State :=
  if s.recov.phase = 5 && s.recov.loopHeld && s.recov.restoring ≤ s.recov.restored then
    raiseMod (enterPaused { s with col := { s.col with shown := none } }) .rollbackLoop (names [s.recov.c])
  else s

/-- Whether a bundle that the torus uses has no port in service (12 R388). -/
def bundleDown (s : State) : Bool := allBundles.any (fun b => bundleUsed s.torus b && (serviceports s b).isEmpty)

/-- Whether a mapped skillet waits to be restored or isolated (14 R435, R436). -/
def regionWaits (s : State) : Bool :=
  allPids.any (fun p => s.col.eff.mapped p && ((s.mon p).domain == .offHeat || (s.mon p).domain == .tripped))

/-- ROLLBACK_DONE (15 R457 step 6, 12 R388, 14 R435): step 6 waits for an evaluation pass on the whole wafer (01 R43). -/
def execRollbackDone (s : State) : Out :=
  let v := s.recov
  if s.life.st == .recovering && v.phase = 5 && v.restoring ≤ v.restored && !v.loopHeld && !bundleDown s && !regionWaits s
      && !evalBusy s then
    .next (beginStep6 s)
  else .next s

/-- RESTORE (12 R380): written at ADDR within REGION. A frame of another reduction epoch is stale; one whose range leaves
the region is discarded. -/
def execRestore (port : Slice) (k : Nat) (s : State) : Out :=
  match (landed s port k).bind (fun c => if c.ftype == .routed && c.kind = 1 then some c else none) with
  | none => .next s
  | some c =>
    if c.repoch != s.red.epoch then .next (dropStale s port k)
    else
      let s := dropLanded s port k
      let a := c.addr * 64
      let n := 8 * (c.len % 32 + 1)
      let inside := match s.regions[c.region]? with
        | some r => r.kind != 0 && r.base * regUnit ≤ a && a + n ≤ (r.base + r.size) * regUnit
        | none => false
      if !inside then .next (s.modPort port (fun p => { p with framesDiscarded := sat64 p.framesDiscarded 1 }))
      else
        let bs := c.bytes.take n
        let s := (List.range ((n + 63) / 64)).foldl (fun t i => planWrite t (a + 64 * i) ((bs.drop (64 * i)).take 64)) s
        .next (checkLoop (s.modRecov (fun v => { v with restored := v.restored + n })))

/-! ### The resume rule (15 R458-R460) -/

/-- The gathered record of a shard. -/
def gatheredState (s : State) (k : Nat) : RecState := (Tab.find s.recov.states k).getD ⟨0, 0, 0, false, false⟩

/-- Whether the STATE of every shard with the module's own number is held (15 R457 step 4). -/
def stateGathered (s : State) : Bool :=
  (allShards s).all (fun k => (Tab.find s.recov.states k).any (fun x => x.n == s.recov.n))

/-- What the rule of R458 gives: none where the state is lost, otherwise step c. -/
def resumeStep (s : State) : Option Int :=
  let ks := allShards s
  let live := ks.filter (fun k => !(gatheredState s k).adopted)
  let steps := live.map (fun k => signed64 (gatheredState s k).step)
  match steps with
  | [] => none
  | x :: xs =>
    let needs := ks.filter (fun k => (gatheredState s k).adopted || (gatheredState s k).lostA)
    let buddy (k : Nat) : RecState := gatheredState s (buddyShard s k)
    let lost := needs.any (fun k => s.modules = 1 || (buddy k).adopted)
    let c := needs.foldl (fun c k => min c (signed64 (buddy k).held + 1)) (xs.foldl min x)
    if lost || c < xs.foldl max x - 1 then none else some c

/-- The revert of a committed step (15 R459, 10 R317): the commit record goes back by one and what U wrote is restored. -/
def revertStep (s : State) : State :=
  let step := stepBefore s.commit.step
  let s := { s with commit := { s.commit with step := step, ptr := 1 - s.commit.ptr } }
  let s := match s.run.saved with
    | none => s
    | some x => (s.modRun (fun r => { r with skips := x.skips, cursor := x.cursor, saved := none })).modWatch
        (fun w => { w with runs := x.runs })
  let s := publishScales s
  raiseMod (s.modRecov (fun v => { v with reverted := true, stepsReverted := sat64 v.stepsReverted 1 })) .stepReverted
    (names [step])

/-- The scale of a declared watch point on an adopted spare is open within the point's range; so are its runs. -/
def spareScale (s : State) (e : Nat × WatchEntry) : State :=
  let (a, s) := draw s
  let (b, s) := draw s
  let (d, s) := draw s
  let k := e.2.kMin + (a % (e.2.kMax - e.2.kMin + 1).toNat : Int)
  s.modWatch (fun w => { w with runs := Tab.put w.runs e.1 ⟨k, b, d⟩ })

/-- An adopted spare takes up step c (15 R458, R462). The skip count, the input cursor and the scales that the others hold
reach it by no frame, so they are free values. -/
def adoptStep (s : State) (c : Nat) : State :=
  let (a, s) := draw s
  let (b, s) := draw s
  let s := { s with commit := { step := c % 2 ^ 64, loaded := true, ptr := (c + 2 ^ 64 - s.dict.jobStart) % 2 } }
  let s := s.modRun (fun r => { r with skips := a % 65536, cursor := b, saved := none })
  let s := s.watch.table.foldl spareScale s
  s.modRecov (fun v => { v with spareDue := true })

/-- The count of R461: rollbacks in a row of one step that did not reach its gate. -/
def countLoop (v : RecoverSt) (c : Nat) : RecoverSt :=
  let n := if v.loopGate = some c then 0 else if v.loopStep = some c then v.loopCount + 1 else 1
  { v with loopStep := some c, loopCount := n, loopGate := none, loopHeld := decide (v.limit ≤ n) }

/-- Steps 5 of R457 with a step c: revert or adoption, restores and requests. -/
def applyRule (s : State) (c : Nat) : State :=
  let me := gatheredState s s.shard
  let s := s.modRecov (fun v => countLoop { v with
    c := c, phase := 5, adoptedAny := (allShards s).any (fun k => (gatheredState s k).adopted),
    sendCopy := decide (s.modules ≠ 1) && decide (signed64 (gatheredState s (buddyShard s s.shard)).held < signed64 (stepBefore c)) } c)
  let s := if me.adopted then adoptStep s c
    else if s.commit.step = (c + 1) % 2 ^ 64 then revertStep s else s
  let s := (allShards s).foldl (fun t k =>
    let x := gatheredState t k
    if (x.adopted || x.lostA) && buddyShard t k = t.shard && k != t.shard then sendSlotA t k else t) s
  let s := if me.adopted || me.lostA then s.modRecov (fun v => { v with restoring := v.restoring + compoundBytes s }) else s
  checkLoop (requestTeachers s)

/-- Whether a TEACHER burst that is uncorrectable here has no copy (15 R463): one module, or an adopted buddy. -/
def teacherLost (s : State) : Bool :=
  !s.recov.adoptedSelf && !(teacherBad s).isEmpty && (s.modules = 1 || (gatheredState s (buddyShard s s.shard)).adopted)

/-- RESUME_RULE (15 R458): with every STATE record held, c is fixed or the state is lost. -/
def execResumeRule (s : State) : Out :=
  if s.life.st != .recovering || s.recov.phase != 4 || !stateGathered s then .next s
  else match resumeStep s with
    | none => .next (stateLost s)
    | some c => if teacherLost s then .next (stateLost s) else .next (applyRule s (c % 2 ^ 64).toNat)

/-- SPARE_ADOPT (15 R462 step 3): a spare in READY that has its plan and its number enters RECOVERING and says STATE. -/
def execSpareAdopt (s : State) : Out :=
  match s.recov.heard with
  | none => .next s
  | some (n, event, coord) =>
    if s.life.st != .ready || s.dict.plan.isNone || s.commit.loaded then .next s
    else
      let s := enterRecovering s n event coord
      let s := s.modRecov (fun v => { v with adoptedSelf := true, heard := none, lost := false })
      let s := s.modRed (fun r => { r with epoch := n % 256 })
      let s := { s with commit := { s.commit with loaded := true } }
      .next (noteProgress (sendState s) 5)

end Sys2Proof.Machine
end

