-- ==== Sys2Proof/Machine/Security.lean ====
section
/-! DEFINITION. Machine/Security.lean: images and their checks, the boot chain, the guard tables, measurement and
attestation, updates and the owner (16). A command whose condition the state does not meet does not come about. -/

namespace Sys2Proof.Machine

/-- The state with the flash and the security entries changed. -/
def State.modSec (s : State) (f : SecSt → SecSt) : State := { s with sec := f s.sec }

/-! ### Manifests (16 R471, R473) -/

/-- n bytes of a list from i. -/
def sliceBytes (bs : List Byte) (i n : Nat) : List Byte := (bs.drop i).take n

/-- Whether every byte of a list is zero. -/
def allZero (bs : List Byte) : Bool := bs.all (fun b => b == 0#8)

/-- A manifest of 352 bytes and the image behind it (16 R471); for KIND 6 the key's place holds the owner's key only. -/
def imageOf (bs : List Byte) : Image :=
  let kind := leNat (sliceBytes bs 2 1)
  let zero := allZero (sliceBytes bs 3 5)
    && (if kind = 6 then allZero (sliceBytes bs 128 32) && allZero (sliceBytes bs 192 96) else allZero (sliceBytes bs 130 30))
    && (kind = 5 || allZero (sliceBytes bs 24 32))
  { format := leNat (sliceBytes bs 0 2), kind := kind, reservedZero := zero, version := leNat (sliceBytes bs 8 4),
    svn := leNat (sliceBytes bs 12 4), revoke := BitVec.ofNat 64 (leNat (sliceBytes bs 16 8)), binding := sliceBytes bs 24 32,
    length := leNat (sliceBytes bs 56 8), digest := sliceBytes bs 64 64, keyCert := sliceBytes bs 128 128,
    rootKey := sliceBytes bs 256 32, signature := sliceBytes bs 288 64, head := bs.take 288,
    image := sliceBytes bs 352 (leNat (sliceBytes bs 56 8)) }

/-- The public key that signs an image: that of KEY_CERT, or the owner's for KIND 6. -/
def imageKey (im : Image) : List Byte := sliceBytes im.keyCert 32 32

/-- Whether KEY_CERT lets its key sign an image of this kind (16 R473). -/
def certOk (c : SecSt) (im : Image) : Bool :=
  let id := leNat (im.keyCert.take 1)
  Config.ed25519 im.rootKey (im.keyCert.take 64) (sliceBytes im.keyCert 64 64) && id < 64
    && !c.roll.revoked.getLsbD id && bit (leNat (sliceBytes im.keyCert 1 1)) (im.kind - 1)

/-- The bytes that an image's slot takes (16 R470): a bank, the configuration, guard and recovery areas. -/
def areaBytes (kind : Nat) : Nat := match kind with
  | 5 => 2 ^ 28
  | 6 => 2 ^ 23
  | 7 => 2 ^ 26
  | _ => 2 ^ 30

/-- The status of an image in a slot for some kinds (16 R473): the first check that fails. -/
def verifyImage (c : SecSt) (kinds : List Nat) (im : Image) : Nat :=
  if im.format != 1 || !kinds.contains im.kind || im.image.length != im.length || areaBytes im.kind < im.length
      || !im.reservedZero then stType
  else if (if im.kind = 6 then allZero c.roll.owner || Config.sha512 (imageKey im) != c.roll.owner
           else Config.sha512 im.rootKey != Config.romRoot) then stSignature
  else if im.kind != 6 && !certOk c im then stSignature
  else if !Config.ed25519 (imageKey im) im.head im.signature then stSignature
  else if Config.sha512 im.image != im.digest then stSignature
  else if im.svn < vget c.roll.minSvn (Fin.ofNat 8 (im.kind - 1)) then stRollback
  else if im.kind = 5 && im.binding != ownIdentity then stIdentity
  else 0

/-! ### Guard tables (16 R481) -/

/-- An access class by its number (17 R492). -/
def accessOf (n : Nat) : Access := match n with | 0 => .observer | 1 => .operator | 2 => .scheduler | _ => .service

/-- A row of the guard tables added: 0 a session key, 1 an index right, 2 admission in LIST mode, 3 a listed prefix, 4 a
pantry window, 5 the staging window. -/
def Guard.addRow (g : Guard) (row : List Nat) : Guard :=
  match row with
  | [0, key, cls] => { g with keys := g.keys ++ [(leBytes 32 key, accessOf cls)] }
  | [1, first, last, cls] => { g with rights := g.rights ++ [(first, last, accessOf cls)] }
  | [2] => { g with admission := some (g.admission.getD []) }
  | [3, prefix_] => { g with admission := some (g.admission.getD [] ++ [leBytes 32 prefix_]) }
  | [4, base, len, perm] => { g with windows := g.windows ++ [⟨base, len, bit perm 0, bit perm 1⟩] }
  | [5, base, size] => { g with stageBase := base, stageSize := size }
  | _ => g

/-- The guard tables of an image's rows, and whether they keep the limits of R481. -/
def guardOf (rows : List (List Nat)) : Guard × Bool :=
  let g := rows.foldl Guard.addRow { windows := [], stageSize := 0, fromImage := true, locked := true }
  (g, g.keys.length ≤ 64 && g.rights.length ≤ 32 && (g.admission.getD []).length ≤ 2048 && 1 ≤ g.windows.length
    && g.windows.length ≤ 8 && g.stageBase % 4096 = 0 && g.stageSize % 4096 = 0 && 4096 ≤ g.stageSize
    && g.stageSize ≤ 2 ^ 32 && rows.all (fun r => match r with
      | [0, _, c] => c ≤ 3
      | [1, _, _, c] => c ≤ 3
      | _ => true))

/-- The status of a guard image (16 R473, R481). -/
def guardStatus (c : SecSt) (im : Image) : Nat :=
  match verifyImage c [6] im with
  | 0 => if (guardOf (Config.guardRows im.image)).2 then 0 else stInconsistent
  | st => st

/-! ### Measurement (16 R484) -/

/-- A measurement register extended with what is measured. -/
def extendM (s : State) (i : Fin 8) (what : List Byte) : State :=
  s.modSec (fun c => { c with m := vmod c.m i (fun m => Config.sha512 (m ++ Config.sha512 what)) })

/-- A manifest's 352 bytes and its image. -/
def imageWhole (im : Image) : List Byte := im.head ++ im.signature ++ im.image

/-- IMAGE_REJECTED (16 R488): DATA holds KIND and status. -/
def rejectImage (s : State) (kind status : Nat) : State := raiseMod s .imageRejected (names [kind, status])

/-! ### The boot chain (16 R477-R480) -/

/-- The image of a kind in a bank. -/
def bankImage (c : SecSt) (b : Fin 2) (kind : Nat) : Option Image := (vget c.banks b).find? (fun im => im.kind == kind)

/-- Whether the image of a kind in a bank is accepted. -/
def bankOk (c : SecSt) (b : Fin 2) (kind : Nat) : Bool :=
  match bankImage c b kind with
  | some im => verifyImage c [kind] im = 0
  | none => false

/-- Whether a bank boots: its stage 1, and its stage 2, runtime and unit firmware. -/
def bankBoots (c : SecSt) (b : Fin 2) : Bool := [1, 2, 3, 4].all (bankOk c b)

/-- The rejected images of a bank raise IMAGE_REJECTED up to the step that fails. -/
def raiseBank (s : State) (b : Fin 2) : State :=
  let kinds := if bankOk s.sec b 1 then [2, 3, 4] else [1]
  kinds.foldl (fun t k => match bankImage t.sec b k with
    | none => t
    | some im => match verifyImage t.sec [k] im with
      | 0 => t
      | st => rejectImage t k st) s

/-- The attempts at the trial bank (16 R477): each writes TRIAL - 1 first; a failure leads to the next attempt, and the last
one back to ACTIVE. The bank that boots, if a trial does. -/
def tryTrial (fuel : Nat) (s : State) : Option (Fin 2) × State :=
  match fuel with
  | 0 => (none, s)
  | fuel + 1 =>
    if s.sec.roll.trial = 0 then (none, s)
    else
      let b : Fin 2 := Fin.ofNat 2 (1 - s.sec.roll.active)
      let s := s.modSec (fun c => { c with roll := { c.roll with trial := c.roll.trial - 1 } })
      if bankBoots s.sec b then (some b, s) else tryTrial fuel (raiseBank s b)

/-- The bank that boots (16 R477): a trial, else ACTIVE, else the other bank; none where neither does. A trial given up and
a boot of the other bank raise BANK_FALLBACK. -/
def chooseBank (s : State) : Option (Fin 2) × State :=
  match tryTrial 4 s with
  | (some b, s) => (some b, s)
  | (none, s) =>
    let given := s.sec.trialOpen
    let s := s.modSec (fun c => { c with trialOpen := false })
    let s := if given then raiseMod s .bankFallback 0 else s
    let a : Fin 2 := Fin.ofNat 2 s.sec.roll.active
    if bankBoots s.sec a then (some a, s)
    else
      let s := raiseBank s a
      let b : Fin 2 := 1 - a
      if bankBoots s.sec b then (some b, raiseMod s .bankFallback 0) else (none, raiseBank s b)

/-- A boot that cannot continue (16 R479): 1 NO_STAGE1, 2 IDENTITY, 3 NO_FIRMWARE, 4 FLASH. -/
def haltBoot (s : State) (code : Nat) : State := s.modSec (fun c => { c with halted := true, bootCode := code })

/-- A colander record from its 128 bits (03 R83). -/
def colRecOf (v : Nat) : ColRec :=
  { kind := bits v 127 124, origin := bits v 123 122, pid := Fin.ofNat 64 (bits v 119 112), a := bits v 111 104,
    b := bits v 103 96, count := bits v 95 32, cause := bits v 31 16, check := BitVec.ofNat 16 v }

/-- The staged configuration and guard images replace the active ones (16 R486); a new configuration image empties the
journal (03 R83). -/
def takeStaged (s : State) : State :=
  let s := if s.sec.configNext.isSome then { s with col := { s.col with journal := [] } } else s
  s.modSec (fun c => { c with
    config := if c.configNext.isSome then c.configNext else c.config, configNext := none
    guardImg := if c.guardNext.isSome then c.guardNext else c.guardImg, guardNext := none })

/-- Step 4 (16 R477, R480): the configuration image. -/
def bootConfig (s : State) : State :=
  match s.sec.config with
  | none => raiseMod (s.modSec (fun c => { c with quarantineBoot := true })) .configRejected 0
  | some im => match verifyImage s.sec [5] im with
    | 0 => extendM { s with col := { s.col with base := (Config.baseColander im.image).map colRecOf } } 4 im.image
    | st => raiseMod (rejectImage (s.modSec (fun c => { c with quarantineBoot := true })) 5 st) .configRejected (names [st])

/-- The defaults of the guard tables (16 R481). -/
def guardDefaultsIn (s : State) : State :=
  let tables := Config.partData 0x800702
  let s := { s with guard := { locked := true } }
  let s := s.modSec (fun c => { c with guardDefaults := true, guardDigest := Config.sha512 tables })
  extendM (raiseMod s .guardDefaults 0) 5 tables

/-- Step 5 (16 R477, R481): the guard image, or the defaults. -/
def bootGuard (s : State) : State :=
  match s.sec.guardImg with
  | none => guardDefaultsIn s
  | some im =>
    if allZero s.sec.roll.owner then guardDefaultsIn s
    else match guardStatus s.sec im with
      | 0 =>
        let s := { s with guard := (guardOf (Config.guardRows im.image)).1 }
        extendM (s.modSec (fun c => { c with guardDigest := Config.sha512 im.image })) 5 im.image
      | st => guardDefaultsIn (rejectImage s 6 st)

/-- The firmware of a bank measured (16 R477 steps 3 and 6). -/
def measureBank (s : State) (b : Fin 2) (kinds : List Nat) : State :=
  kinds.foldl (fun t k => match bankImage t.sec b k with
    | some im => extendM t (Fin.ofNat 8 (k - 1)) (imageWhole im)
    | none => t) s

/-- The boot chain up to the start of stage 2 (16 R475, R477, R479). The halt code where neither bank boots is NO_STAGE1
if neither stage 1 verifies. -/
def bootChain (s : State) : State :=
  let flash := Config.flashOk s.free
  let puf := Config.pufOk s.free
  let s := { s with free := s.free + 1 }
  if !flash then haltBoot s 4
  else if !puf then haltBoot s 2
  else
    let s := takeStaged s
    match chooseBank s with
    | (none, s) => haltBoot s (if bankOk s.sec 0 1 || bankOk s.sec 1 1 then 3 else 1)
    | (some b, s) =>
      let s := bootGuard (bootConfig (measureBank s b [1]))
      let s := measureBank s b [2, 3, 4]
      s.modSec (fun c => { c with
        runningBank := b.val, fwVersion := ((bankImage c b 2).map (fun im => im.version)).getD 0 })

/-- A trial bank whose boot reaches AWAIT_ADDRESS is committed (16 R487). -/
def commitTrial (s : State) : State :=
  if !s.sec.trialOpen || s.sec.runningBank = s.sec.roll.active || 1 < s.sec.runningBank then s
  else
    let ims := vget s.sec.banks (Fin.ofNat 2 s.sec.runningBank)
    let s := s.modSec (fun c => { c with
      trialOpen := false
      roll := { c.roll with
        active := c.runningBank, trial := 0
        minSvn := ims.foldl (fun v im => vmod v (Fin.ofNat 8 (im.kind - 1)) (fun n => max n im.svn)) c.roll.minSvn
        revoked := ims.foldl (fun v im => v ||| im.revoke) c.roll.revoked } })
    raiseMod s .updateCommitted (names [s.sec.runningBank])

/-! ### Updates (16 R486) -/

/-- UPDATE_OFFSET: OD 8004.01. -/
def wUpdateOffset (r : Req) (s : State) : Nat × State :=
  let v := reqNat r
  accept (if 2 ^ 30 ≤ v then stAbove else if v % 4096 != 0 then stInconsistent else 0) s
    (s.modSession r (fun x => { x with updateOffset := v }))

/-- UPDATE_DATA (16 R486): a chunk at UPDATE_OFFSET, which then advances. -/
def wUpdateData (r : Req) (s : State) : Nat × State :=
  let off := ((s.session r).map (fun x => x.updateOffset)).getD 0
  if 2 ^ 30 ≤ off then (stAbove, s)
  else
    let s := s.modSec (fun c => { c with chunks := Mem.store c.chunks off r.value, length := max c.length (off + 4096) })
    (0, s.modSession r (fun x => { x with updateOffset := off + 4096 }))

/-- UPDATE_DATA: OD 8004.02. -/
def execUpdateData (r : Req) (s : State) : Out := .next (serveWrite s r 0x8004 2 wUpdateData)

/-- The images of a bundle in order; the zeros that fill the last chunk end it. -/
def bundleImages : Nat → List Byte → List Image
  | 0, _ => []
  | fuel + 1, bs =>
    if allZero bs then []
    else
      let im := imageOf bs
      im :: bundleImages fuel (bs.drop (352 + im.length))

/-- The bundle as written. -/
def SecSt.bundle (c : SecSt) : List Image := bundleImages (c.length / 352 + 1) (Mem.bytes c.chunks 0 c.length)

/-- Whether the state allows an image of a kind to be staged (16 R486); a halted boot takes a recovery image only (R479). -/
def kindAllowed (s : State) (kind : Nat) : Bool :=
  let l := s.life.st
  if kind = 5 then l == .service || l == .quarantined
  else l == .ready || l == .paused || l == .service || l == .quarantined || (l == .stewardBoot && s.sec.halted)

/-- The first image of a bundle that is not accepted, with its status. -/
def bundleFault (s : State) (ims : List Image) : Option (Nat × Nat) :=
  ims.findSome? (fun im =>
    let st := if im.kind = 6 then guardStatus s.sec im
      else verifyImage s.sec (if s.sec.halted then [7] else [1, 2, 3, 4, 5, 7]) im
    if st = 0 then none else some (im.kind, st))

/-- Whether a bundle that holds any of KIND 1-4 lacks another of them. -/
def firmwarePart (ims : List Image) : Bool :=
  let has (k : Nat) : Bool := ims.any (fun im => im.kind == k)
  [1, 2, 3, 4].any has && not ([1, 2, 3, 4].all has)

/-- An image staged (16 R486). -/
def stageImage (c : SecSt) (im : Image) : SecSt :=
  match im.kind with
  | 5 => { c with configNext := some im }
  | 6 => { c with guardNext := some im }
  | 7 => { c with recovery := some im }
  | _ => c

/-- A bundle staged: a firmware set into the inactive bank with three attempts; a recovery image in a halted boot runs, and
its boot ends in QUARANTINED (16 R479, R480, R486). -/
def stageBundle (s : State) (ims : List Image) : State :=
  let fw := ims.filter (fun im => 1 ≤ im.kind && im.kind ≤ 4)
  let s := s.modSec (fun c => ims.foldl stageImage c)
  let s := if fw.isEmpty then s else s.modSec (fun c => { c with
    banks := vset c.banks (Fin.ofNat 2 (1 - c.roll.active)) fw, roll := { c.roll with trial := 3 }, trialOpen := true })
  match s.sec.halted, s.sec.recovery with
  | true, some im => s.modSec (fun c => { c with
      halted := false, bootCode := 0, runningBank := 2, quarantineBoot := true, fwVersion := im.version,
      banks := vset c.banks 0 (Config.recoverySet im.image) })
  | _, _ => s

/-- UPDATE_COMMAND (16 R486): 1 verify and stage, 2 discard the chunks; other values are reserved. -/
def wUpdateCommand (r : Req) (s : State) : Nat × State :=
  match reqNat r with
  | 1 =>
    if !kindAllowed s 1 || (s.sec.bundle.any (fun im => im.kind == 5) && !kindAllowed s 5) then (stWrongState, s)
    else if s.sec.busy then (stBusy, s)
    else (stPending, s.modSec (fun c => { c with busy := true, status := stPending }))
  | 2 =>
    if s.sec.busy then (stBusy, s) else (0, s.modSec (fun c => { c with chunks := [], length := 0, status := 0 }))
  | _ => (stReserved, s)

/-- UPDATE_VERIFY: OD 8004.03 written with 1. -/
def execUpdateVerify (r : Req) (s : State) : Out :=
  if reqNat r = 1 then .next (serveWrite s r 0x8004 3 wUpdateCommand) else .next s

/-- UPDATE_DISCARD: OD 8004.03 written with 2. -/
def execUpdateDiscard (r : Req) (s : State) : Out :=
  if reqNat r = 2 then .next (serveWrite s r 0x8004 3 wUpdateCommand) else .next s

/-- UPDATE_VERIFY_DONE (16 R486, R488): the images are staged, or UPDATE_STATUS holds the failure. -/
def execUpdateVerifyDone (s : State) : Out :=
  if !s.sec.busy then .next s
  else
    let ims := s.sec.bundle
    let s := s.modSec (fun c => { c with busy := false })
    let fail (s : State) (st : Nat) : State := s.modSec (fun c => { c with status := st })
    match bundleFault s ims with
    | some (kind, st) => .next (fail (rejectImage s kind st) st)
    | none =>
      if firmwarePart ims then .next (fail s stInconsistent)
      else if !ims.all (fun im => kindAllowed s im.kind) then .next (fail s stWrongState)
      else .next (stageBundle (fail s 0) ims)

/-! ### The owner (16 R483) -/

/-- OWNER_KEY (16 R483): the first owner is enrolled, or the enrolled one replaced under its own signature. -/
def wOwnerKey (r : Req) (s : State) : Nat × State :=
  let key := r.value.take 32
  let signed := allZero s.sec.roll.owner || Config.ed25519 s.sec.ownerKey key (sliceBytes r.value 32 64)
  if !signed then (stSignature, s)
  else
    let s := s.modSec (fun c => { c with
      roll := { c.roll with owner := Config.sha512 key }, ownerKey := key, guardNext := none })
    (0, raiseMod s .ownerEnrolled 0)

/-- OWNER_KEY: OD 8005.01. -/
def execOwnerKey (r : Req) (s : State) : Out := .next (serveWrite s r 0x8005 1 wOwnerKey)

/-! ### Attestation (16 R485) -/

/-- NONCE: a report is due; one that is pending is replaced. -/
def wNonce (r : Req) (s : State) : Nat × State :=
  (0, s.modSession r (fun x => { x with nonce := r.value, reportDue := true, report := none }))

/-- NONCE: OD 8002.01. -/
def execNonce (r : Req) (s : State) : Out := .next (serveWrite s r 0x8002 1 wNonce)

/-- The 680 bytes of a report. -/
def reportOf (s : State) (nonce : List Byte) : List Byte :=
  let trial := s.sec.trialOpen && s.sec.runningBank != s.sec.roll.active
  let body := leBytes 2 1 ++ leBytes 1 (lifeCode s.life.st) ++ leBytes 1 (b2n s.sec.guardDefaults + 2 * b2n trial)
    ++ leBytes 4 s.sec.fwVersion ++ nonce ++ leBytes 10 s.cbc ++ List.replicate 6 0 ++ leBytes 8 s.commit.step ++ ownIdentity
    ++ List.replicate 8 0 ++ s.sec.m.toList.flatten
  body ++ Config.identitySign body

/-- A session whose report is due gets it. -/
def giveReport (s : State) (x : Session) : Session :=
  if x.reportDue then { x with reportDue := false, report := some (reportOf s x.nonce) } else x

/-- REPORT_READY (16 R485): the monitor has signed the report of a session; 0 is the chain's. -/
def execReportReady (session : Nat) (s : State) : Out :=
  let s := passFrac s
  if session = 0 then .next { s with dict := { s.dict with chain := giveReport s s.dict.chain } }
  else .next { s with dict := { s.dict with
    sessions := s.dict.sessions.map (fun x => if x.num = session then giveReport s x else x) } }

end Sys2Proof.Machine
end

