-- ==== Sys2Proof/Machine/Colander.lean ====
section
/-! DEFINITION. Machine/Colander.lean: the end of SELF_TEST, which builds the effective colander (03 R88), and the service
engineer's hole request (03 R95). -/

namespace Sys2Proof.Machine

/-- Whether the journal is cut before a record (03 R88): its check is wrong, or it maps a hole or a mapped PID. -/
def journalBad (e : Effective) (r : ColRec) : Bool :=
  r.check.toNat != r.crc || (r.kind = 4 && (e.isHole r.pid || e.mapped r.pid))

/-- The journal replayed up to the first bad record: what is in force and the records kept. -/
def replayJournal (e : Effective) : List ColRec → Effective × List ColRec
  | [] => (e, [])
  | r :: rest =>
    if journalBad e r then (e, [])
    else
      let x := replayJournal (e.apply r) rest
      (x.1, r :: x.2)

/-- The base colander and the journal take effect silently; a damaged journal is truncated (03 R88, R94). A record that
was due when the reset came first takes effect now, with its event. The supplies of the regions that a HOLE record names as
isolated stay isolated. -/
def replayColander (s : State) : State :=
  let base := baseEffective s.col.base
  let kept := (replayJournal base s.col.journal).2
  let due := s.col.due.filter (fun r => kept.contains r)
  let cut := kept.length < s.col.journal.length
  let s := { s with col := { s.col with
    eff := (kept.filter (fun r => !due.contains r)).foldl Effective.apply base, journal := kept, due := []
    isolated := Vector.ofFn (isolationNamed (s.col.base ++ kept)) } }
  let s := if cut then raiseMod s .journalTruncated (names [kept.length]) else s
  due.foldl takeEffect s

/-- A record that SELF_TEST appends takes effect at once (03 R88, R94); relocation follows at the end. -/
def selfRecord (s : State) (kind : Nat) (p : Pid) (a b cause : Nat) : State :=
  let r := mkRec kind 1 p a b (validCount s) cause
  takeEffect (journalAdd s r) r

/-- A new defect (03 R80, R82, R88): nothing for a hole; the ninth column and the seventeenth bank make a hole. -/
def selfDefect (cause : Nat) (s : State) (d : Defect) : State :=
  if s.isHole d.pid then s
  else match d.kind with
    | 1 => selfRecord s 1 d.pid d.a 0 cause
    | 2 =>
      let g : Fin 4 := Fin.ofNat 4 d.a
      let bad := vget (s.skCol d.pid).cols g
      if bad.contains d.b then s
      else if 8 ≤ bad.length then selfRecord s 1 d.pid 2 0 cause else selfRecord s 2 d.pid g.val (d.b % 256) cause
    | 3 =>
      let bad := (s.skCol d.pid).banks
      if bad.contains d.a then s
      else if 16 ≤ bad.length then selfRecord s 1 d.pid 3 0 cause else selfRecord s 3 d.pid (d.a % 256) 0 cause
    | _ => s

/-- A skillet with a griddle of more than 8 bad columns or with more than 16 retired banks is marked as a hole (03 R88). -/
def selfJudge (cause : Nat) (s : State) (p : Pid) : State :=
  let k := s.skCol p
  if s.isHole p then s
  else if k.cols.toList.any (fun c => 8 < c.length) then selfRecord s 1 p 2 0 cause
  else if 16 < k.banks.length then selfRecord s 1 p 3 0 cause
  else s

/-- The first reading of the ageing monitors (14 R420, R441), at the LIMIT ceiling. -/
def selfMargin (s : State) (x : Pid × Nat) : State :=
  let (p, mhz) := x
  if s.isHole p then s
  else
    let s := s.modMon p (fun m => { m with fmaxMeasured := mhz })
    let s := if mhz < levelMhz (limitOf s p) then
        raiseMon (s.modMon p (fun m => { m with margin := levelWithin mhz })) p .marginLow (names [mhz])
      else s
    if mhz < 1300 then
      selfRecord (s.modMon p (fun m => { m with margin := min m.margin 20 })) 1 p 1 0 Ev.marginLow.code
    else if (mhz - 1300) / 10 < (s.skCol p).fmax then selfRecord s 5 p ((mhz - 1300) / 10) 0 Ev.marginLow.code
    else s

/-- A stack that fails its training (10 R283). -/
def selfStack (s : State) (x : Slice × Nat) : State :=
  raiseMc (s.modMc x.1 (fun m => { m with link := 2, failed := BitVec.ofNat 32 x.2 })) x.1 .stackFailed (names [x.2])

/-- A mapped skillet leaves SELF_TEST on at level 15, any other off (14 R441). -/
def selfPower (s : State) (p : Pid) : State :=
  if s.col.eff.mapped p && !s.isHole p then
    (domainOn s p 23).modMon p (fun m => { m with level := 15, budgetLevel := 15 })
  else if vget s.col.isolated p then domainOff s p .isolated
  else domainOff s p .off

/-- A mesh link that fails its test is marked down: direction 0 north, 1 east, 2 south, 3 west. -/
def selfLink (s : State) (x : Pid × Nat) : State :=
  s.modRt (nodeOf x.1) (fun r => { r with linkDown := r.linkDown ||| BitVec.ofNat 4 (2 ^ (3 - x.2 % 4)) })

/-- The module once the self-test has built the effective colander (03 R88, 10 R283, R288, 14 R441): the records replayed,
the defects found judged, the holes' numbers moved, the stacks repaired, the skillets powered and the routes built. -/
def selfTested (t : SelfTest) (s : State) : State :=
  let s := replayColander s
  let (cause, s) := draw s
  let s := t.defects.foldl (selfDefect (cause % 65536)) s
  let s := t.fmaxMhz.foldl selfMargin s
  let s := allPids.foldl (selfJudge (cause % 65536)) s
  let s := relocateAll s (some t.adoptFails) 1 (cause % 65536)
  let s := allSlices.foldl (fun u sl => u.modMc sl (fun m => { m with link := 1 })) s
  let s := applyRepairs (t.failedStacks.foldl selfStack s)
  let s := allPids.foldl selfPower (t.linksDown.foldl selfLink s)
  rebuildRoutes s

/-- SELF_TEST_DONE (03 R88, R93, 10 R283, R288, 14 R441, 16 R480, R487, 17 R498). -/
def execSelfTestDone (t : SelfTest) (s : State) : Out :=
  if s.life.st != .selfTest then .next s
  else
    let s := selfTested t s
    if s.col.eff.healthy < 56 || s.sec.quarantineBoot || !t.failedStacks.isEmpty then .next (quarantine s)
    else .next (allSlices.foldl portUp (commitTrial (setLife s .awaitAddress)))

/-- HOLE_REQUEST (03 R95). -/
def wHoleRequest (r : Req) (s : State) : Nat × State :=
  let n := reqNat r
  if h : n < 64 then
    let p : Pid := ⟨n, h⟩
    accept (if s.isHole p then stInconsistent else if s.col.eff.healthy < 57 then stNoResource else 0) s
      { appendRecord s 1 3 p 5 0 0 with col := { (appendRecord s 1 3 p 5 0 0).col with holeRequest := n } }
  else (stAbove, s)

/-- HOLE_REQUEST: OD 2006.01. -/
def execHoleRequest (r : Req) (s : State) : Out := .next (serveWrite s r 0x2006 1 wHoleRequest)

end Sys2Proof.Machine
end

