-- ==== Sys2Proof/Machine/Input.lean ====
section
/-! DEFINITION. Machine/Input.lean: the busbar input, the resets, the start of the boot and the coolant (18, 17 R498, 15
R448). A command whose condition the state does not meet does not come about. -/

namespace Sys2Proof.Machine

/-- The state with the input changed. -/
def State.modInput (s : State) (f : InputSt → InputSt) : State := { s with input := f s.input }

/-! ### What a reset keeps -/

/-- The flash across a reset (16 R470, R472, R486): images, the anti-rollback record and the owner. -/
def SecSt.kept (c : SecSt) : SecSt :=
  { banks := c.banks, recovery := c.recovery, config := c.config, configNext := c.configNext, guardImg := c.guardImg,
    guardNext := c.guardNext, roll := c.roll, trialOpen := c.trialOpen, ownerKey := c.ownerKey }

/-- A bay across a reset: a cartridge that is present warms again. -/
def Bay.kept (y : Bay) : Bay := { y with st := if y.st == .empty then .empty else .warming, prepare := false }

/-- The module after a reset or a loss of power, before it boots: what the flash holds (the journal, 03; the repair list,
10 R288; the persistent log, 15 R452), the cartridges and the input stay; everything else returns to its reset value. -/
def State.cleared (s : State) : State :=
  { pending := s.pending, free := s.free
    col := { journal := s.col.journal, due := s.col.due }
    rim := { repairs := s.rim.repairs.map (fun e => { e with inForce := false }) }
    recov := { plog := s.recov.plog, plogCount := s.recov.plogCount }
    links := { bays := s.links.bays.map Bay.kept }
    input := { s.input with limited := false, leak := false, margin := {}, limit := {}, failed := {}, period := none }
    sec := s.sec.kept }

/-- STEWARD_BOOT is entered and the boot chain runs (16 R477, 17 R498); `old` is the code of the state before. -/
def boot (s : State) (old : Life) : State :=
  bootChain (changeLife { s with life := { s.life with st := old } } .stewardBoot)

/-- Module reset (17 R498): everything but the flash is cleared and the module boots. -/
def moduleReset (s : State) : State :=
  let t := s.cleared
  if s.life.st == .stewardBoot then bootChain { t with life := { t.life with st := .stewardBoot } } else boot t s.life.st

/-- The shutdown (18 R525, R522): every domain off, every laser dark, the input open. -/
def shutDown (s : State) (next : InputState) : State := s.cleared.modInput (fun x => { x with st := next })

/-! ### The input controller (18 R522-R525) -/

/-- I_LIM in A (18 R523). -/
def currentLimit (x : InputSt) : Nat := if x.pairA && x.pairB then 580 else 290

/-- Whether a pair's voltage makes it present (00 R8, 18 R522): 46 to 58 V. -/
def pairRange (v10mV : Nat) : Bool := decide (4600 ≤ v10mV) && decide (v10mV ≤ 5800)

/-- Whether a voltage that lasts for some microseconds is below what ride-through covers (18 R521, R522): under 42 V at any
instant, or under 46 V for more than 5 ms. -/
def undervoltage (v10mV us : Nat) : Bool := decide (v10mV < 4200) || (decide (v10mV < 4600) && decide (5000 < us))

/-- OFF is left for SOFT_START once PWR_EN is asserted and a pair is present. -/
def tryStart (s : State) : State :=
  if s.input.st == .off && s.input.pwrEn && (s.input.pairA || s.input.pairB) then s.modInput (fun x => { x with st := .softStart })
  else s

/-- PWR_EN_ASSERT (18 R522): PWR_EN rises with these pair voltages. -/
def execPwrEnAssert (vinA10mV : Nat) (vinB10mV : Nat) (s : State) : Out :=
  if s.input.pwrEn then .next s
  else
    let s := s.modInput (fun x => { x with pwrEn := true, pairA := pairRange vinA10mV, pairB := pairRange vinB10mV })
    .next (tryStart (s.modInput (fun x => { x with iLim := currentLimit x })))

/-- SOFT_START_DONE (18 R522): the input is ON and the module boots; a RESET_N that is low holds it, and a PWR_EN that has
fallen meanwhile opens the input again. -/
def execSoftStartDone (s : State) : Out :=
  if s.input.st != .softStart then .next s
  else if !s.input.pwrEn then .next (shutDown s .off)
  else
    let s := s.modInput (fun x => { x with st := .on })
    .next (if s.input.resetLow then s else boot s .off)

/-- STAGE2_START (16 R477, 17 R498): the dictionary server and the runtime start; SELF_TEST begins. -/
def execStage2Start (s : State) : Out :=
  if s.life.st != .stewardBoot || s.sec.halted then .next s else .next (changeLife s .selfTest)

/-- PWR_EN_DEASSERT (18 R525): an input that is ON opens. -/
def execPwrEnDeassert (s : State) : Out :=
  let s := s.modInput (fun x => { x with pwrEn := false })
  .next (if s.input.st == .on then shutDown s .off else s)

/-- INPUT_LOCKOUT (18 R522): the higher pair voltage too low, or a pair above 60.0 V for 100 µs. -/
def execInputLockout (s : State) : Out :=
  .next (if s.input.st == .on then shutDown s .lockout else s)

/-- LOCKOUT_CLEAR (18 R522): PWR_EN has been deasserted for 100 ms. -/
def execLockoutClear (s : State) : Out :=
  .next (if s.input.st == .lockout && !s.input.pwrEn then s.modInput (fun x => { x with st := .off }) else s)

/-- A pair's presence: A, or B where the flag is set. -/
def setPair (s : State) (b here : Bool) : State :=
  s.modInput (fun x => { x with pairA := if b then x.pairA else here, pairB := if b then here else x.pairB })

/-- Whether a pair is present. -/
def pairHere (s : State) (b : Bool) : Bool := if b then s.input.pairB else s.input.pairA

/-- INPUT_PAIR_LOST (18 R522-R524): a pair whose voltage has stood outside its range is no longer present; a
dip of at most 5 ms into the ride-through range keeps it. I_LIM is 290 A with one pair. -/
def execInputPairLost (x : PairReading) (s : State) : Out :=
  if !pairHere s x.b || !(undervoltage x.v10mV x.us || 5800 < x.v10mV) then .next s
  else
    let on := s.input.st == .on
    let s := (setPair s x.b false).modInput (fun x => { x with iLim := 290 })
    .next (if on && s.powered then raiseInput s .inputPairLost x.v10mV else s)

/-- INPUT_PAIR_RETURN (18 R522-R524): a pair's voltage has been in range for 1 s. -/
def execInputPairReturn (x : PairReading) (s : State) : Out :=
  if pairHere s x.b || !pairRange x.v10mV || x.us < 1000000 then .next s
  else .next (tryStart ((setPair s x.b true).modInput (fun y => { y with iLim := currentLimit y })))

/-! ### Resets (18 R529, 17 R499, 15 R448) -/

/-- RESET_N (18 R529): low for at least 10 µs resets the module; the steward is held in reset while it stays low.
It has no effect while PWR_EN is deasserted. -/
def execResetN (s : State) : Out :=
  if !s.input.pwrEn then .next s
  else
    let s := s.modInput (fun x => { x with resetLow := true })
    .next (if s.input.st == .on then s.cleared else s)

/-- RESET_N_RELEASE (18 R529): STEWARD_BOOT begins. -/
def execResetNRelease (s : State) : Out :=
  if !s.input.resetLow then .next s
  else
    let s := s.modInput (fun x => { x with resetLow := false })
    .next (if s.input.st == .on && s.input.pwrEn then boot s .off else s)

/-- MODULE_RESET (17 R499): 100 ms after the reply to RESET. -/
def execModuleReset (s : State) : Out := .next (if s.life.resetDue then moduleReset s else s)

/-- STEWARD_FAULT (15 R448): the persistent log takes the event if the steward can still write it; the module resets. -/
def execStewardFault (canLog : Bool) (s : State) : Out :=
  if s.life.st == .off then .next s
  else
    let r := mkRecord s 68 Ev.stewardFault.code .fatal (plocBlock 68) 0
    .next (moduleReset (if canLog then s.modRecov (fun v => { v with
      plog := (v.plog ++ [({ seq := v.plogCount, record := r } : LogEntry)]).drop (v.plog.length + 1 - 16384)
      plogCount := v.plogCount + 1 }) else s))

/-! ### The coolant (18 R531, R533) -/

/-- A register of the carrier sensor (18 R531) by its offset; none, a not-acknowledge, while the input is not ON. -/
def carrierReg (x : InputSt) (offset : Nat) : Option Nat :=
  if x.st != .on then none
  else
    let signed (t : Int) : Nat := (t % 65536).toNat
    some ([0xB1A3, cstatus x, x.vinA, x.vinB, x.iinA, x.iinB, x.pin, signed x.tInlet, signed x.tOutlet, x.flow].getD (offset / 2) 0)

/-- A limit after a reading: it applies once its condition has held for 1 s, that is ten readings, and ends after 10 s
without it. -/
def CoolLimit.read (c : CoolLimit) (cond : Bool) : CoolLimit :=
  if cond then { on := c.on || decide (10 ≤ c.held + 1), held := min 10 (c.held + 1), clear := 0 }
  else { on := c.on && decide (c.clear + 1 < 100), held := 0, clear := if c.on then min 100 (c.clear + 1) else 0 }

/-- T_INLET as the sensor reports it: 16 bits, two's complement. -/
def tempWord (t : Int) : Nat := ((t + 65536) % 65536).toNat

/-- The reading that caused a coolant limit: the flow, or the inlet temperature; which of them where both are out of range
is a free value. -/
def coolReading (s : State) (x : Sensor) (flowBad tempBad : Bool) : Nat × State :=
  let (v, s) := draw s
  (if flowBad && !(tempBad && v % 2 = 1) then x.flow else if tempBad then tempWord x.tInlet else v, s)

/-- A coolant event where a limit begins to apply. -/
def raiseCool (s : State) (was now : CoolLimit) (ev : Ev) (x : Sensor) (flowBad tempBad : Bool) : State :=
  if was.on || !now.on then s
  else
    let (v, s) := coolReading s x flowBad tempBad
    raiseInput s ev v

/-- COOLANT_READ (18 R531, R533): the sensor's reading and the limits that follow from it. A leak holds FAILED. -/
def execCoolantRead (x : Sensor) (s : State) : Out :=
  if s.input.st != .on || !s.controls || !periodDue s s.input.period 100000 then .next s
  else
    let o := s.input
    let leak := o.leak || x.leak
    let low (l : Nat) : Bool := decide (x.flow < l)
    let hot (t : Int) : Bool := decide (t < x.tInlet)
    let margin := o.margin.read (low 4000 || hot 3500)
    let limit := o.limit.read (low 3000 || hot 4000)
    let failed := o.failed.read (low 1000 || leak)
    let s := s.modInput (fun i => { i with
      vinA := x.vinA, vinB := x.vinB, iinA := x.iinA, iinB := x.iinB, pin := x.pin, tInlet := x.tInlet,
      tOutlet := x.tOutlet, flow := x.flow, leak := leak, margin := margin, limit := limit, failed := failed,
      period := periodNow s 100000 })
    let s := raiseCool s o.margin margin .coolantMargin x (low 4000) (hot 3500)
    let s := raiseCool s o.limit limit .coolantLimited x (low 3000) (hot 4000)
    let s := raiseCool s o.failed failed .coolantFailed x (low 1000) false
    .next (if failed.on && leak && !(o.failed.on && o.leak) then
        let (v, s) := draw s
        raiseInput s .leakDetected v
      else s)

end Sys2Proof.Machine
end

