-- ==== Sys2Proof/Machine/Plans.lean ====
section
/-! DEFINITION. Machine/Plans.lean: plans and jobs: the bundle and its checks, loading and unloading (17 R513-R515, R540, 10
R293, R318, 11 R329, 13 R402, 01 R40-R45). -/

namespace Sys2Proof.Machine

/-- The state with the dictionary server changed. -/
def State.modDict (s : State) (f : DictSt → DictSt) : State := { s with dict := f s.dict }

/-! ### The bundle (17 R513, R540) -/

/-- A section of a bundle. -/
structure PlanSection where
  kind : Nat
  arg : Nat
  offset : Nat
  body : List Byte
  deriving DecidableEq, Repr

/-- The sections from a position on: the sections, whether a reserved byte is not zero, and whether the layout is
inconsistent. `last` is the end of the body before. -/
def planSections : Nat → List Byte → Nat → Nat → List PlanSection × Bool × Bool
  | 0, _, _, _ => ([], false, true)
  | fuel + 1, data, pos, last =>
    if data.length < pos + 32 then ([], false, last != data.length)
    else
      let h := sliceBytes data pos 32
      let end_ := pos + 32 + leNat (sliceBytes h 16 8)
      let res := !allZero (sliceBytes h 2 6) || !allZero (sliceBytes h 24 8) || !allZero (sliceBytes data last (pos - last))
      if data.length < end_ then ([], res, true)
      else
        let x := planSections fuel data ((end_ + 63) / 64 * 64) end_
        ({ kind := leNat (sliceBytes h 0 1), arg := leNat (sliceBytes h 1 1), offset := leNat (sliceBytes h 8 8),
           body := sliceBytes data (pos + 32) (end_ - pos - 32) } :: x.1, res || x.2.1, x.2.2)

/-- 480 MiB (00 R6). -/
def pantryBytes : Nat := 480 * 2 ^ 20

/-- The start-table entries of a section. -/
def startEntries (bs : List Byte) : List StartEntry :=
  (List.range (bs.length / 16)).map (fun i =>
    let e := sliceBytes bs (16 * i) 16
    ⟨leNat (sliceBytes e 0 1), leNat (sliceBytes e 1 1), leNat (sliceBytes e 4 4), leNat (sliceBytes e 8 8)⟩)

/-- Whether a start-table entry lies outside its range (17 R540). -/
def startBad (e : StartEntry) : Bool := 16 ≤ e.task || 56 ≤ e.logical || pantryBytes ≤ 16 * e.pc

/-- Whether a section has a reserved KIND or ARG. -/
def sectionReserved (x : PlanSection) : Bool :=
  x.kind = 0 || 7 < x.kind
    || (if x.kind = 1 then !(x.arg ≤ 55 || x.arg = 0xFF) else if x.kind = 7 then 15 < x.arg else x.arg != 0)

/-- Whether a section contradicts its kind (17 R540). -/
def sectionInconsistent (nested : Bool) (x : PlanSection) : Bool :=
  let n := x.body.length
  (x.kind != 1 && x.offset != 0) || (nested && 2 < x.kind)
    || (match x.kind with
      | 2 => n % 16 != 0
      | 3 => n % 16 != 0 || 256 < n
      | 4 => n < 16 || n % 16 != 0
      | 5 => n % 16 != 0 || 16384 < n
      | 6 => n != 8
      | _ => false)

/-- Whether a section names what is out of range. -/
def sectionRange (x : PlanSection) : Bool :=
  match x.kind with
  | 1 => pantryBytes < x.offset + x.body.length
  | 2 => (startEntries x.body).any startBad
  | _ => false

/-- The number of sections of a kind. -/
def countKind (xs : List PlanSection) (k : Nat) : Nat := (xs.filter (fun x => x.kind == k)).length

/-- A bundle's sections with the three conditions of R540; the bundle of an EVAL_PLAN lies one level down. -/
def checkBundle : Nat → Bool → List Byte → List PlanSection × Bool × Bool × Bool
  | 0, _, _ => ([], false, true, false)
  | fuel + 1, nested, data =>
    let head := sliceBytes data 0 64
    let x := planSections 4098 data 64 64
    let xs := x.1
    let deep := (xs.filter (fun y => y.kind == 7 && !nested)).map (fun y => checkBundle fuel true y.body)
    let res := leNat (sliceBytes head 0 2) != 1 || !allZero (sliceBytes head 4 4) || !allZero (sliceBytes head 16 48)
      || x.2.1 || xs.any sectionReserved || deep.any (fun d => d.2.1)
    let counts := !nested && (countKind xs 2 != 1 || countKind xs 3 != 1 || countKind xs 4 != 1 || 1 < countKind xs 5
      || countKind xs 6 != 1 || 16 < countKind xs 7)
    let n := leNat (sliceBytes head 2 2)
    let inc := data.length < 64 || n != xs.length || n = 0 || 4096 < n || leNat (sliceBytes head 8 8) != data.length
      || x.2.2 || counts || xs.any (sectionInconsistent nested) || deep.any (fun d => d.2.2.1)
    (xs, res, inc, xs.any sectionRange || deep.any (fun d => d.2.2.2))

/-- The body of the first section of a kind. -/
def bodyOf (xs : List PlanSection) (k : Nat) : List Byte := ((xs.find? (fun x => x.kind == k)).map (fun x => x.body)).getD []

/-- The 16-byte entries of a table, at least n of them. -/
def tableWords (n : Nat) (bs : List Byte) : List Nat :=
  (List.range (max n (bs.length / 16))).map (fun i => leNat (sliceBytes bs (16 * i) 16))

/-- Whether some two elements are related. -/
def anyPair {α : Type} (f : α → α → Bool) : List α → Bool
  | [] => false
  | x :: xs => xs.any (f x) || anyPair f xs

/-! ### The region table (10 R291-R293) -/

/-- An entry of the region table. -/
def regionOf (v : Nat) : Region :=
  { kind := bits v 127 124, gran := bits v 123 121, base := bits v 113 89, size := bits v 88 64, stripes := bits v 63 39 }

/-- The most and the fewest entries of a kind (10 R292) for M modules. -/
def regionCount (m kind : Nat) : Nat × Nat :=
  if kind ≤ 5 then (1, 1) else if kind ≤ 7 then (if 1 < m then (1, 1) else (0, 0)) else if kind = 8 then (0, 4) else (0, 8)

/-- Whether a kind is compound (10 R297). -/
def compoundKind (k : Nat) : Bool := 4 ≤ k && k ≤ 7

/-- Whether an entry contradicts R292, R295-R297. -/
def regionWrong (t u : Nat) (r : Region) : Bool :=
  (r.kind != 0 && r.kind ≤ 7 && r.gran != (if r.kind = 3 then 5 else 0))
    || (match r.kind with
      | 1 | 2 => r.size != t
      | 3 => r.size != ceilDiv t 32
      | _ => compoundKind r.kind && r.size != 3 * u + ceilDiv u 2)
    || r.stripes != (if compoundKind r.kind then u else 0)

/-- Whether two regions overlap. -/
def regionsMeet (a b : Region) : Bool :=
  a.size != 0 && b.size != 0 && a.base < b.base + b.size && b.base < a.base + a.size

/-- The status of a region table for T stripes, U owned stripes and M modules (10 R293). -/
def regionStatus (t u m : Nat) (vs : List Nat) : Nat :=
  let rs := vs.map regionOf
  let used := rs.filter (fun r => r.kind != 0)
  if vs.any (fun v => 9 < bits v 127 124 || 5 < bits v 123 121 || bits v 120 114 != 0 || bits v 38 0 != 0) then stReserved
  else if rs.any (regionWrong t u) || anyPair regionsMeet used
      || (List.range 9).any (fun i =>
        let n := (used.filter (fun r => r.kind == i + 1)).length
        n < (regionCount m (i + 1)).1 || (regionCount m (i + 1)).2 < n) then stInconsistent
  else if used.any (fun r => r.size = 0) then stDescRange
  else if used.any (fun r => 3040 * 8192 < r.base + r.size) then stNoResource
  else 0

/-! ### The bucket table (11 R327-R329) -/

/-- An entry of the bucket table. -/
def bucketEntry (v : Nat) : Bucket :=
  { first := bits v 127 103, last := bits v 102 78, contrib := bits v 77 62, readyEn := bit v 61, readyTask := bits v 60 57,
    readyPc := bits v 56 32, raw := v }

/-- The status of a bucket table: its header, its entries and T (11 R329). -/
def bucketStatus (t h : Nat) (vs : List Nat) : Nat :=
  let bs := vs.map bucketEntry
  if bits h 63 45 != 0 || bits h 31 0 != 0 || vs.any (fun v => bits v 31 0 != 0) then stReserved
  else if bits h 44 32 != bs.length || bs.any (fun b => b.last < b.first) || bits h 127 64 = 0
      || bs.any (fun b => t ≤ b.last) || anyPair (fun a b => a.first ≤ b.last && b.first ≤ a.last) bs
      || (bs.map (fun b => b.last + 1 - b.first)).sum != t
      || bs.any (fun b => b.contrib = 0 || (!b.readyEn && (b.readyTask != 0 || b.readyPc != 0))) then stInconsistent
  else if bs.length = 0 || 4096 < bs.length || bs.any (fun b => pantryBytes ≤ 16 * b.readyPc) then stDescRange
  else 0

/-! ### The watch table (13 R401, R402) -/

/-- A two's complement byte. -/
def signedByte (n : Nat) : Int := if n < 128 then n else (n : Int) - 256

/-- An entry of the watch table. -/
def watchEntry (v : Nat) : WatchEntry :=
  { kind := bits v 127 124, policy := bits v 123 122, overBin := bits v 121 116, layer := bits v 115 100,
    kInit := signedByte (bits v 99 92), kMin := signedByte (bits v 91 84), kMax := signedByte (bits v 83 76),
    first := bits v 59 30, last := bits v 29 0, raw := v }

/-- Whether an entry of the watch table contradicts itself. -/
def watchWrong (w : Nat) (e : WatchEntry) : Bool :=
  e.kInit < e.kMin || e.kMax < e.kInit || (e.policy != 0 && (e.kind = 3 || e.kind = 0 || 511 < w))
    || (e.kind != 0 && e.overBin < 2) || (e.kind != 3 && (e.first != 0 || e.last != 0)) || e.last < e.first

/-- The status of a watch table for T stripes (13 R402). -/
def watchStatus (t : Nat) (vs : List Nat) : Nat :=
  let es := vs.map watchEntry
  let upd := es.filter (fun e => e.kind == 3)
  if es.any (fun e => 3 < e.kind || e.policy = 3 || bits e.raw 75 60 != 0) then stReserved
  else if es.zipIdx.any (fun x => watchWrong x.2 x.1) || anyPair (fun a b => a.first ≤ b.last && b.first ≤ a.last) upd then
    stInconsistent
  else if 64 < upd.length || upd.any (fun e => 32 * t ≤ e.last) then stDescRange
  else 0

/-- The entries of a watch table by watch point; an entry of zeros is the same as none. -/
def watchTable (vs : List Nat) : Tab WatchEntry :=
  (vs.zipIdx.filter (fun x => x.1 != 0)).map (fun x => (x.2, watchEntry x.1))

/-! ### The shape (01 R41) -/

/-- The evaluation slice's mask and the training skillets of a SHAPE section. -/
def shapeOf (bs : List Byte) : Nat × Nat := (leNat (sliceBytes bs 0 7), leNat (sliceBytes bs 7 1))

/-- The skillets of a mask. -/
def maskSize (m : Nat) : Nat := ((List.range 56).filter (fun i => bit m i)).length

/-- The status of a shape (01 R41). -/
def shapeStatus (bs : List Byte) : Nat :=
  let x := shapeOf bs
  if 8 < maskSize x.1 || maskSize x.1 + x.2 != 56 then stInconsistent else 0

/-! ### Loading a plan (17 R514) -/

/-- The bundle as written: as long as its header says, where that is what the chunks hold, else all of the chunks. -/
def planBundle (d : DictSt) : List Byte :=
  let total := leNat (Mem.bytes d.planChunks 8 8)
  Mem.bytes d.planChunks 0 (if total ≤ d.planLength && d.planLength < total + 4096 then total else d.planLength)

/-- The first status that is not zero. -/
def firstStatus : List Nat → Nat
  | [] => 0
  | st :: rest => if st = 0 then firstStatus rest else st

/-- The status of R40: teacher and student logits of different widths are inconsistent. -/
def logitStatus (bundle : List Byte) : Nat :=
  match Config.logitWidths bundle with
  | (_, none) => 0
  | (student, some teacher) => if teacher = student then 0 else stInconsistent

/-- The sections of the bundle written and the status of its checks in the order of R514. A layout beyond 3,040 GiB (R45)
has a region that ends there (R293). -/
def judgePlan (s : State) : List PlanSection × Nat :=
  let (xs, res, inc, rng) := checkBundle 2 false s.dict.planTaken
  let bt := tableWords 1 (bodyOf xs 4)
  let h := bt.headD 0
  let t := stripesOf (bits h 127 64)
  let m := s.modules
  (xs, if res then stReserved else if inc then stInconsistent else if rng then stDescRange
    else firstStatus [regionStatus t (ceilDiv t m) m (tableWords 16 (bodyOf xs 3)), bucketStatus t h bt.tail,
      watchStatus t (tableWords 0 (bodyOf xs 5)), shapeStatus (bodyOf xs 6), logitStatus s.dict.planTaken])

/-- The PANTRY_IMAGE sections. -/
def planImages (xs : List PlanSection) : List PlanImage :=
  (xs.filter (fun x => x.kind == 1)).map (fun x => ⟨x.arg, x.offset, x.body⟩)

/-- An EVAL_PLAN section. -/
def evalPlan (x : PlanSection) : EvalPlan :=
  let ys := (planSections 4098 x.body 64 64).1
  ⟨x.arg, planImages ys, startEntries (bodyOf ys 2)⟩

/-- The plan of a bundle. -/
def planOf (bundle : List Byte) (xs : List PlanSection) : Plan :=
  { digest := Config.sha512 bundle, images := planImages xs, starts := startEntries (bodyOf xs 2),
    slice := (shapeOf (bodyOf xs 6)).1, training := (shapeOf (bodyOf xs 6)).2,
    evals := (xs.filter (fun x => x.kind == 7)).map evalPlan }

/-- A region filled with zeros in every stack (17 R515); it lies at the same offsets of each (10 R290). -/
def zeroRegion (s : State) (r : Region) : State :=
  allSlices.foldl (fun t sl => t.modMc sl (fun m => { m with
    mem := Mem.zero m.mem (r.base * 4096) (r.size * 4096), writeBytes := sat64 m.writeBytes (r.size * 4096),
    bad := m.bad.filter (fun b => !(r.base * 4096 ≤ b * 64 && b * 64 < (r.base + r.size) * 4096)) })) s

/-- Whether a region holds job data (17 R515): REPLICA, TEACHER, OWNED_S0. -/
def jobRegion (r : Region) : Bool := r.kind = 1 || r.kind = 4 || r.kind = 8

/-- The regions of the job filled with zeros. -/
def zeroJob (s : State) : State := (s.regions.filter jobRegion).foldl zeroRegion s

/-- What the slices hold of an all-gather and of a buddy copy let go. -/
def clearCopies (s : State) : State :=
  allSlices.foldl (fun t sl => t.modRedSl sl (fun r => { r with agGot := [], agSent := [], buddyGot := [] })) s

/-- A plan that has passed loaded (17 R514, R515, 13 R410, 16 R484). -/
def installPlan (s : State) (xs : List PlanSection) : State :=
  let bundle := s.dict.planTaken
  let bt := tableWords 1 (bodyOf xs 4)
  let s := { s with regions := (tableWords 16 (bodyOf xs 3)).map regionOf }
  let s := s.modRed (fun r => { r with pTotal := bits (bt.headD 0) 127 64, buckets := bt.tail.map bucketEntry })
  let s := s.modWatch (fun w => { w with table := watchTable (tableWords 0 (bodyOf xs 5)), runs := [] })
  let s := s.modDict (fun d => { d with
    plan := some (planOf bundle xs), jobWritten := 0 })
  let s := (allPids.filter (fun p => runs s p)).foldl reload (zeroJob s)
  [bundle, bodyOf xs 3, bodyOf xs 4, bodyOf xs 5].foldl (fun t b => extendM t 6 b) s

/-- A PLAN_COMMAND accepted with 0x0403 ends. -/
def endPlan (s : State) (st : Nat) : State :=
  s.modDict (fun d => { d with planCommand := 0, planStatus := st, planTaken := [] })

/-- LOAD_PLAN_DONE (17 R514): the plan is loaded, or PLAN_STATUS holds the first check that fails. -/
def execLoadPlanDone (s : State) : Out :=
  if s.dict.planCommand != 1 then .next s
  else if s.life.st != .ready then .next (endPlan s stWrongState)
  else
    let (xs, st) := judgePlan s
    .next (endPlan (if st = 0 then installPlan s xs else s) st)

/-! ### Loading a job (10 R318, 17 R514, R515) -/

/-- The numbers of the job configuration that M7 measures (16 R484). -/
def jobNumbers (s : State) : List Nat :=
  let t := s.torus
  let o := s.rim.optim
  [s.dict.jobSeed, s.dict.jobStart, t.x, t.y, b2n t.double, t.clusterId, b2n t.origin, o.rule, o.lrPeak.toNat, o.warmup,
   o.decayKind, o.decaySteps, o.lrFloor.toNat, o.beta1.toNat, o.beta2.toNat, o.eps.toNat, o.weightDecay.toNat,
   o.momentum.toNat, b2n o.nesterov, o.gscale.toNat, b2n o.meanByTokens]
    ++ o.lrMul.toList.map (fun v => v.toNat) ++ o.wdMul.toList.map (fun v => v.toNat) ++ o.classes.toList

/-- A job loaded from what the regions hold (10 R318, 15 R455, 16 R484): the commit record is set, M7 is extended and the
shard goes to the buddy. -/
def startJob (s : State) : State :=
  let s0 := s.dict.jobStart
  let s := { s with commit := { step := s0 % 2 ^ 64, loaded := true, ptr := 0 } }
  let s := s.modRun (fun r => { r with skips := 0, cursor := 0, saved := none, halted := false })
  let s := s.modRecov (fun v => { v with
    n := 0, lost := false, loopStep := none, loopCount := 0, loopGate := none, loopHeld := false, states := [],
    heard := none, spareDue := false })
  let s := clearCopies s
  let s := { s with rim := { s.rim with acked := decide (s.modules ≤ 1) } }
  extendM (sendBuddyCopy s (stepBefore s0)) 7 (Config.jobBytes (jobNumbers s))

/-- LOAD_JOB_DONE (10 R318): the copy of the loaded shard is acknowledged; a single module has none. A job unloaded
meanwhile ends the command with 0x0401. -/
def execLoadJobDone (s : State) : Out :=
  if s.dict.planCommand != 3 then .next s
  else if !s.commit.loaded then .next (endPlan s stWrongState)
  else if s.rim.acked || s.modules ≤ 1 then .next (endPlan s 0) else .next s

/-- The plan and the job unloaded (17 R514). -/
def unloadAll (s : State) : State :=
  let s := clearCopies (zeroJob s)
  let s := { s with regions := [], commit := { s.commit with loaded := false } }
  let s := s.modRed (fun r => { r with pTotal := 0, buckets := [] })
  let s := s.modWatch (fun w => { w with table := [], runs := [] })
  s.modDict (fun d => { d with plan := none, jobWritten := 0 })

/-! ### Entries (17 R514, R515) -/

/-- PLAN_OFFSET: OD 2100.01. -/
def wPlanOffset (r : Req) (s : State) : Nat × State :=
  let v := reqNat r
  accept (if 2 ^ 34 ≤ v then stAbove else if v % 4096 != 0 then stInconsistent else 0) s
    (s.modSession r (fun x => { x with planOffset := v }))

/-- PLAN_DATA: a chunk at PLAN_OFFSET, which then advances. -/
def wPlanData (r : Req) (s : State) : Nat × State :=
  let off := ((s.session r).map (fun x => x.planOffset)).getD 0
  if 2 ^ 34 ≤ off then (stAbove, s)
  else
    let s := s.modDict (fun d => { d with
      planChunks := Mem.store d.planChunks off r.value, planLength := max d.planLength (off + 4096) })
    (0, s.modSession r (fun x => { x with planOffset := off + 4096 }))

/-- PLAN_DATA: OD 2100.02. -/
def execPlanData (r : Req) (s : State) : Out := .next (serveWrite s r 0x2100 2 wPlanData)

/-- LOAD_PLAN takes the chunks written since the last one (17 R514). -/
def takeChunks (d : DictSt) : DictSt := { d with planTaken := planBundle d, planChunks := [], planLength := 0 }

/-- PLAN_COMMAND: 1 LOAD_PLAN, 2 UNLOAD, 3 LOAD_JOB, 4 discard; other values are reserved. -/
def wPlanCommand (r : Req) (s : State) : Nat × State :=
  let pend (n : Nat) : State := s.modDict (fun d => { d with planCommand := n, planStatus := stPending })
  let busy := s.dict.planCommand != 0
  match reqNat r with
  | 1 =>
    if s.life.st != .ready then (stWrongState, s) else if s.dict.plan.isSome then (stInconsistent, s)
    else if busy then (stBusy, s) else (stPending, (pend 1).modDict takeChunks)
  | 2 =>
    if s.life.st != .ready && s.life.st != .paused then (stWrongState, s) else if busy then (stBusy, s)
    else (0, endPlan (unloadAll s) 0)
  | 3 =>
    if s.life.st != .ready then (stWrongState, s) else if s.dict.plan.isNone || s.commit.loaded then (stInconsistent, s)
    else if busy then (stBusy, s) else (stPending, startJob (pend 3))
  | 4 =>
    let s := s.modDict (fun d => { d with
      planChunks := [], planLength := 0, planStatus := if busy then d.planStatus else 0 })
    (0, s.modSession r (fun x => { x with planOffset := 0 }))
  | _ => (stReserved, s)

/-- A PLAN_COMMAND row: the write of its code to OD 2100.03. -/
def planCommand (code : Nat) (r : Req) (s : State) : State :=
  if reqNat r = code then serveWrite s r 0x2100 3 wPlanCommand else s

/-- LOAD_PLAN. -/
def execLoadPlan (r : Req) (s : State) : Out := .next (planCommand 1 r s)
/-- UNLOAD. -/
def execUnload (r : Req) (s : State) : Out := .next (planCommand 2 r s)
/-- LOAD_JOB. -/
def execLoadJob (r : Req) (s : State) : Out := .next (planCommand 3 r s)
/-- PLAN_DISCARD. -/
def execPlanDiscard (r : Req) (s : State) : Out := .next (planCommand 4 r s)

/-- JOB_SEED: OD 2101.01. -/
def wJobSeed (r : Req) (s : State) : Nat × State :=
  accept (if s.commit.loaded then stWrongState else 0) s (s.modDict (fun d => { d with jobSeed := reqNat r }))

/-- JOB_START_STEP: OD 2101.02. -/
def wJobStart (r : Req) (s : State) : Nat × State :=
  accept (if s.commit.loaded then stWrongState else 0) s (s.modDict (fun d => { d with jobStart := reqNat r }))

/-- Whether job data may be written (17 R515). -/
def jobOpen (s : State) : Bool := s.life.st == .ready && s.dict.plan.isSome && !s.commit.loaded

/-- Whether 4,096 bytes from an address lie inside a job region (17 R515). -/
def jobInside (s : State) (a : Nat) : Bool :=
  s.regions.any (fun r => jobRegion r && r.base * regUnit ≤ a && a + 4096 ≤ (r.base + r.size) * regUnit)

/-- JOB_ADDRESS: OD 2102.01; the state check comes before the address check. -/
def wJobAddress (r : Req) (s : State) : Nat × State :=
  let v := reqNat r
  accept (if !jobOpen s then stWrongState else if v % 4096 != 0 || !jobInside s v then stInconsistent else 0) s
    (s.modSession r (fun x => { x with jobAddress := v }))

/-- JOB_ADDRESS_WRITE. -/
def execJobAddressWrite (r : Req) (s : State) : Out := .next (serveWrite s r 0x2102 1 wJobAddress)

/-- JOB_DATA: 4,096 bytes stored at JOB_ADDRESS, which then advances (17 R515). -/
def wJobData (r : Req) (s : State) : Nat × State :=
  let a := ((s.session r).map (fun x => x.jobAddress)).getD 0
  if !jobOpen s then (stWrongState, s)
  else if a % 4096 != 0 || !jobInside s a then (stInconsistent, s)
  else
    let s := (List.range 64).foldl (fun t i => planWrite t (a + 64 * i) (sliceBytes r.value (64 * i) 64)) s
    let s := s.modDict (fun d => { d with jobWritten := d.jobWritten + 4096 })
    (0, s.modSession r (fun x => { x with jobAddress := a + 4096 }))

/-- JOB_DATA: OD 2102.02. -/
def execJobData (r : Req) (s : State) : Out := .next (serveWrite s r 0x2102 2 wJobData)

end Sys2Proof.Machine
end

