-- ==== Sys2Proof/Machine/Time.lean ====
section
/-! DEFINITION. Machine/Time.lean: the meanings of cluster time's commands (02): edges of the beat input, oscillator
beats, lock states, stamps, the count's load, the beat source, scheduled entries as written, and step markers. A command
whose condition the state does not meet does not come about: the state stays. -/

namespace Sys2Proof.Machine

/-! ### The beat input (02 R49, R50, R538) -/

/-- SYNC_IN_RISE (02 R49): an edge that passed the filter, `ps` after the train's reference and `sinceBeat` (in 1/1,024
bt) after the last counted beat. -/
def execSyncInRise (ps sinceBeat : Nat) (s : State) : Out :=
  if s.time.syncHigh || !s.powered then .next s
  else
    let high (t : State) (accepted : Bool) : State := t.modTime (fun x => { x with
      syncHigh := true, highAccepted := accepted, wideSeen := false, stuckSeen := false })
    if s.time.source != 0 then .next (high s false)
    else match edge s ps sinceBeat with
      | none => .next s
      | some (accepted, t) => .next (high t accepted)

/-- SYNC_IN_FALL (02 R49): the level falls; a pulse of fewer than 50 ns had no qualified rise and is a GLITCH. -/
def execSyncInFall (highNs : Nat) (s : State) : Out :=
  if !s.powered then .next s
  else if s.time.syncHigh then
    .next (s.modTime (fun t => { t with syncHigh := false, highAccepted := false, wideSeen := false, stuckSeen := false }))
  else if highNs < 50 && s.time.source = 0 then
    .next (anomaly (s.modTime (fun t => { t with glitch := sat32 t.glitch 1 })))
  else .next s

/-- LATE (02 R49, R59): no accepted edge by 1.1 µs; a flywheel beat moves the reference and, where the count follows the
train, is counted. While no edge comes there is one for every beat. -/
def execLate (s : State) : Out :=
  if s.time.source = 2 || !(s.time.train.hasRef || s.time.train.fly) || !s.powered || (s.time.follows && s.beatDue) then .next s
  else
    let counts := s.time.follows && !s.time.handover
    let s := anomaly (s.modTime (fun t => { t with
      late := sat32 t.late 1, train := { t.train with missed := t.train.missed + 1, run := 0 } }))
    .next (if counts then countBeat s else s)

/-- WIDE (02 R49): the high level of an accepted edge passes 500 ns. -/
def execWide (s : State) : Out :=
  if s.time.syncHigh && s.time.highAccepted && !s.time.wideSeen && s.time.source = 0 then
    .next (anomaly (s.modTime (fun t => { t with wide := sat32 t.wide 1, wideSeen := true })))
  else .next s

/-- STUCK (02 R49): the high level passes 2 µs, counted once per episode. -/
def execStuck (s : State) : Out :=
  if s.time.syncHigh && !s.time.stuckSeen && s.time.source = 0 then
    .next (anomaly (s.modTime (fun t => { t with stuck := sat32 t.stuck 1, stuckSeen := true })))
  else .next s

/-- TRAIN_RESTART (02 R538): 16 beats without an accepted edge start the train afresh; where the count follows the train,
HOLDOVER_ENTRY has come first. -/
def execTrainRestart (s : State) : Out :=
  if 16 ≤ s.time.train.missed && !s.time.follows && s.time.source != 2 then .next (s.modTime againTrain) else .next s

/-- OSCILLATOR_BEAT (02 R50, R53): the count advances on the local oscillator, steered in SLEWING by 1/64 of a beat, or what
is left of the offset, towards the reference: one beat of offset takes 64 bt. -/
def execOscillatorBeat (s : State) : Out :=
  let t := s.time
  let runs := t.source = 2 || !t.follows || t.handover
  if !runs || !s.powered || s.beatDue then .next s
  else
    let steered := t.lock == .slewing || t.steer
    let step : Int := 16
    let s := s.modTime (fun t => { t with
      holdoverBeats := if t.lock == .holdover then t.holdoverBeats + 1 else t.holdoverBeats
      slewOffset := if !steered then t.slewOffset
        else if step < t.slewOffset then t.slewOffset - step
        else if t.slewOffset < -step then t.slewOffset + step
        else 0 })
    let s := s.modTime (fun t => { t with steer := t.steer && 8 < t.slewOffset.natAbs })
    .next (countBeat s)

/-! ### Lock states (02 R50-R54) -/

/-- HOLDOVER_ENTRY (02 R50, R51): 16 anomalies within 1,000 bt. -/
def execHoldoverEntry (s : State) : Out :=
  let t := s.time
  let recent := t.anomalies.filter (fun a => t.ticks < a + 1000)
  if 16 ≤ recent.length && t.source != 2 && (t.follows || t.lock == .slewing) then .next (enterHoldover s) else .next s

/-- LOCKING_ENTRY (02 R51): 64 consecutive accepted beats; the count passes to the train at the next accepted edge. With
VALID = 1 the count is already confirmed. -/
def execLockingEntry (s : State) : Out :=
  let t := s.time
  if t.lock == .unlocked && t.source != 2 && 64 ≤ t.train.run then
    .next (setLock (s.modTime (fun t => { t with handover := true })) (if t.valid then .locked else .locking))
  else .next s

/-- SLEWING_ENTRY (02 R51-R54): 256 consecutive accepted beats and the reference known: the reference loaded or stamped,
or the nearest accepted edge, `edgeOffset` in 1/1,024 bt from the count. -/
def execSlewingEntry (edgeOffset : Int) (s : State) : Out :=
  let t := s.time
  let known := t.refOffset.isSome || !(t.awaitStamp || t.awaitLoad || 400000 < t.holdoverBeats)
  if !(t.lock == .holdover && t.source != 2 && 256 ≤ t.train.run && known)
      || edgeOffset ≤ -512 || 512 < edgeOffset then .next s
  else
    let whole : Int := ((t.refOffset.getD 0) + 512) / 1024
    let off := whole * 1024 + edgeOffset
    if 2048 * 1024 < off.natAbs && !t.refLoaded then .next (timeSplit s off.natAbs)
    else .next (s.modTime (fun t => { t with
      lock := .slewing, slewOffset := off, refOffset := none, awaitStamp := false, awaitLoad := false, anomalies := [] }))

/-- SLEW_END (02 R51, R53): the residual offset is at most 8/1,024 bt. -/
def execSlewEnd (s : State) : Out :=
  if s.time.lock == .slewing && s.time.slewOffset.natAbs ≤ 8 then
    let s := s.modTime (fun t => { t with slewOffset := 0, refLoaded := false })
    .next (raiseMod (setLock s .locked) .beatRelocked 0)
  else .next s

/-- HOLDOVER_LONG (02 R52): HOLDOVER passes 400,000 bt; a reference that CBC_LOAD supplied or must supply stays so. -/
def execHoldoverLong (s : State) : Out :=
  let t := s.time
  if t.lock == .holdover && 400000 < t.holdoverBeats && !t.longSeen then
    let s := s.modTime (fun t => if t.awaitLoad || t.refLoaded then { t with longSeen := true }
      else { t with longSeen := true, awaitStamp := true, refOffset := none })
    .next (raiseMod s .holdoverLong 0)
  else .next s

/-! ### Beats and stamps on the links (02 R52, R54, R55, R60) -/

/-- The count of a stamp corrected for the link delay (02 R55, R58): whole beats of half the round trip of training. -/
def stampCount (s : State) (port : Slice) (count : Nat) : Nat := count + (s.port port).rtt / 2 / 1000

/-- The module's own count that a stamp is compared with: the one that a pending load gives at the next beat, or COUNT. -/
def TimeSt.ownCount (t : TimeSt) : Int := match t.pendingLoad with
  | some v => Int.ofNat v - 1
  | none => Int.ofNat t.count

/-- A stamp of a LOCKED neighbour compared with the count (02 R60, R54). DESIGN CHOICE (notes/assumptions/60): while HOLDOVER
awaits CBC_LOAD, or the reference that CBC_LOAD gave is being applied, a difference of more than 2,048 bt raises no further
TIME_SPLIT; BEAT_SKEW is raised once, at the fourth differing stamp of a run. -/
def compareStamp (s : State) (port : Slice) (count : Nat) : State :=
  let d := (Int.ofNat count - s.time.ownCount).natAbs
  if 2048 < d then
    if s.time.awaitLoad || s.time.refLoaded then s else timeSplit s (d * 1024)
  else
    let run := if 1 ≤ d then vget s.time.skewRun port + 1 else 0
    let s := s.modTime (fun t => { t with skewRun := vset t.skewRun port run })
    if run = 4 then raisePort s port .beatSkew (names [port.val]) else s

/-- STAMP_RECEIVED (02 R55): it confirms the count, or gives the reference of a long HOLDOVER, or is compared. -/
def execStampReceived (port : Slice) (k : Nat) (s : State) : Out :=
  match landedNeighbour s port k 3 with
  | none => .next s
  | some c =>
    let s := dropLanded s port k
    let count := stampCount s port (leNat (c.bytes.take 8))
    let lock := ((c.bytes.drop 8).headD 0).toNat
    let valid := ((c.bytes.drop 9).headD 0).toNat
    if lock != 2 || valid != 1 then .next s
    else if !s.time.valid && s.time.source != 2 then
      .next (setValid (s.modTime (fun t => { t with pendingLoad := some (count + 1) })))
    else if s.time.lock == .holdover && s.time.awaitStamp && !s.time.awaitLoad && s.time.refOffset.isNone then
      let d := Int.ofNat s.time.count - Int.ofNat count
      .next (if 2048 < d.natAbs then timeSplit s (d.natAbs * 1024)
        else s.modTime (fun t => { t with refOffset := some (d * 1024), awaitStamp := false }))
    else .next (compareStamp s port count)

/-- BEAT_SYMBOL_RECEIVED (02 R58, R59): the beat symbol of the selected port is a beat edge. `ps` and `sinceBeat` are measured
at the symbol's arrival less the link delay measured in training, as the receiver removes it. -/
def execBeatSymbolReceived (port : Slice) (ps sinceBeat : Nat) (s : State) : Out :=
  if s.time.source = 1 && s.time.linkPort = port.val && (livePorts s).contains port then
    match edge s ps sinceBeat with
    | none => .next s
    | some (_, t) => .next t
  else .next s

/-! ### The count's load and the beat source (02 R54, R56, R59) -/

/-- Whether the lifecycle state is one in which CBC_LOAD is accepted. -/
def loadState (l : Life) : Bool :=
  l == .awaitAddress || l == .linkUp || l == .joined || l == .recovering || l == .service

/-- The reference that CBC_LOAD supplies, as an offset of the count in 1/1,024 bt. -/
def loadOffset (s : State) (v : Nat) : Int := (Int.ofNat s.time.count - Int.ofNat v) * 1024

/-- CBC_LOAD (02 R56): the reference of a HOLDOVER that awaits one; or the count at the next beat; or, below COUNT, a
slewing. -/
def wCbcLoad (r : Req) (s : State) : Nat × State :=
  let v := reqNat r
  if s.time.awaits then
    (0, setValid (s.modTime (fun t => { t with
      refOffset := some (loadOffset s v), refLoaded := true, awaitLoad := false, awaitStamp := false })))
  else if !loadState s.life.st || s.anyArmed then (stWrongState, s)
  else if !s.time.valid then (0, setValid (s.modTime (fun t => { t with pendingLoad := some v })))
  else if s.time.count ≤ v then (0, s.modTime (fun t => { t with pendingLoad := some v }))
  else if s.time.source = 2 then
    let s := s.modTime (fun t => { t with steer := true, slewOffset := loadOffset s v, pendingLoad := none })
    (0, setLock s .locked)
  else (0, s.modTime (fun t => { t with
    lock := .slewing, slewOffset := loadOffset s v, refLoaded := true, pendingLoad := none, anomalies := [] }))

/-- CBC_LOAD: OD 3200.05. -/
def execCbcLoad (r : Req) (s : State) : Out := .next (serveWrite s r 0x3200 5 wCbcLoad)

/-- The source train and the lock state after a change of source or of the source's port (02 R59). -/
def restartSource (s : State) : State :=
  let s := s.modTime (fun t => { startTrain t with anomalies := [], handover := false })
  let waiting := s.time.awaits
  if s.time.source = 2 then
    let s := s.modTime (fun t => { t with
      awaitStamp := false, awaitLoad := false, refOffset := none, refLoaded := false,
      lock := if t.valid && !waiting then .locked else .unlocked })
    lockedReady s
  else if waiting then s
  else s.modTime (fun t => { t with
    lock := .unlocked, slewOffset := 0, steer := false, refOffset := none, refLoaded := false })

/-- BEAT_SOURCE (02 R59). -/
def wBeatSource (r : Req) (s : State) : Nat × State :=
  let v := reqNat r
  if 2 < v then (stAbove, s)
  else if s.runningOrPaused then (stWrongState, s)
  else if v = s.time.source then (0, s)
  else (0, restartSource (s.modTime (fun t => { t with source := v })))

/-- BEAT_SOURCE_WRITE: OD 3200.01. -/
def execBeatSourceWrite (r : Req) (s : State) : Out := .next (serveWrite s r 0x3200 1 wBeatSource)

/-- BEAT_LINK_PORT (02 R59): the train starts afresh while source 1 is selected. -/
def wBeatLinkPort (r : Req) (s : State) : Nat × State :=
  let v := reqNat r
  if 31 < v then (stAbove, s)
  else if s.runningOrPaused then (stWrongState, s)
  else if v = s.time.linkPort then (0, s)
  else
    let s := s.modTime (fun t => { t with linkPort := v })
    (0, if s.time.source = 1 then restartSource s else s)

/-- BEAT_LINK_PORT_WRITE: OD 3200.02. -/
def execBeatLinkPortWrite (r : Req) (s : State) : Out := .next (serveWrite s r 0x3200 2 wBeatLinkPort)

/-! ### Scheduled entries (02 R61, R62) -/

/-- SCHED_ENTRY (02 R61, R62): an armed entry may only be disarmed; a write that arms is checked. DESIGN CHOICE
(notes/assumptions/61): a disarm and any other write that does not arm leave STATE IDLE; one that does not arm is refused
with RESERVED_VALUE for a reserved KIND code (R494) and checked for nothing else. -/
def wSchedEntry (i : Fin 64) (r : Req) (s : State) : Nat × State :=
  let old := vget s.sched.entries i
  let new := schedOf (leNat r.value)
  let put (e : SchedEntry) : State := s.modSched (fun c => { c with entries := vset c.entries i e })
  if old.arm then
    if !sameFields old new then (stBusy, s)
    else if new.arm then (0, s)
    else (0, put { old with arm := false, state := .idle, moved := none })
  else if new.arm then
    match armStatus s i new with
    | 0 => (0, put { new with state := .armed })
    | st => (st, s)
  else if 4 < new.kind then (stReserved, s)
  else (0, put new)

/-- SCHED_ENTRY_WRITE: OD 3210.00 to 3210.3F. -/
def execSchedEntryWrite (i : Fin 64) (r : Req) (s : State) : Out := .next (serveWrite s r 0x3210 i.val (wSchedEntry i))

/-! ### Step markers (02 R66, R67) -/

/-- STEP_MARK_RISE (02 R66): the target is the first counted beat after the edge plus MARK_DELAY. -/
def execStepMarkRise (s : State) : Out :=
  if s.sched.markHigh || !s.powered then .next s
  else
    let s := s.modSched (fun c => { c with markHigh := true, markStuckSeen := false })
    if s.sched.markSource = 1 || s.sched.markSource = 3 then
      .next (applyMarker s (s.time.count + 1 + s.sched.markDelay))
    else .next s

/-- STEP_MARK_FALL (02 R66): the level falls; a pulse of fewer than 50 ns is ignored. -/
def execStepMarkFall (highNs : Nat) (s : State) : Out :=
  if highNs < 50 then .next s else .next (s.modSched (fun c => { c with markHigh := false, markStuckSeen := false }))

/-- MARK_STUCK (02 R66): the level stays high for more than 2 µs, counted once per episode. -/
def execMarkStuck (s : State) : Out :=
  if s.sched.markHigh && !s.sched.markStuckSeen then
    .next (s.modSched (fun c => { c with markStuck := sat32 c.markStuck 1, markStuckSeen := true }))
  else .next s

/-- MARKER_RECEIVED (02 R66): applied and forwarded unless it is a repeat. -/
def execMarkerReceived (port : Slice) (k : Nat) (s : State) : Out :=
  match landedNeighbour s port k 4 with
  | none => .next s
  | some c =>
    .next (takeMarker (dropLanded s port k) (leNat (c.bytes.take 8)) (leNat ((c.bytes.drop 8).take 2)))

/-- MARK_SEND (02 R66): a marker message injected here; its number is bits [15:0] of the target. -/
def wMarkSend (r : Req) (s : State) : Nat × State :=
  let v := reqNat r
  (0, takeMarker s v (v % 65536))

/-- MARK_SEND: OD 3202.07. -/
def execMarkSend (r : Req) (s : State) : Out := .next (serveWrite s r 0x3202 7 wMarkSend)

/-- MARK_SOURCE (02 R70). -/
def wMarkSource (r : Req) (s : State) : Nat × State :=
  let v := reqNat r
  accept (natRange v 0 3) s (s.modSched (fun c => { c with markSource := v }))

/-- MARK_DELAY (02 R70). -/
def wMarkDelay (r : Req) (s : State) : Nat × State :=
  let v := reqNat r
  accept (natRange v 1 1023) s (s.modSched (fun c => { c with markDelay := v }))

end Sys2Proof.Machine
end

