-- ==== Sys2Proof/Machine/Manage.lean ====
section
/-! DEFINITION. Machine/Manage.lean: Shupo sessions, the rack chain, addressing and the lifecycle commands (17). A command
whose condition the state does not meet does not come about. -/

namespace Sys2Proof.Machine

/-! ### Sessions (17 R506-R510) -/

/-- A Shupo frame counted in FRAMES_RECEIVED. -/
def frameIn (s : State) : State := s.modDict (fun d => { d with framesReceived := sat64 d.framesReceived 1 })

/-- A Shupo frame discarded (17 R507). -/
def frameBad (s : State) : State := s.modDict (fun d => { d with framesDiscarded := sat64 d.framesDiscarded 1 })

/-- The sessions that are open (17 R507): at most 16. -/
def openCount (d : DictSt) : Nat := (d.sessions.filter (fun x => x.open_)).length

/-- A session by its number. -/
def sessionNum (d : DictSt) (n : Nat) : Option Session := d.sessions.find? (fun x => x.num == n)

/-- A session and its per-session entries end (17 R508). -/
def endSession (s : State) (n : Nat) : State :=
  s.modDict (fun d => { d with sessions := d.sessions.filter (fun x => x.num != n) })

/-- SESSION_REFUSED (17 R516): a handshake has failed. -/
def refuse (s : State) (data : Nat) : State :=
  raiseMod (s.modDict (fun d => { d with handshakesFailed := sat64 d.handshakesFailed 1 })) .sessionRefused (names [data])

/-- A REFUSE sent (17 R507). -/
def sendRefuse (s : State) (st : Nat) : State := refuse (s.modDict (fun d => { d with refused := some st })) st

/-- A number for a session that no session has, from a random one (17 R506: not zero). -/
def freshSession (d : DictSt) (x : Nat) : Nat :=
  let tries := (List.range (d.sessions.length + 1)).map (fun i => 1 + (x + i) % (2 ^ 32 - 1))
  (tries.find? (fun n => (sessionNum d n).isNone)).getD 1

/-- SHUPO_HELLO (17 R506): CHALLENGE, or REFUSE when 16 sessions are open. -/
def execShupoHello (_port : Fin 2) (clientKey : List Byte) (clientEph : List Byte) (clientNonce : List Byte) (s : State) : Out :=
  if !s.served then .next s
  else
    let s := frameIn s
    if 16 ≤ openCount s.dict then .next (sendRefuse s stNoResource)
    else
      let (eph, nonce, x) := Config.challenge s.free
      let n := freshSession s.dict x
      let t := clientKey ++ clientEph ++ clientNonce ++ eph ++ nonce ++ (leBytes 4 n).reverse
      let y : Session := { num := n, key := clientKey, transcript := t, keys := Config.sessionKeys s.free t }
      .next ({ s with free := s.free + 1 }.modDict (fun d => { d with sessions := d.sessions ++ [y] }))

/-- The class that the guard tables give a client key (16 R481, 17 R506). -/
def keyClass (g : Guard) (key : List Byte) : Access := ((g.keys.find? (fun k => k.1 == key)).map (fun k => k.2)).getD .observer

/-- PROOF (17 R506): the client's signature opens the session. -/
def execProof (session : Nat) (signature : List Byte) (s : State) : Out :=
  if !s.served then .next s
  else
    let s := frameIn s
    match sessionNum s.dict session with
    | none => .next (frameBad s)
    | some x =>
      if x.open_ then .next (frameBad s)
      else if !Config.ed25519 x.key (x.transcript ++ [1#8]) signature then .next (sendRefuse (endSession s session) stSignature)
      else if 16 ≤ openCount s.dict then .next (sendRefuse (endSession s session) stNoResource)
      else .next (s.modDict (fun d => { d with sessions := d.sessions.map (fun y =>
        if y.num = session then { y with open_ := true, cls := keyClass s.guard y.key } else y) }))

/-- PROOF_TIMEOUT (17 R506, R516). -/
def execProofTimeout (session : Nat) (s : State) : Out :=
  match sessionNum s.dict session with
  | none => .next s
  | some x => if x.open_ then .next s else .next (refuse (endSession s session) 0)

/-- CLOSE (17 R508). -/
def execClose (session : Nat) (tagOk : Bool) (s : State) : Out :=
  if !s.served then .next s
  else
    let s := frameIn s
    match sessionNum s.dict session with
    | none => .next (frameBad s)
    | some x => if x.open_ && tagOk then .next (endSession s session) else .next (frameBad s)

/-- SESSION_TIMEOUT (17 R508): 60 s without a valid frame. -/
def execSessionTimeout (session : Nat) (s : State) : Out :=
  match sessionNum s.dict session with
  | none => .next s
  | some x => if x.open_ then .next (endSession s session) else .next s

/-- The entries in the volatile log that a subscription selects (17 R510). -/
def selected (v : RecoverSt) (mask start : Nat) : List LogEntry :=
  v.log.filter (fun e => start ≤ e.seq && bit mask (classCode e.record.cls).val)

/-- SUBSCRIBE (17 R510): delivery begins at once with what the log holds, up to 64 entries a frame. On the chain, which
cannot subscribe, the status is a free value. -/
def subscribeOp (r : Req) (s : State) : Nat × State :=
  let (v, s1) := draw s
  if r.via == .chain then (1 + v % 65535, s1)
  else if r.value.length != 9 then (stLength, s)
  else
    let mask := beNat (r.value.take 1)
    let start := beNat (r.value.drop 1)
    if 16 ≤ mask then (stReserved, s)
    else
      let n := (selected s.recov mask start).length
      (0, s.modSession r (fun x => { x with
        subMask := mask, subNext := if mask = 0 then start else max start s.recov.logCount, evSeq := x.evSeq + (n + 63) / 64 }))

/-- SUBSCRIBE. -/
def execSubscribe (r : Req) (s : State) : Out :=
  if !s.served || (r.via == .chain && s.dict.chainState = 0) then .next s
  else .next (serveOp s r (fun _ s => subscribeOp r s))

/-! ### The rack chain (17 R501-R504) -/

/-- A frame sent on with HOPS incremented. -/
def forwardChain (s : State) (f : ChainFrame) : State :=
  s.modDict (fun d => { d with chainSent := some { f with hops := f.hops + 1 } })

/-- A module in AWAIT_ADDRESS that holds an identifier goes on to LINK_UP (17 R498). -/
def addressed (s : State) : State := if s.life.st == .awaitAddress then setLife s .linkUp else s

/-- What a frame makes the module do, and the frame that it sends on (17 R504). -/
def processChain (s : State) (f : ChainFrame) : State × ChainFrame :=
  let n := beNat f.body
  match f.ctype with
  | 1 =>
    if s.dict.nodeId = 0xFFFF && f.body.length = 2 && 1 ≤ n && n ≤ 0xFFFE then
      let s := s.modDict (fun d => { d with nodeId := n })
      (addressed (raiseMod s .addressAssigned (names [n])), { f with src := n, body := (leBytes 2 (n + 1)).reverse })
    else (s, f)
  | 2 => (s.modDict (fun d => { d with nodeId := 0xFFFF }), f)
  | _ => (s, f)

/-- A frame that arrives on CHAIN_IN± (17 R502): through the bypass while it is closed; discarded; consumed; or processed
and forwarded. The symbols of a frame end a loss of input. -/
def chainArrives (s : State) (f : ChainFrame) (crcOk : Bool) : State :=
  if s.dict.chainState = 0 then s
  else
    let s := s.modDict (fun d => { d with chainState := 1 })
    if !crcOk || f.ctype = 0 || 3 < f.ctype || f.hops = 255 then
      s.modDict (fun d => { d with chainDiscarded := sat64 d.chainDiscarded 1 })
    else
      let s := s.modDict (fun d => { d with chainFrames := sat64 d.chainFrames 1 })
      if f.dest = 0xFFFF then
        let (s, g) := processChain s f
        forwardChain s g
      else if f.dest = s.dict.nodeId then (processChain s f).1
      else forwardChain s f

/-- CHAIN_FRAME (17 R502). -/
def execChainFrame (f : ChainFrame) (crcOk : Bool) (s : State) : Out := .next (chainArrives s f crcOk)

/-- ASSIGN (17 R504). -/
def execAssign (f : ChainFrame) (s : State) : Out := .next (if f.ctype = 1 then chainArrives s f true else s)

/-- CLEAR_ADDRESS (17 R504): the lifecycle state does not change. -/
def execClearAddress (f : ChainFrame) (s : State) : Out := .next (if f.ctype = 2 then chainArrives s f true else s)

/-- CHAIN_INPUT_LOST (17 R502): raised once. -/
def execChainInputLost (s : State) : Out :=
  .next (if s.dict.chainState = 1 then raiseMod (s.modDict (fun d => { d with chainState := 2 })) .chainInputLost 0 else s)

/-- CHAIN_BYPASS_OPEN (17 R502): the chain interface has started. -/
def execChainBypassOpen (s : State) : Out :=
  .next (if s.powered && s.dict.chainState = 0 then s.modDict (fun d => { d with chainState := 1 }) else s)

/-! ### Addressing (17 R511, R512) -/

/-- NODE_ID: only while the module holds none. -/
def wNodeId (r : Req) (s : State) : Nat × State :=
  let n := reqNat r
  let st := natRange n 1 0xFFFE
  accept (if st != 0 then st else if s.dict.nodeId != 0xFFFF then stBusy else 0) s
    (addressed (s.modDict (fun d => { d with nodeId := n })))

/-- NODE_ID_WRITE: OD 1100.01. -/
def execNodeIdWrite (r : Req) (s : State) : Out := .next (serveWrite s r 0x1100 1 wNodeId)

/-- The status of an IP_CONFIG value (17 R512): the mode and the zero bytes, the prefix, then the unused bytes of an IPv4
value. -/
def ipStatus (v : List Byte) : Nat :=
  let mode := leNat (sliceBytes v 0 1)
  if 3 < mode || !allZero (sliceBytes v 2 2) || !allZero (sliceBytes v 36 4) then stReserved
  else if (if mode ≤ 1 then 32 else 128) < leNat (sliceBytes v 1 1) then stAbove
  else if mode = 1 && (!allZero (sliceBytes v 4 12) || !allZero (sliceBytes v 20 12)) then stInconsistent
  else 0

/-- IP_CONFIG: in effect 1 s after its reply. -/
def wIpConfig (port : Fin 2) (r : Req) (s : State) : Nat × State :=
  accept (ipStatus r.value) s (s.modDict (fun d => { d with ipNext := vset d.ipNext port (some r.value) }))

/-- IP_CONFIG_WRITE: OD 1102.00 and 1102.01. -/
def execIpConfigWrite (port : Fin 2) (r : Req) (s : State) : Out := .next (serveWrite s r 0x1102 port.val (wIpConfig port))

/-- IP_CONFIG_APPLY (17 R512): sessions stay open. -/
def execIpConfigApply (port : Fin 2) (s : State) : Out :=
  .next (match vget s.dict.ipNext port with
    | none => s
    | some v => s.modDict (fun d => { d with ipConfig := vset d.ipConfig port v, ipNext := vset d.ipNext port none }))

/-! ### Commands (17 R499, R500) -/

/-- The state with the lifecycle changed. -/
def State.modLife (s : State) (f : LifeSt → LifeSt) : State := { s with life := f s.life }

/-- The lowest class of a command (17 R499). -/
def commandClass (code : Nat) : Access :=
  match code with
  | 1 => .scheduler
  | 5 => .service
  | _ => .operator

/-- Whether a state lets a command in (17 R499). -/
def commandState (l : Life) (code : Nat) : Bool :=
  match code with
  | 1 => l == .ready
  | 2 | 3 => l == .running || l == .recovering || l == .paused
  | 4 => l == .paused
  | 5 => l == .awaitAddress || l == .linkUp || l == .joined || l == .ready || l == .paused
  | _ => true

/-- Whether a session may give a command (17 R499, R503): the chain also ENTER_SERVICE in AWAIT_ADDRESS. -/
def commandAllowed (s : State) (r : Req) (code : Nat) : Bool :=
  match s.session r with
  | none => false
  | some x => accessRank (commandClass code) ≤ accessRank (classOf s r x)
      || (r.via == .chain && code = 5 && s.life.st == .awaitAddress)

/-- A command accepted: LAST_COMMAND, and COMMAND_STATUS as it stands. -/
def noteCommand (s : State) (code st : Nat) : State := s.modLife (fun l => { l with lastCommand := code, commandStatus := st })

/-- Whether RUNNING has nothing in progress that a stop or pause would wait for. -/
def nothingRuns (s : State) : Bool := s.life.st == .running && !s.run.active && s.run.ended.isEmpty && !s.run.aRunning

/-- START (17 R499): the first step begins. -/
def doStart (s : State) : State := runStep (changeLife s .running)

/-- PAUSE (01 R36, 17 R499): at once where PAUSED or where nothing runs, else held. -/
def doPause (s : State) : Nat × State :=
  if s.life.st == .paused then (0, s)
  else if nothingRuns s then (0, enterPaused s)
  else (stPending, s.modLife (fun l => { l with held := some 2 }))

/-- STOP (01 R35, 17 R499): at once where no pass is streaming before the gate outcome is known, else held. -/
def doStop (s : State) : Nat × State :=
  if s.life.st == .paused then (0, s)
  else
    let s := s.modLife (fun l => { l with held := none })
    if nothingRuns s then (0, enterPaused s)
    else if stopsAtBoundary s && !passIssuing s then (0, stopNow s)
    else (stPending, s.modLife (fun l => { l with held := some 3 }))

/-- RESUME (01 R26, 15 R461, 17 R499): step 6 after ROLLBACK_LOOP, else the step from F; after HALT the skips start anew. -/
def doResume (s : State) : State :=
  if s.recov.loopHeld then beginStep6 (s.modRecov (fun v => { v with loopCount := 0 }))
  else
    let s := if s.run.halted then s.modRun (fun r => { r with skips := 0, halted := false }) else s
    spareBegins (runStep (changeLife s .running))

/-- ENTER_SERVICE (17 R499, 03 R89, 10 R288): the plan and the job are unloaded; what is due takes effect. -/
def doService (s : State) : State := rebuildRoutes (applyRepairs (applyColander (changeLife (unloadAll s) .service)))

/-- RESET (17 R499, R500): a pending command is discarded; the reset follows 100 ms after the reply. -/
def doReset (s : State) : State := s.modLife (fun l => { l with held := none, resetDue := true })

/-- The status with which a command is rejected, or 0 (17 R499, R500, 15 R466). -/
def commandStatus (s : State) (r : Req) (code : Nat) : Nat :=
  if code = 0 || 6 < code then stReserved
  else if !commandAllowed s r code then stClass
  else if !commandState s.life.st code || (code = 4 && s.recov.lost) then stWrongState
  else if (code = 1 || code = 4) && !s.commit.loaded then stInconsistent
  else if code != 6 && (s.life.resetDue || (s.life.held.isSome && !(s.life.held = some 2 && code = 3)
      && !(s.life.held = some 3 && code = 2))) then stBusy
  else 0

/-- COMMAND (17 R499, R500): OD 1200.02. -/
def wCommand (r : Req) (s : State) : Nat × State :=
  let code := reqNat r
  match commandStatus s r code with
  | 0 =>
    if code = 2 && s.life.held = some 3 then (0, s)
    else
      let (st, t) := match code with
        | 1 => (0, doStart s)
        | 2 => doPause s
        | 3 => doStop s
        | 4 => (0, doResume s)
        | 5 => (0, doService s)
        | _ => (stPending, doReset s)
      (st, noteCommand t code st)
  | st => (st, s)

/-- A command row: the write of its code to OD 1200.02. -/
def command (code : Nat) (r : Req) (s : State) : State := if reqNat r = code then serveWrite s r 0x1200 2 wCommand else s

/-- COMMAND_START. -/
def execCommandStart (r : Req) (s : State) : Out := .next (command 1 r s)
/-- COMMAND_PAUSE. -/
def execCommandPause (r : Req) (s : State) : Out := .next (command 2 r s)
/-- COMMAND_STOP. -/
def execCommandStop (r : Req) (s : State) : Out := .next (command 3 r s)
/-- COMMAND_RESUME. -/
def execCommandResume (r : Req) (s : State) : Out := .next (command 4 r s)
/-- ENTER_SERVICE. -/
def execEnterService (r : Req) (s : State) : Out := .next (command 5 r s)
/-- COMMAND_RESET. -/
def execCommandReset (r : Req) (s : State) : Out := .next (command 6 r s)

/-! ### Entries without a row of their own (17 R495) -/

/-- An entry kept for the session, within a range. -/
def wKept (lim : Nat) (put : Nat → Session → Session) (r : Req) (s : State) : Nat × State :=
  accept (if lim < reqNat r then stAbove else 0) s (s.modSession r (put (reqNat r)))

/-- SPARES_LOW_LEVEL: OD 2000.09. -/
def wSparesLow (r : Req) (s : State) : Nat × State :=
  accept (natRange (reqNat r) 0 4) s { s with col := { s.col with sparesLowLevel := reqNat r } }

/-- CE_RETIRE_LIMIT: OD 5100.01, from the next window (06 R182). -/
def wCeRetire (r : Req) (s : State) : Nat × State :=
  accept (natRange (reqNat r) 8 4096) s { s with ceLimitNext := reqNat r }

/-- The own checks and the effect of the writable entries of 1000 to 2FFF. -/
def write12 (index sub : Nat) : Req → State → Nat × State :=
  match index, sub with
  | 0x1100, _ => wNodeId
  | 0x1102, _ => wIpConfig (Fin.ofNat 2 sub)
  | 0x1200, _ => wCommand
  | 0x2000, _ => wSparesLow
  | 0x2005, _ => wKept 8191 (fun n x => { x with journalIndex := n })
  | 0x2006, _ => wHoleRequest
  | 0x2100, 1 => wPlanOffset
  | 0x2100, 2 => wPlanData
  | 0x2100, _ => wPlanCommand
  | 0x2101, 1 => wJobSeed
  | 0x2101, _ => wJobStart
  | 0x2102, 1 => wJobAddress
  | _, _ => wJobData

/-- Those of 3000 to 4FFF. -/
def write34 (index sub : Nat) : Req → State → Nat × State :=
  match index, sub with
  | 0x3000, 1 => wBaseCap
  | 0x3000, _ => wMaxPoint
  | 0x3001, _ => wCapProfile (Fin.ofNat 16 sub)
  | 0x3100, 1 => wThrottleTemp
  | 0x3100, _ => wRestoreLimit
  | 0x3200, 1 => wBeatSource
  | 0x3200, 2 => wBeatLinkPort
  | 0x3200, _ => wCbcLoad
  | 0x3202, 1 => wMarkSource
  | 0x3202, 2 => wMarkDelay
  | 0x3202, _ => wMarkSend
  | 0x3210, _ => wSchedEntry (Fin.ofNat 64 sub)
  | 0x4003, _ => wPortEnable (Fin.ofNat 32 sub)
  | 0x4011, _ => wCartridgePrepare (Fin.ofNat 16 sub)
  | 0x4012, _ => wBerWarn
  | 0x4100, _ => wTorus sub
  | _, _ => wCoordConfirm

/-- Those of 5000 to 8FFF. -/
def write58 (index sub : Nat) : Req → State → Nat × State :=
  match index, sub with
  | 0x5000, _ => wCeRowLimit
  | 0x5010, 0x20 => wApplyStep
  | 0x5010, _ => wOptimizer sub
  | 0x5011, _ => wClassRange (Fin.ofNat 64 sub)
  | 0x5100, _ => wCeRetire
  | 0x5107, 1 => wKept 63 (fun n x => { x with slotPid := n })
  | 0x5107, _ => wKept 4095 (fun n x => { x with slotIndex := n })
  | 0x6000, 1 => wQuietThreshold
  | 0x6000, _ => wQuietSteps
  | 0x6002, _ => wKept 1023 (fun n x => { x with watchIndex := n })
  | 0x6100, 1 => wClipNorm
  | 0x6100, _ => wSkipLimit
  | 0x6101, 1 => wOrdered
  | 0x6101, _ => wCheckDivisor
  | 0x6102, 1 => wStallLimit
  | 0x6102, _ => wStepLimit
  | 0x6103, _ => wKept 4095 (fun n x => { x with bucketIndex := n })
  | 0x6105, _ => wReduceEpoch
  | 0x7000, 3 => wKept (2 ^ 64) (fun n x => { x with logIndex := n })
  | 0x7000, _ => wKept (2 ^ 64) (fun n x => { x with plogIndex := n })
  | 0x7001, _ => wAlertAck
  | 0x7011, _ => wRollbackLimit
  | 0x8002, _ => wNonce
  | 0x8004, 1 => wUpdateOffset
  | 0x8004, 2 => wUpdateData
  | 0x8004, _ => wUpdateCommand
  | _, _ => wOwnerKey

/-- DICT_WRITE (17 R495): a WRITE operation on any entry. The checks of R495 stand before the entry's own, so only a
writable entry reaches them; what a service write of 9000-9FFF does is the manufacturer's (R493). -/
def execDictWrite (index : Nat) (sub : Nat) (r : Req) (s : State) : Out :=
  .next (serveWrite s r index sub
    (if index < 0x3000 then write12 index sub else if index < 0x5000 then write34 index sub
     else if index < 0x9000 then write58 index sub else fun _ s => (0, s)))

end Sys2Proof.Machine
end

