-- ==== Sys2Proof/Machine/Dispatch.lean ====
section
/-! DEFINITION. Machine/Dispatch.lean: one arm for each command, each one call of its meaning. -/

namespace Sys2Proof.Machine

def exec (i : Instr) (s : State) : Host.Outcome State Fault Refusal :=
  match i with
  | .syncInRise ps sinceBeat => Sys2Proof.Machine.execSyncInRise ps sinceBeat s
  | .syncInFall highNs => Sys2Proof.Machine.execSyncInFall highNs s
  | .late => Sys2Proof.Machine.execLate s
  | .wide => Sys2Proof.Machine.execWide s
  | .stuck => Sys2Proof.Machine.execStuck s
  | .trainRestart => Sys2Proof.Machine.execTrainRestart s
  | .oscillatorBeat => Sys2Proof.Machine.execOscillatorBeat s
  | .holdoverEntry => Sys2Proof.Machine.execHoldoverEntry s
  | .lockingEntry => Sys2Proof.Machine.execLockingEntry s
  | .slewingEntry edgeOffset => Sys2Proof.Machine.execSlewingEntry edgeOffset s
  | .slewEnd => Sys2Proof.Machine.execSlewEnd s
  | .holdoverLong => Sys2Proof.Machine.execHoldoverLong s
  | .stampReceived port k => Sys2Proof.Machine.execStampReceived port k s
  | .beatSymbolReceived port ps sinceBeat => Sys2Proof.Machine.execBeatSymbolReceived port ps sinceBeat s
  | .cbcLoad r => Sys2Proof.Machine.execCbcLoad r s
  | .beatSourceWrite r => Sys2Proof.Machine.execBeatSourceWrite r s
  | .beatLinkPortWrite r => Sys2Proof.Machine.execBeatLinkPortWrite r s
  | .schedEntryWrite ix r => Sys2Proof.Machine.execSchedEntryWrite ix r s
  | .schedEntryFire ix => Sys2Proof.Machine.execSchedEntryFire ix s
  | .windowClose ix => Sys2Proof.Machine.execWindowClose ix s
  | .stepMarkRise => Sys2Proof.Machine.execStepMarkRise s
  | .markStuck => Sys2Proof.Machine.execMarkStuck s
  | .markerReceived port k => Sys2Proof.Machine.execMarkerReceived port k s
  | .markSend r => Sys2Proof.Machine.execMarkSend r s
  | .gateEvaluate => Sys2Proof.Machine.execGateEvaluate s
  | .updateStart => Sys2Proof.Machine.execUpdateStart s
  | .ueGComplete sl => Sys2Proof.Machine.execUeGComplete sl s
  | .stepFlip => Sys2Proof.Machine.execStepFlip s
  | .agReceived port k => Sys2Proof.Machine.execAgReceived port k s
  | .buddyReceived port k => Sys2Proof.Machine.execBuddyReceived port k s
  | .buddyCopyComplete => Sys2Proof.Machine.execBuddyCopyComplete s
  | .buddyAck port k => Sys2Proof.Machine.execBuddyAck port k s
  | .readyTaskStart b => Sys2Proof.Machine.execReadyTaskStart b s
  | .selfTestDone t => Sys2Proof.Machine.execSelfTestDone t s
  | .holeRequest r => Sys2Proof.Machine.execHoleRequest r s
  | .passIssue p => Sys2Proof.Machine.execPassIssue p s
  | .passFlush p => Sys2Proof.Machine.execPassFlush p s
  | .stationaryLoadStart p g errs => Sys2Proof.Machine.execStationaryLoadStart p g errs s
  | .passIssueBegin p g errs accCorrected => Sys2Proof.Machine.execPassIssueBegin p g errs accCorrected s
  | .passBoundary p g skipped => Sys2Proof.Machine.execPassBoundary p g skipped s
  | .passDrainEnd p g => Sys2Proof.Machine.execPassDrainEnd p g s
  | .passEmitEnd p g => Sys2Proof.Machine.execPassEmitEnd p g s
  | .griddleFault p g cause col => Sys2Proof.Machine.execGriddleFault p g cause col s
  | .memop p => Sys2Proof.Machine.execMemop p s
  | .memopDone p k => Sys2Proof.Machine.execMemopDone p k s
  | .slotSet p => Sys2Proof.Machine.execSlotSet p s
  | .slotReset p => Sys2Proof.Machine.execSlotReset p s
  | .slotResetAll p => Sys2Proof.Machine.execSlotResetAll p s
  | .slotComplete p => Sys2Proof.Machine.execSlotComplete p s
  | .slotRelease p => Sys2Proof.Machine.execSlotRelease p s
  | .slotDrainDone p slot => Sys2Proof.Machine.execSlotDrainDone p slot s
  | .shelfOpen p steward => Sys2Proof.Machine.execShelfOpen p steward s
  | .shelfClose p steward => Sys2Proof.Machine.execShelfClose p steward s
  | .shelfWakeDone p shelf => Sys2Proof.Machine.execShelfWakeDone p shelf s
  | .shelfCloseDone p shelf => Sys2Proof.Machine.execShelfCloseDone p shelf s
  | .slotLoad p errs => Sys2Proof.Machine.execSlotLoad p errs s
  | .slotStore p => Sys2Proof.Machine.execSlotStore p s
  | .correctionWriteback p granule => Sys2Proof.Machine.execCorrectionWriteback p granule s
  | .scrubAccess node word granule e passDone => Sys2Proof.Machine.execScrubAccess node word granule e passDone s
  | .scrubForce p bank => Sys2Proof.Machine.execScrubForce p bank s
  | .ceWindowEnd => Sys2Proof.Machine.execCeWindowEnd s
  | .ladleArm p => Sys2Proof.Machine.execLadleArm p s
  | .ladleStop p => Sys2Proof.Machine.execLadleStop p s
  | .ladleStopDone p l => Sys2Proof.Machine.execLadleStopDone p l s
  | .ladleBlockStart p l => Sys2Proof.Machine.execLadleBlockStart p l s
  | .ladlePortionIssue p l => Sys2Proof.Machine.execLadlePortionIssue p l s
  | .ladlePortionComplete p l tag cycles => Sys2Proof.Machine.execLadlePortionComplete p l tag cycles s
  | .memTimeout p l tag => Sys2Proof.Machine.execMemTimeout p l tag s
  | .ladleFault p l cause => Sys2Proof.Machine.execLadleFault p l cause s
  | .taskStart p task pc arg => Sys2Proof.Machine.execTaskStart p task pc arg s
  | .haltAll p => Sys2Proof.Machine.execHaltAll p s
  | .clearLoss p => Sys2Proof.Machine.execClearLoss p s
  | .sliceExpired p => Sys2Proof.Machine.execSliceExpired p s
  | .taskWake p t frac => Sys2Proof.Machine.execTaskWake p t frac s
  | .waitSlotFull p => Sys2Proof.Machine.execWaitSlotFull p s
  | .waitSlotEmpty p => Sys2Proof.Machine.execWaitSlotEmpty p s
  | .waitCounter p => Sys2Proof.Machine.execWaitCounter p s
  | .waitSignal p => Sys2Proof.Machine.execWaitSignal p s
  | .signalSend p => Sys2Proof.Machine.execSignalSend p s
  | .signalReceived p src => Sys2Proof.Machine.execSignalReceived p src s
  | .remoteComplete p => Sys2Proof.Machine.execRemoteComplete p s
  | .remoteRelease p => Sys2Proof.Machine.execRemoteRelease p s
  | .remoteCompleteReceived p src => Sys2Proof.Machine.execRemoteCompleteReceived p src s
  | .remoteReleaseReceived p src => Sys2Proof.Machine.execRemoteReleaseReceived p src s
  | .loopFor p => Sys2Proof.Machine.execLoopFor p s
  | .loopNext p => Sys2Proof.Machine.execLoopNext p s
  | .jump p => Sys2Proof.Machine.execJump p s
  | .jumpIf p => Sys2Proof.Machine.execJumpIf p s
  | .loadi p => Sys2Proof.Machine.execLoadi p s
  | .addi p => Sys2Proof.Machine.execAddi p s
  | .readreg p => Sys2Proof.Machine.execReadreg p s
  | .spawn p => Sys2Proof.Machine.execSpawn p s
  | .endTask p => Sys2Proof.Machine.execEndTask p s
  | .yieldTask p => Sys2Proof.Machine.execYieldTask p s
  | .timeatAbs p frac => Sys2Proof.Machine.execTimeatAbs p frac s
  | .timeatRel p frac => Sys2Proof.Machine.execTimeatRel p frac s
  | .planEvent p => Sys2Proof.Machine.execPlanEvent p s
  | .whiskRun p => Sys2Proof.Machine.execWhiskRun p s
  | .whiskOpStart p errs => Sys2Proof.Machine.execWhiskOpStart p errs s
  | .whiskOpEnd p => Sys2Proof.Machine.execWhiskOpEnd p s
  | .whiskFault p cause => Sys2Proof.Machine.execWhiskFault p cause s
  | .tapSwitch p => Sys2Proof.Machine.execTapSwitch p s
  | .tapClearIdle p => Sys2Proof.Machine.execTapClearIdle p s
  | .tapClearActive p => Sys2Proof.Machine.execTapClearActive p s
  | .flitHop node out cls vc fails => Sys2Proof.Machine.execFlitHop node out cls vc fails s
  | .routerParity node cobalt => Sys2Proof.Machine.execRouterParity node cobalt s
  | .flitLanding p cls => Sys2Proof.Machine.execFlitLanding p cls s
  | .mergeLanding p => Sys2Proof.Machine.execMergeLanding p s
  | .orderedMerge p => Sys2Proof.Machine.execOrderedMerge p s
  | .cancelReceived p cls => Sys2Proof.Machine.execCancelReceived p cls s
  | .mcastBranchRelease node out => Sys2Proof.Machine.execMcastBranchRelease node out s
  | .mcastLag p l receiver => Sys2Proof.Machine.execMcastLag p l receiver s
  | .meshHold => Sys2Proof.Machine.execMeshHold s
  | .meshRelease => Sys2Proof.Machine.execMeshRelease s
  | .westFullClock => Sys2Proof.Machine.execWestFullClock s
  | .westHalfClock => Sys2Proof.Machine.execWestHalfClock s
  | .eastFullClock => Sys2Proof.Machine.execEastFullClock s
  | .eastHalfClock => Sys2Proof.Machine.execEastHalfClock s
  | .tableWrite node dest entry => Sys2Proof.Machine.execTableWrite node dest entry s
  | .regRead node unit offset => Sys2Proof.Machine.execRegRead node unit offset s
  | .regWrite node unit offset value => Sys2Proof.Machine.execRegWrite node unit offset value s
  | .reply node => Sys2Proof.Machine.execReply node s
  | .eventRecord node => Sys2Proof.Machine.execEventRecord node s
  | .eventsSuppressed => Sys2Proof.Machine.execEventsSuppressed s
  | .stackTempRead sl temp => Sys2Proof.Machine.execStackTempRead sl temp s
  | .ecsRead sl corrected => Sys2Proof.Machine.execEcsRead sl corrected s
  | .stackScrub sl burst e => Sys2Proof.Machine.execStackScrub sl burst e s
  | .stackRowWindowEnd => Sys2Proof.Machine.execStackRowWindowEnd s
  | .stackFailed sl channels => Sys2Proof.Machine.execStackFailed sl channels s
  | .memRead sl errs => Sys2Proof.Machine.execMemRead sl errs s
  | .memWrite sl => Sys2Proof.Machine.execMemWrite sl s
  | .rimWrite sl => Sys2Proof.Machine.execRimWrite sl s
  | .rimAdd sl => Sys2Proof.Machine.execRimAdd sl s
  | .raBlockOp sl block => Sys2Proof.Machine.execRaBlockOp sl block s
  | .raFault sl block => Sys2Proof.Machine.execRaFault sl block s
  | .ueFault sl cause block => Sys2Proof.Machine.execUeFault sl cause block s
  | .optimizerWrite sub r => Sys2Proof.Machine.execOptimizerWrite sub r s
  | .applyStep r => Sys2Proof.Machine.execApplyStep r s
  | .classRangeWrite ix r => Sys2Proof.Machine.execClassRangeWrite ix r s
  | .bucketLaunch sl b => Sys2Proof.Machine.execBucketLaunch sl b s
  | .bucketReduced sl b => Sys2Proof.Machine.execBucketReduced sl b s
  | .rsReceived port k => Sys2Proof.Machine.execRsReceived port k s
  | .linkAdd sl k => Sys2Proof.Machine.execLinkAdd sl k s
  | .linkAdderParity port => Sys2Proof.Machine.execLinkAdderParity port s
  | .checkReceived port k => Sys2Proof.Machine.execCheckReceived port k s
  | .checkCompare sl block => Sys2Proof.Machine.execCheckCompare sl block s
  | .traceReceived port k => Sys2Proof.Machine.execTraceReceived port k s
  | .fuse side => Sys2Proof.Machine.execFuse side s
  | .fusedRecordForm => Sys2Proof.Machine.execFusedRecordForm s
  | .fusedReceived port k => Sys2Proof.Machine.execFusedReceived port k s
  | .watchdogStall point => Sys2Proof.Machine.execWatchdogStall point s
  | .watchdogStep => Sys2Proof.Machine.execWatchdogStep s
  | .clipNormWrite r => Sys2Proof.Machine.execClipNormWrite r s
  | .skipLimitWrite r => Sys2Proof.Machine.execSkipLimitWrite r s
  | .orderedWrite r => Sys2Proof.Machine.execOrderedWrite r s
  | .checkDivisorWrite r => Sys2Proof.Machine.execCheckDivisorWrite r s
  | .reduceEpochWrite r => Sys2Proof.Machine.execReduceEpochWrite r s
  | .linkFrameReceived port lane frame corrected crcOk => Sys2Proof.Machine.execLinkFrameReceived port lane frame corrected crcOk s
  | .nakReceived port lane => Sys2Proof.Machine.execNakReceived port lane s
  | .replayTimeout port lane => Sys2Proof.Machine.execReplayTimeout port lane s
  | .laneLockLost port lane => Sys2Proof.Machine.execLaneLockLost port lane s
  | .laneBerWindow port lane ber => Sys2Proof.Machine.execLaneBerWindow port lane ber s
  | .portFailedTimeout port => Sys2Proof.Machine.execPortFailedTimeout port s
  | .codewordLock port => Sys2Proof.Machine.execCodewordLock port s
  | .trainingDone port rttNs => Sys2Proof.Machine.execTrainingDone port rttNs s
  | .trainingTimeout port => Sys2Proof.Machine.execTrainingTimeout port s
  | .linkHello port k => Sys2Proof.Machine.execLinkHello port k s
  | .helloPeriod port => Sys2Proof.Machine.execHelloPeriod port s
  | .join port k => Sys2Proof.Machine.execJoin port k s
  | .quiesce port k => Sys2Proof.Machine.execQuiesce port k s
  | .last port k => Sys2Proof.Machine.execLast port k s
  | .portEnableWrite port r => Sys2Proof.Machine.execPortEnableWrite port r s
  | .cartridgePrepare bay r => Sys2Proof.Machine.execCartridgePrepare bay r s
  | .cartridgeReady bay => Sys2Proof.Machine.execCartridgeReady bay s
  | .cartridgeInserted bay serial => Sys2Proof.Machine.execCartridgeInserted bay serial s
  | .cartridgeLit bay => Sys2Proof.Machine.execCartridgeLit bay s
  | .cartridgeFailed bay => Sys2Proof.Machine.execCartridgeFailed bay s
  | .cartridgeWear bay bias => Sys2Proof.Machine.execCartridgeWear bay bias s
  | .claimPeriod => Sys2Proof.Machine.execClaimPeriod s
  | .claim port k => Sys2Proof.Machine.execClaim port k s
  | .torusSettingsWrite sub r => Sys2Proof.Machine.execTorusSettingsWrite sub r s
  | .coordConfirm r => Sys2Proof.Machine.execCoordConfirm r s
  | .restore port k => Sys2Proof.Machine.execRestore port k s
  | .droopDetect p => Sys2Proof.Machine.execDroopDetect p s
  | .droopEnd p cycles => Sys2Proof.Machine.execDroopEnd p cycles s
  | .droopWindow p cycles stretched => Sys2Proof.Machine.execDroopWindow p cycles stretched s
  | .budgetEstimate p counts tempC => Sys2Proof.Machine.execBudgetEstimate p counts tempC s
  | .levelRampDone p => Sys2Proof.Machine.execLevelRampDone p s
  | .modulePowerPeriod rimMw vinMin10mV busbarMw => Sys2Proof.Machine.execModulePowerPeriod rimMw vinMin10mV busbarMw s
  | .powerSet p budget limit thermal measured force rsv => Sys2Proof.Machine.execPowerSet p budget limit thermal measured force rsv s
  | .computeOff p => Sys2Proof.Machine.execComputeOff p s
  | .computeOn p => Sys2Proof.Machine.execComputeOn p s
  | .powerCoeff p first coeffs => Sys2Proof.Machine.execPowerCoeff p first coeffs s
  | .checkWindow scope estimate measuredMw => Sys2Proof.Machine.execCheckWindow scope estimate measuredMw s
  | .measuredPeriod p powerMw => Sys2Proof.Machine.execMeasuredPeriod p powerMw s
  | .marginMeasure p mhz => Sys2Proof.Machine.execMarginMeasure p mhz s
  | .thermalDownPeriod temps => Sys2Proof.Machine.execThermalDownPeriod temps s
  | .thermalUpPeriod temps => Sys2Proof.Machine.execThermalUpPeriod temps s
  | .regionTrip x => Sys2Proof.Machine.execRegionTrip x s
  | .heatIsolation p => Sys2Proof.Machine.execHeatIsolation p s
  | .meshHeatEmergency east tempC => Sys2Proof.Machine.execMeshHeatEmergency east tempC s
  | .stackThrottle => Sys2Proof.Machine.execStackThrottle s
  | .baseCapWrite r => Sys2Proof.Machine.execBaseCapWrite r s
  | .capProfileWrite ix r => Sys2Proof.Machine.execCapProfileWrite ix r s
  | .maxPointWrite r => Sys2Proof.Machine.execMaxPointWrite r s
  | .pwrEnAssert vinA10mV vinB10mV => Sys2Proof.Machine.execPwrEnAssert vinA10mV vinB10mV s
  | .softStartDone => Sys2Proof.Machine.execSoftStartDone s
  | .stage2Start => Sys2Proof.Machine.execStage2Start s
  | .pwrEnDeassert => Sys2Proof.Machine.execPwrEnDeassert s
  | .inputLockout => Sys2Proof.Machine.execInputLockout s
  | .lockoutClear => Sys2Proof.Machine.execLockoutClear s
  | .inputPairLost x => Sys2Proof.Machine.execInputPairLost x s
  | .inputPairReturn x => Sys2Proof.Machine.execInputPairReturn x s
  | .coolantRead x => Sys2Proof.Machine.execCoolantRead x s
  | .resetN => Sys2Proof.Machine.execResetN s
  | .moduleReset => Sys2Proof.Machine.execModuleReset s
  | .stewardFault canLog => Sys2Proof.Machine.execStewardFault canLog s
  | .regionShort p => Sys2Proof.Machine.execRegionShort p s
  | .rollback port k => Sys2Proof.Machine.execRollback port k s
  | .state port x => Sys2Proof.Machine.execState port x s
  | .resumeRule => Sys2Proof.Machine.execResumeRule s
  | .rollbackDone => Sys2Proof.Machine.execRollbackDone s
  | .restoreReq port k => Sys2Proof.Machine.execRestoreReq port k s
  | .spareAdopt => Sys2Proof.Machine.execSpareAdopt s
  | .alertAck r => Sys2Proof.Machine.execAlertAck r s
  | .nonce r => Sys2Proof.Machine.execNonce r s
  | .reportReady session => Sys2Proof.Machine.execReportReady session s
  | .updateData r => Sys2Proof.Machine.execUpdateData r s
  | .updateVerify r => Sys2Proof.Machine.execUpdateVerify r s
  | .updateVerifyDone => Sys2Proof.Machine.execUpdateVerifyDone s
  | .updateDiscard r => Sys2Proof.Machine.execUpdateDiscard r s
  | .ownerKey r => Sys2Proof.Machine.execOwnerKey r s
  | .shupoHello port clientKey clientEph clientNonce => Sys2Proof.Machine.execShupoHello port clientKey clientEph clientNonce s
  | .proof session signature => Sys2Proof.Machine.execProof session signature s
  | .proofTimeout session => Sys2Proof.Machine.execProofTimeout session s
  | .close session tagOk => Sys2Proof.Machine.execClose session tagOk s
  | .sessionTimeout session => Sys2Proof.Machine.execSessionTimeout session s
  | .dictWrite index sub r => Sys2Proof.Machine.execDictWrite index sub r s
  | .subscribe r => Sys2Proof.Machine.execSubscribe r s
  | .assign f => Sys2Proof.Machine.execAssign f s
  | .clearAddress f => Sys2Proof.Machine.execClearAddress f s
  | .chainInputLost => Sys2Proof.Machine.execChainInputLost s
  | .chainBypassOpen => Sys2Proof.Machine.execChainBypassOpen s
  | .commandStart r => Sys2Proof.Machine.execCommandStart r s
  | .commandPause r => Sys2Proof.Machine.execCommandPause r s
  | .commandStop r => Sys2Proof.Machine.execCommandStop r s
  | .commandResume r => Sys2Proof.Machine.execCommandResume r s
  | .enterService r => Sys2Proof.Machine.execEnterService r s
  | .commandReset r => Sys2Proof.Machine.execCommandReset r s
  | .nodeIdWrite r => Sys2Proof.Machine.execNodeIdWrite r s
  | .ipConfigWrite port r => Sys2Proof.Machine.execIpConfigWrite port r s
  | .planData r => Sys2Proof.Machine.execPlanData r s
  | .loadPlan r => Sys2Proof.Machine.execLoadPlan r s
  | .loadPlanDone => Sys2Proof.Machine.execLoadPlanDone s
  | .unload r => Sys2Proof.Machine.execUnload r s
  | .loadJob r => Sys2Proof.Machine.execLoadJob r s
  | .loadJobDone => Sys2Proof.Machine.execLoadJobDone s
  | .planDiscard r => Sys2Proof.Machine.execPlanDiscard r s
  | .jobAddressWrite r => Sys2Proof.Machine.execJobAddressWrite r s
  | .jobData r => Sys2Proof.Machine.execJobData r s
  | .cartridgeRemoved bay => Sys2Proof.Machine.execCartridgeRemoved bay s
  | .resetNRelease => Sys2Proof.Machine.execResetNRelease s
  | .stepMarkFall highNs => Sys2Proof.Machine.execStepMarkFall highNs s
  | .taskTableParity p t => Sys2Proof.Machine.execTaskTableParity p t s
  | .chainFrame f crcOk => Sys2Proof.Machine.execChainFrame f crcOk s
  | .ipConfigApply port => Sys2Proof.Machine.execIpConfigApply port s

end Sys2Proof.Machine
end

