-- ==== Sys2Proof/Machine/Step.lean ====
section
/-! DEFINITION. Machine/Step.lean: one step of the block. The command at the front of the queue is taken and run on the
state with the rest of the queue; on an empty queue the block idles. -/

namespace Sys2Proof.Machine

/-- One step (notes/assumptions/1: an empty queue leaves everything as it is). -/
def step (s : State) : Host.Outcome State Fault Refusal :=
  match s.pending with
  | [] => .next s
  | c :: rest => exec c { s with pending := rest }

/-- The state with the command that a table word spells put at the front of the queue. The table gives no row any
bits, so no word spells a command and the state stands (notes/assumptions/2). -/
def State.withFetchWord (s : State) (nbits w : Nat) : State :=
  match decodeTableWord nbits w with
  | some c => { s with pending := c :: s.pending }
  | none => s

end Sys2Proof.Machine
end

