-- ==== Sys2Proof/Machine/OdRead.lean ====
section
/-! DEFINITION. Machine/OdRead.lean: what a READ operation of the dictionary answers (17 R490-R497, R509) and the value of
every entry that can be read (02 R70, 03 R95, R96, 06 R186, 10 R322, 11 R358, R360, 12 R399, 13 R413, R415, 14 R445, 15
R469, 16 R489, 17 R511, R514). A read changes nothing, so no command of the table carries one. An entry whose write takes
effect later reads as last written (notes/assumptions/54). -/

namespace Sys2Proof.Machine

/-! ### Values -/

/-- A number big-endian in n bytes (17 R490). -/
def beBytes (n v : Nat) : List Byte := (leBytes n v).reverse

/-- A two's complement number in 64 bits. -/
def int64 (i : Int) : Nat := (i % 2 ^ 64).toNat

/-- The bytes of a text (17 R490: UTF-8, here of ASCII letters). -/
def textBytes (t : String) : List Byte := t.toList.map (fun c => BitVec.ofNat 8 c.toNat)

/-- 64-bit words in their memory order (00 R15). -/
def wordBytes (ws : List Nat) : List Byte := ws.flatMap (fun w => leBytes 8 w)

/-- Bytes cut or filled with zeros to a length. -/
def padTo (n : Nat) (bs : List Byte) : List Byte := (bs ++ List.replicate n 0).take n

/-- A value that the spec names none for (no report asked for, no key enrolled). -/
def unstatedBytes (key n : Nat) : List Byte := (List.range n).map (fun i => BitVec.ofNat 8 (Config.unstated (key * 4096 + i)))

/-- A sum over all skillets. -/
def sumSk (s : State) (f : Skillet → Nat) : Nat := (allPids.map (fun p => f (s.sk p))).sum

/-- A sum over all griddles. -/
def sumGr (s : State) (f : Griddle → Nat) : Nat := sumSk s (fun k => (k.griddles.toList.map f).sum)

/-- A sum over all ladles. -/
def sumLd (s : State) (f : Ladle → Nat) : Nat := sumSk s (fun k => (k.ladles.toList.map f).sum)

/-- A sum over all routers. -/
def sumRt (s : State) (f : Router → Nat) : Nat := (s.mesh.routers.toList.map f).sum

/-- A sum over all ports. -/
def sumPorts (s : State) (f : Port → Nat) : Nat := (s.links.ports.toList.map f).sum

/-- Words of a register block: the values at `n` offsets from `off`, eight apart. -/
def regWords (rd : Nat → Option Nat) (off n : Nat) : List Nat := (List.range n).map (fun i => (rd (off + 8 * i)).getD 0)

/-! ### The colander (03 R95, R96) -/

/-- What reads show of the colander: during RECOVERING what was in force before (03 R96). -/
def shownEff (s : State) : Effective := s.col.shown.getD s.col.eff

/-- LOGICAL of a skillet (03 R96). -/
def logicalField (e : Effective) (p : Pid) : Nat :=
  if e.isHole p then 0xFF else ((e.map.toList.findIdx? (fun q => q == p)).getD 0xFE)

/-- ROLE (03 R96): mapped, spare, a hole with transit on, a hole whose supply is isolated. -/
def roleField (s : State) (e : Effective) (p : Pid) : Nat :=
  if !e.isHole p then (if e.mapped p then 0 else 1)
  else if (vget e.sk p).hole = some 4 || (s.col.shown.isNone && vget s.col.isolated p) then 3 else 2

/-- COLS of a griddle (03 R96): a hole with reason 0x02 shows 0xF where no further column could be listed (R80). -/
def colsField (k : SkCol) (g : Fin 4) : Nat :=
  let n := (vget k.cols g).length
  if 8 < n || (n = 8 && k.hole = some 2) then 0xF else n

/-- SKILLET_STATE (03 R96). -/
def skilletState (s : State) (p : Pid) : Nat :=
  let e := shownEff s
  let k := vget e.sk p
  pack ([(logicalField e p, 56), (roleField s e p, 54), (k.hole.getD 0, 48), (k.fmax, 40),
    (if k.hole = some 3 then 17 else min k.banks.length 16, 32)]
    ++ (List.finRange 4).map (fun g => (colsField k g, 4 * g.val)))

/-- A map of bits as bytes, bit b in byte b div 8. -/
def bitMap (n : Nat) (f : Nat → Bool) : List Byte :=
  (List.range (n / 8)).map (fun i => BitVec.ofNat 8 ((List.range 8).foldl (fun a j => a + b2n (f (8 * i + j)) * 2 ^ j) 0))

/-- A record as its 16 bytes (03 R83). -/
def ColRec.bytes (r : ColRec) : List Byte := leBytes 16 (r.upper * 65536 + r.check.toNat)

/-- Numbers of the colander. -/
def odNat2 (s : State) (x : Session) (index sub : Nat) : Nat :=
  let e := shownEff s
  match index with
  | 0x2000 => [0, e.healthy, e.spares.length, 64 - e.healthy, 56, 248, 15, s.col.journal.length, 8192, s.col.sparesLowLevel].getD sub 0
  | 0x2001 => ((e.map.toList[sub]?).map (fun p => p.val)).getD 0
  | 0x2002 => skilletState s (Fin.ofNat 64 sub)
  | 0x2005 => x.journalIndex
  | 0x2006 => s.col.holeRequest
  | 0x2100 => if sub = 1 then x.planOffset else if sub = 4 then s.dict.planStatus else b2n s.dict.plan.isSome
  | 0x2101 => if sub = 1 then s.dict.jobSeed else s.dict.jobStart
  | 0x2102 => if sub = 1 then x.jobAddress else s.dict.jobWritten
  | _ => 0

/-- BLOBs of the colander and of plans. -/
def odBytes2 (s : State) (x : Session) (index sub : Nat) : List Byte :=
  let k := vget (shownEff s).sk (Fin.ofNat 64 sub)
  match index with
  | 0x2003 => bitMap 1024 (fun b => (vget k.cols (Fin.ofNat 4 (b / 256))).contains (b % 256))
  | 0x2004 => bitMap 256 (fun b => k.banks.contains b)
  | 0x2005 => ((s.col.journal[x.journalIndex]?).map ColRec.bytes).getD (List.replicate 16 0)
  | 0x2100 => padTo 64 ((s.dict.plan.map (fun p => p.digest)).getD [])
  | _ => []

/-! ### Power and heat (14 R445), cluster time (02 R70) -/

/-- A power in W of one kept in mW (14 R445). -/
def watts (mw : Nat) : Nat := Config.roundMw mw 1000

/-- Numbers of power and heat, and of cluster time. -/
def odNat3 (s : State) (index sub : Nat) : Nat :=
  let w := s.power
  let t := s.time
  match index with
  | 0x3000 => [0, w.baseCap, w.cap, w.capSource, w.maxPoint, watts w.average, watts w.measured, watts w.rim, watts w.pool,
      b2n w.trust.distrusted, w.floorPeriods].getD sub 0
  | 0x3001 => vget w.profiles (Fin.ofNat 16 sub)
  | 0x3003 => w.recalibrations
  | 0x3100 =>
    let h := hottestOf s allPids
    [0, w.throttleNext, 118, 12, w.restoreLimit, (h.map (fun p => (s.mon p).temp)).getD 0, (h.map (fun p => p.val)).getD 0,
      (allPids.filter (fun p => (s.mon p).throttled)).length].getD sub 0
  | 0x3101 => (s.mon (Fin.ofNat 64 sub)).temp
  | 0x3102 => vget w.rimTemps (Fin.ofNat 4 sub)
  | 0x3103 => if (if sub = 1 then s.mesh.westHalf else s.mesh.eastHalf) then 650 else 1300
  | 0x3104 => if sub = 1 then w.tripsTotal else w.heatOffTotal
  | 0x3200 => [0, t.source, t.linkPort, lockCode t.lock, s.cbc, 0, t.periodEst, int64 t.slewOffset, t.holdoverBeats].getD sub 0
  | 0x3201 => [0, t.glitch, t.early, t.short, t.late, t.wide, t.stuck, t.holdoverEntries].getD sub 0
  | 0x3202 => [0, s.sched.markSource, s.sched.markDelay, s.sched.marksAccepted, s.sched.marksOutside, s.sched.marksDuplicate,
      s.sched.markStuck].getD sub 0
  | 0x3203 => [0, s.sched.boundariesLate, s.sched.boundariesMerged, nextBoundary s].getD sub 0
  | _ => 0

/-- BLOBs of power and of the scheduled entries. -/
def odBytes3 (s : State) (index sub : Nat) : List Byte :=
  match index with
  | 0x3002 => wordBytes (regWords (monReg (s.mon (Fin.ofNat 64 sub))) 0 13)
  | 0x3210 => leBytes 16 (vget s.sched.entries (Fin.ofNat 64 sub)).word
  | _ => []

/-! ### Ports and the torus (12 R399) -/

/-- STATE of a bay (12 R397). -/
def bayCode : BayState → Nat
  | .empty => 0
  | .warming => 1
  | .lit => 2
  | .prepared => 3
  | .failed => 4

/-- The bundle of a sub-index of 4102. -/
def bundleAt (n : Nat) : Bundle := match n with | 0 => .xp | 1 => .xm | 2 => .yp | _ => .ym

/-- NEIGHBOUR (12 R399): the identity prefix, the coordinate of a known peer, the ports in service and zero. -/
def neighbourBytes (s : State) (sub : Nat) : List Byte :=
  let b := bundleAt sub
  let coord := ((serviceports s b).filterMap (fun n => (s.port n).peerCoord)).headD 0
  padTo 32 (vget s.links.torus.identity (Fin.ofNat 4 sub)) ++ leBytes 2 coord ++ leBytes 1 (serviceports s b).length ++ [0]

/-- Numbers of the links. -/
def odNat4 (s : State) (index sub : Nat) : Nat :=
  let t := s.links.torus
  let bay := vget s.links.bays (Fin.ofNat 16 sub)
  match index with
  | 0x4000 => sumPorts s (fun p => b2n (p.st == .inService))
  | 0x4001 => lpStatus s (sliceOf sub)
  | 0x4003 => b2n (s.port (sliceOf sub)).enable
  | 0x4010 => pack [(bayCode bay.st, 28), (bay.wear, 16)]
  | 0x4011 => b2n bay.prepare
  | 0x4012 => t.berWarn.toNat
  | 0x4100 => [0, t.x, t.y, b2n t.double, t.clusterId, b2n t.origin].getD sub 0
  | 0x4101 => if sub = 1 then t.coord else b2n t.discovered
  | 0x4104 => if sub = 1 then sumPorts s (fun p => p.forwarded) else sumPorts s (fun p => p.routeDropped)
  | _ => 0

/-- BLOBs of the links. -/
def odBytes4 (s : State) (index sub : Nat) : List Byte :=
  let p := s.port (sliceOf sub)
  match index with
  | 0x4002 => wordBytes (regWords (lpReg s (sliceOf sub)) 8 16)
  | 0x4004 => (List.range 32).flatMap (fun l => leBytes 4 (Tab.at p.ber l (0 : W32)).toNat)
  | 0x4005 => padTo 52 p.hello
  | 0x4102 => neighbourBytes s sub
  | _ => []

/-! ### The rim memory (10 R322) and the pantry (06 R186) -/

/-- An optimizer entry (10 R322). -/
def optimNat (s : State) (sub : Nat) : Nat :=
  let o := optimPending s
  if sub = 0x20 then s.rim.applyStep
  else if sub = 0x21 then b2n (!s.rim.optimNext.isEmpty)
  else if 0x10 ≤ sub then (if sub < 0x14 then vget o.lrMul (Fin.ofNat 4 (sub - 0x10)) else vget o.wdMul (Fin.ofNat 4 (sub - 0x14))).toNat
  else [0, o.rule, o.lrPeak.toNat, o.warmup, o.decayKind, o.decaySteps, o.lrFloor.toNat, o.beta1.toNat, o.beta2.toNat, o.eps.toNat,
    o.weightDecay.toNat, o.momentum.toNat, b2n o.nesterov, o.gscale.toNat, b2n o.meanByTokens].getD sub 0

/-- A region-table entry (10 R291). -/
def Region.word (r : Region) : Nat := pack [(r.kind, 124), (r.gran, 121), (r.base, 89), (r.size, 64), (r.stripes, 39)]

/-- OWNED_SHARD (10 R322): 0xFFFF while the module holds no coordinate. -/
def ownedShard (s : State) : Nat := if s.links.torus.coord = 0xFFFF then 0xFFFF else s.shard

/-- Numbers of the rim memory and the pantry. A hole's pantry reads as zeros (06 R186). -/
def odNat5 (s : State) (x : Session) (index sub : Nat) : Nat :=
  match index with
  | 0x5000 => [0, 103079215104, 3264175144960, 6000, (allSlices.map (fun n => (s.slice n).mc.ceCorrected)).sum, s.rim.ceRowLimit].getD sub 0
  | 0x5001 => (mcReg (s.slice (sliceOf sub)).mc 0).getD 0
  | 0x5004 => [0, s.stripes, s.ownedStripes, ownedShard s].getD sub 0
  | 0x5005 => s.rim.repairs.length
  | 0x5010 => optimNat s sub
  | 0x5011 => vget (optimPending s).classes (Fin.ofNat 64 sub)
  | 0x5040 => if sub = 2 then s.rim.buddyAcked else s.rim.buddyHeld
  | 0x5100 => [0, s.ceLimitNext, 2 ^ 32, 65536, sumSk s (fun k => k.pantry.ceCorrected), sumSk s (fun k => k.pantry.ueDetected)].getD sub 0
  | 0x5101 => if s.isHole (Fin.ofNat 64 sub) then 0 else (skReg s (Fin.ofNat 64 sub) 5 0 true).getD 0
  | 0x5107 => if sub = 1 then x.slotPid else x.slotIndex
  | _ => 0

/-- A pantry's BLOB of `n` words from `off`; a hole's is zeros. -/
def pantryWords (s : State) (p : Pid) (off n : Nat) : List Byte :=
  wordBytes (if s.isHole p then List.replicate n 0 else regWords (fun o => skReg s p 5 o true) off n)

/-- STATE of a slot (06 R166). -/
def slotCode : SlotState → Nat
  | .empty => 0
  | .filling => 1
  | .full => 2
  | .draining => 3

/-- D0 of a slot (06 R165). -/
def Slot.d0 (x : Slot) : Nat := pack [(x.base, 41), (x.length, 18), (x.producers, 12), (x.consumers, 6)]

/-- D1 of a slot (06 R166). -/
def slotD1 (s : State) (p : Pid) (n : Nat) : Nat :=
  let x := (s.pn p).slot n
  pack [(x.gen, 56), (x.produced, 50), (x.released, 44), (slotWaiters s p n, 32), (slotCode x.st, 0)]

/-- D0 and D1 of a slot at one instant (06 R186). -/
def slotBytes (s : State) (p : Pid) (n : Nat) : List Byte := wordBytes [((s.pn p).slot n).d0, slotD1 s p n]

/-- BLOBs of the rim memory and the pantry. -/
def odBytes5 (s : State) (x : Session) (index sub : Nat) : List Byte :=
  let p : Pid := Fin.ofNat 64 sub
  match index with
  | 0x5002 => wordBytes (regWords (mcReg (s.slice (sliceOf sub)).mc) 8 13)
  | 0x5003 => leBytes 16 (((s.regions[sub]?).map Region.word).getD 0)
  | 0x5020 => wordBytes (regWords (ueReg (s.slice (sliceOf sub)).ue) 0 5)
  | 0x5040 => leBytes 16 (s.commit.step * 2 ^ 64 + b2n s.commit.loaded * 2 + s.commit.ptr)
  | 0x5102 => pantryWords s p 0x008 15
  | 0x5103 => pantryWords s p 0x080 15
  | 0x5104 => pantryWords s p 0x0F8 7
  | 0x5105 => pantryWords s p 0x130 2
  | 0x5106 => (List.range 256).flatMap (fun b => leBytes 4 (if s.isHole p then 0 else Tab.at (s.pn p).bankCe b 0))
  | 0x5107 => slotBytes s (Fin.ofNat 64 x.slotPid) x.slotIndex
  | _ => []

/-! ### The reduction (11 R358, R360) and the numerics watch (13 R413, R415) -/

/-- PHASE of a slice (11 R358). A slice is in O once it has launched a bucket, in N once its last is REDUCED, until the gate;
in A while the all-gather runs (notes/assumptions/54). -/
def slicePhase (s : State) (r : RedSlice) : Nat :=
  if s.run.active && r.launched != 0 then (if s.red.buckets.length ≤ r.reduced.length then 2 else 1)
  else if s.run.aRunning then 3 else 0

/-- SLICE_STATE (11 R358). -/
def sliceState (s : State) (sl : Slice) : Nat :=
  let r := (s.slice sl).red
  let n := s.red.buckets.length
  let waits := s.run.active && (ownedSampled s sl).any (fun j => !r.compared.contains j && !r.skipped.contains j)
  pack [(r.launched, 51), (((List.range n).find? (fun b => !r.reduced.contains b)).getD n, 38), (slicePhase s r, 36),
    (b2n s.mesh.ordered, 35), (b2n waits, 34), (r.held.length, 23)]

/-- WATCH_STATE (13 R413). -/
def watchState (s : State) (w : Nat) : Nat :=
  let x := runOf s w
  let r := Tab.at s.watch.report w {}
  pack [((x.k % 256).toNat, 56), (min x.lrun 65535, 40), (if w < 512 then x.crun else 0, 24), (b2n r.quiet, 3), (b2n r.above, 2),
    (b2n r.cOver, 1), (b2n r.nonfinite, 0)]

/-- The points of the step report for which a bit is set. -/
def reported (s : State) (f : WatchReport → Bool) : Nat := (s.watch.report.filter (fun e => f e.2)).length

/-- Numbers of the reduction and the watch. -/
def odNat6 (s : State) (x : Session) (index sub : Nat) : Nat :=
  let r := s.red
  let u := s.run
  match index with
  | 0x6000 => if sub = 1 then s.watch.threshold.toNat else s.watch.quietSteps
  | 0x6001 => [0, (s.watch.table.filter (fun e => e.2.kind != 0)).length, s.watch.reportStep, s.watch.reportOutcome,
      reported s (fun e => e.quiet), reported s (fun e => e.above), reported s (fun e => e.nonfinite), s.watch.undeclared].getD sub 0
  | 0x6002 => if sub = 1 then x.watchIndex else watchState s x.watchIndex
  | 0x6100 => [0, r.clipNorm.toNat, r.skipLimit, u.skips, u.lastOutcome, u.lastClip.toNat, u.lastNorm.toNat, u.lastLoss.toNat,
      u.lastTokens, u.lastFlags, u.committed, u.skipped].getD sub 0
  | 0x6101 => if sub = 1 then b2n s.mesh.ordered else r.divisor
  | 0x6102 => if sub = 1 then r.stallLimit else r.stepLimit
  | 0x6103 => if sub = 1 then r.buckets.length else x.bucketIndex
  | 0x6104 => sliceState s (sliceOf sub)
  | 0x6105 => r.epoch
  | 0x6106 => [0, r.linkAdds, r.linkRaises, r.blocksSaturated, r.checked, r.checkSkipped, r.mismatches, r.overruns, r.staleDropped,
      r.watchdogExpiries].getD sub 0
  | _ => 0

/-- BLOBs of the reduction and the watch. -/
def odBytes6 (s : State) (x : Session) (index sub : Nat) : List Byte :=
  match index with
  | 0x6002 =>
    if sub = 2 then leBytes 16 (Tab.at s.watch.table x.watchIndex {}).raw
    else wordBytes ((List.range 64).map (fun b => Tab.at (Tab.at s.watch.report x.watchIndex {}).hist b 0))
  | 0x6103 => leBytes 16 (((s.red.buckets[x.bucketIndex]?).map (fun b => b.raw)).getD 0)
  | _ => []

/-! ### Events and recovery (15 R449, R452, R469) -/

/-- A record as its 32 bytes (15 R449). -/
def recordBytes (r : EventRec) : List Byte :=
  wordBytes [pack [(r.event, 48), ((classCode r.cls).val, 46), (b2n r.valid, 45), (r.frac, 32), (r.ploc, 16), (r.logical, 8)],
    r.count, r.step, r.data]

/-- The entry of a log with a sequence number as its 40 bytes; all zeros where the log does not hold it (15 R452, R469). -/
def logBytes (log : List LogEntry) (seq : Nat) : List Byte :=
  match log.find? (fun e => e.seq == seq) with
  | some e => leBytes 8 e.seq ++ recordBytes e.record
  | none => List.replicate 40 0

/-- Numbers of the logs and of recovery. -/
def odNat7 (s : State) (x : Session) (index sub : Nat) : Nat :=
  let v := s.recov
  match index with
  | 0x7000 => [0, v.logCount, 65536, x.logIndex, 0, v.plogCount, x.plogIndex].getD sub 0
  | 0x7001 => v.alert.toNat
  | 0x7011 => if sub = 1 then v.limit else v.n
  | 0x7100 => [0, v.rollbacks, v.merged, v.stepsReverted, v.recoveryBeats, 0, v.suppressed].getD sub 0
  | _ => 0

/-- BLOBs of the logs and the totals (15 R469): they sum the counters of every unit. -/
def odBytes7 (s : State) (x : Session) (index sub : Nat) : List Byte :=
  let v := s.recov
  let f (i : Fin 4) : Nat := vget v.faultTotals i
  match index with
  | 0x7000 => if sub = 4 then logBytes v.log x.logIndex else logBytes v.plog x.plogIndex
  | 0x7010 => v.last
  | 0x7100 => wordBytes (match sub with
    | 5 => v.byClass.toList
    | 7 => [sumGr s (fun g => g.retries), sumGr s (fun g => g.accCorrected), sumGr s (fun g => g.passesRejected)]
    | 8 => [f 0, sumLd s (fun d => d.armsRejected), sumLd s (fun d => d.pendingDiscarded)]
    | 9 => [f 1, sumSk s (fun k => k.seq.rejects), sumSk s (fun k => k.seq.counterOverflows)]
    | 0xA => [f 2, sumSk s (fun k => k.whisk.opsRejected)]
    | _ => [sumRt s (fun r => r.linkRetries), f 3, sumRt s (fun r => r.discarded), sumRt s (fun r => r.cobaltDiscarded)])
  | _ => []

/-! ### Security (16 R489) and addressing (17 R511) -/

/-- Numbers of security. -/
def odNat8 (s : State) (x : Session) (index sub : Nat) : Nat :=
  let c := s.sec
  match index with
  | 0x8003 => [0, c.fwVersion, c.roll.active, c.runningBank, c.roll.trial, 0, c.roll.revoked.toNat].getD sub 0
  | 0x8004 => if sub = 1 then x.updateOffset else c.status
  | 0x8007 => [0, b2n s.guard.locked, 0, b2n s.guard.fromImage, s.guard.refusals].getD sub 0
  | 0x8008 => c.bootCode
  | _ => 0

/-- BLOBs of security. -/
def odBytes8 (s : State) (x : Session) (index sub : Nat) : List Byte :=
  let c := s.sec
  match index with
  | 0x8000 => if sub = 3 then padTo 64 (Config.sha512 Config.identityKey)
      else (Config.partData (index * 256 + sub)).take (if sub = 1 then 2048 else 4096)
  | 0x8001 => padTo 64 (vget c.m (Fin.ofNat 8 sub))
  | 0x8002 => padTo 680 (x.report.getD (unstatedBytes 0x800202 680))
  | 0x8003 => c.roll.minSvn.toList.flatMap (fun v => leBytes 4 v)
  | 0x8005 => if sub = 2 then padTo 64 c.roll.owner else if c.ownerKey.isEmpty then unstatedBytes 0x800501 96 else padTo 96 c.ownerKey
  | 0x8007 => padTo 64 c.guardDigest
  | _ => []

/-- Numbers of addressing and the lifecycle. -/
def odNat1 (s : State) (r : Req) (x : Session) (index sub : Nat) : Nat :=
  let d := s.dict
  match index with
  | 0x1000 => Config.unstated (index * 256 + sub)
  | 0x1100 => if sub = 1 then d.nodeId else d.chainState
  | 0x1103 => 30470
  | 0x1104 => if sub = 1 then (d.sessions.filter (fun y => y.open_)).length else accessRank (classOf s r x)
  | 0x1105 => [0, d.framesReceived, d.framesDiscarded, d.handshakesFailed, d.opsRejected, d.chainDiscarded, d.chainFrames].getD sub 0
  | 0x1200 => [0, lifeCode s.life.st, 0, s.life.commandStatus, s.life.lastCommand, s.life.since].getD sub 0
  | _ => 0

/-- Texts and BLOBs of addressing. -/
def odBytes1 (s : State) (index sub : Nat) : List Byte :=
  match index with
  | 0x1000 => if sub = 1 then textBytes "Beyhel" else if sub = 2 then textBytes "Ulivia W1"
      else if sub = 3 then textBytes "UW1-A3072" else (Config.partData (index * 256 + sub)).take 255
  | 0x1001 => (Config.partData (index * 256 + sub)).take 255
  | 0x1002 => (vget s.links.bays (Fin.ofNat 16 sub)).serial
  | 0x1101 => padTo 6 (Config.partData (index * 256 + sub))
  | 0x1102 => padTo 40 ((vget s.dict.ipNext (Fin.ofNat 2 sub)).getD (vget s.dict.ipConfig (Fin.ofNat 2 sub)))
  | _ => []

/-! ### A READ -/

/-- The number that a scalar entry reads as. -/
def odNat (s : State) (r : Req) (x : Session) (index sub : Nat) : Nat :=
  match index / 4096 with
  | 1 => odNat1 s r x index sub
  | 2 => odNat2 s x index sub
  | 3 => odNat3 s index sub
  | 4 => odNat4 s index sub
  | 5 => odNat5 s x index sub
  | 6 => odNat6 s x index sub
  | 7 => odNat7 s x index sub
  | _ => odNat8 s x index sub

/-- The bytes that a STR or BLOB entry reads as. -/
def odBytes (s : State) (x : Session) (index sub : Nat) : List Byte :=
  match index / 4096 with
  | 1 => odBytes1 s index sub
  | 2 => odBytes2 s x index sub
  | 3 => odBytes3 s index sub
  | 4 => odBytes4 s index sub
  | 5 => odBytes5 s x index sub
  | 6 => odBytes6 s x index sub
  | 7 => odBytes7 s x index sub
  | _ => odBytes8 s x index sub

/-- The value of an entry as a response carries it (17 R490): a scalar big-endian, a STR or BLOB as it is. -/
def odValue (s : State) (r : Req) (x : Session) (e : OdEntry) (sub : Nat) : List Byte :=
  if e.typ = 9 || e.typ = 10 then odBytes s x e.index sub else beBytes e.len (odNat s r x e.index sub)

/-- The node whose unit registers an entry is read from, where its value comes over the cobalt network (06 R184, 10 R319,
R320, 14 R443): a node that has left the network gives no REPLY (17 R494). A hole's pantry is not read (06 R186). -/
def odNode (s : State) (index sub : Nat) : Option Nat :=
  if 0x5101 ≤ index && index ≤ 0x5106 then (if s.isHole (Fin.ofNat 64 sub) then none else some sub)
  else if index = 0x3002 then some sub
  else if index = 0x5001 || index = 0x5002 || index = 0x5020 || index = 0x4001 || index = 0x4002 then some (64 + sub / 8)
  else none

/-- The checks on a READ (17 R491, R493, R495, R509), in their order; 0 where all pass. -/
def readChecks (s : State) (r : Req) (x : Session) (index sub : Nat) : Nat :=
  if 0x9000 ≤ index && index ≤ 0x9FFF then
    (if s.life.st == .service && classOf s r x == .service then Config.serviceStatus false index sub [] else stLocked)
  else match odFind index sub with
    | (false, _) => stNoIndex
    | (true, none) => stNoSub
    | (true, some e) =>
      if e.acc == .wo then stWriteOnly
      else if r.typ != 0 && r.typ != e.typ then stType
      else if r.value.length != 0 then stLength
      else if index = 0x8002 && x.reportDue then stPending
      else if ((odNode s index sub).map (fun n => s.nodeLive n)).getD true then 0 else stTimeout

/-- The answer of a READ: its status and its value, which only OK carries (17 R509). -/
def odRead (s : State) (r : Req) (x : Session) (index sub : Nat) : Nat × List Byte :=
  let st := if headerStatus r != 0 then headerStatus r else readChecks s r x index sub
  match st, odFind index sub with
  | 0, (_, some e) => (0, odValue s r x e sub)
  | 0, (_, none) => (0, Config.serviceValue index sub)
  | st, _ => (st, [])

/-- The answers of a request's READs in order (17 R509): once an answer would take the body past 4,400 bytes, that
operation and every later one are answered with 0x0302. `used` counts the bytes of the body so far. -/
def readAll (s : State) (x : Session) (used : Nat) : List (Req × Nat × Nat) → List (Nat × List Byte)
  | [] => []
  | (r, index, sub) :: rest =>
    let a := odRead s r x index sub
    if 4400 < used + 8 + a.2.length then (stLength, []) :: rest.map (fun _ => (stLength, []))
    else a :: readAll s x (used + 8 + a.2.length) rest

end Sys2Proof.Machine
end

