-- ==== Sys2Proof/Safety.lean ====
section
/-! DEFINITION. Safety.lean: the terms in which the statements speak: a run of the block, the invariants of its state, and
when a WRITE operation of the dictionary reaches the entry that it names. -/

namespace Sys2Proof

open Sys2Proof.Machine

/-- The states that the block reaches from a state by taking its waiting commands, n of them. -/
def Reaches (s : State) : Nat → State → Prop
  | 0, t => t = s
  | n + 1, t => ∃ u, step s = .next u ∧ Reaches u n t

/-- The commit record is as 01 R20 lays it out: the pointer names one of the two parameter sets, the step number has 64
bits. -/
def CommitLegal (s : State) : Prop := s.commit.ptr ≤ 1 ∧ s.commit.step < 2 ^ 64

/-- A WRITE operation that is served in session x and executed there (17 R496, R497, R508): its server answers, x is its
session, the tag is right, the request is not numbered below the last executed one, no answer of this operation is stored,
and its header holds no reserved OP and a zero byte 5. -/
structure Served (s : State) (r : Req) (index : Nat) (x : Session) : Prop where
  reaches : servedWrite s r index = true
  session : s.session r = some x
  kept : opDiscarded r x = false
  fresh : (r.seq = x.lastSeq && x.answers.any (fun a => a.1 == r.op)) = false
  header : headerStatus r = 0

/-- A WRITE operation that passes every check of 17 R495 that comes before the entry's own. -/
structure Passes (s : State) (r : Req) (index sub : Nat) (x : Session) : Prop extends Served s r index x where
  checks : writeChecks s r x index sub = 0

/-- The state after the running task t of a skillet has fetched the word at its PC (08 R218, R222): the read of 16 bytes
by the sequencer, and WORDS advanced unless the task presents a word again that it has already issued. -/
def fetched (s : State) (p : Pid) (t : Fin 16) : State :=
  let u := (readRange s p 14 (16 * (s.task p t).pc) 16).2
  if (s.task p t).word = 0 then u.modSq p (fun q => { q with words := sat64 q.words 1 }) else u

/-- Task t of a skillet runs and presents the word w of an operation, and the word stands (08 R218, R222, R225, R226): no
shelf command holds the task, the sequencer is powered, the PC lies in pantry, no poison comes with the word and no row of
R225 holds. -/
structure Presents (s : State) (p : Pid) (op : WordOp) (t : Fin 16) (w : Nat) : Prop where
  runs : (s.sq p).current = some t
  free : (s.sq p).hold = none
  powered : s.sequences p = true
  within : pcBeyond (s.task p t).pc = false
  word : leNat (Mem.bytes (s.pn p).mem (16 * (s.task p t).pc) 16) = w
  op_ : wordOp w = some op
  clean : (readRange s p 14 (16 * (s.task p t).pc) 16).1.poison = false
  stands : wordStatus (fetched s p t) p t op w = 0

end Sys2Proof
end

