-- ==== Sys2Proof/Certificates/Slice0/Obligations.lean ====
section
/-! DEFINITION. Certificates/Slice0/Obligations.lean: what is stated of the model. Every statement but those of one
operation says, of each command that it names, that exec answers a next state under hypotheses on the state and the
operands alone, and which state that is: the state equations are also its frame, since every field that the equation does
not name is as before. -/

open Sys2Proof Sys2Proof.Machine

/-- With the command c at the front of the queue, a step is exec of c on the state whose queue is the rest; with an
empty queue the block idles and the step answers the state as it is (the model's choice, notes/assumptions/1). (R497.)
-/
def Obligations.StepRunsFrontCommand : Prop :=
  (∀ (s : State) (c : Instr) (rest : List Instr), s.pending = c :: rest → step s = exec c { s with pending := rest })
  ∧ (∀ s : State, s.pending = [] → step s = .next s)

/-- Whatever the command and whatever the state, exec answers a next state, and so does a step: a command whose
condition does not hold is turned away with a status or does not come about, and never ends the machine. That a
command whose condition does not hold leaves the state is the model's choice (notes/assumptions/3). (R496, R499,
R500.) -/
def Obligations.EveryCommandAnswersNext : Prop :=
  (∀ (i : Instr) (s : State), ∃ t, exec i s = .next t) ∧ (∀ s : State, ∃ t, step s = .next t)

/-- Whatever command is taken, its effect leaves the queue of the waiting commands as it is: exec answers a state with
the same queue, and a step answers a state whose queue is the old one without its front. (R497.) -/
def Obligations.QueueIsTheSendersAlone : Prop :=
  (∀ (i : Instr) (s t : State), exec i s = .next t → t.pending = s.pending)
  ∧ (∀ s t : State, step s = .next t → t.pending = s.pending.tail)

/-- Wherever the slot pointer names one of the two slots and the step counter has 64 bits, they still do after any
step: after a committed or rolled back step, a job load, an adoption by a spare and every other command. (R20, R25,
R28, R459, R462.) -/
def Obligations.StepKeepsCommitLegal : Prop :=
  ∀ s t : State, CommitLegal s → step s = .next t → CommitLegal t

/-- At reset the module is OFF with an empty queue, no job is loaded, no session is open and no rack address held; the
beat is UNLOCKED and not VALID; the torus settings are 1 by 1 with COORD 0xFFFF; the optimizer's rule is 1 with BETA1
0.9 and BETA2 0.95, the skip limit 16, the check divisor 256, the quiet-step limit 200; BASE_CAP and every cap profile
are 27.0 kW, MAX_POINT 6, the throttle temperature 95 °C and I_LIM 580 A. Its commit record (step 0, pointer 0: the
model's choice, notes/assumptions/5) is legal. (R17, R322, R360, R399, R415, R445, R498, R511, R523.) -/
def Obligations.ResetState : Prop :=
  CommitLegal State.reset ∧ State.reset.pending = [] ∧ State.reset.life.st = .off ∧ State.reset.commit.loaded = false
  ∧ State.reset.dict.sessions = [] ∧ State.reset.dict.nodeId = 0xFFFF
  ∧ State.reset.time.lock = .unlocked ∧ State.reset.time.valid = false ∧ State.reset.time.count = 0
  ∧ State.reset.torus.x = 1 ∧ State.reset.torus.y = 1 ∧ State.reset.torus.coord = 0xFFFF ∧ State.reset.torus.known = false
  ∧ State.reset.rim.optim.rule = 1 ∧ State.reset.rim.optim.beta1 = 0x3F666666#32 ∧ State.reset.rim.optim.beta2 = 0x3F733333#32
  ∧ State.reset.red.clipNorm = 0 ∧ State.reset.red.skipLimit = 16 ∧ State.reset.red.divisor = 256 ∧ State.reset.mesh.ordered = false
  ∧ State.reset.watch.quietSteps = 200 ∧ State.reset.power.baseCap = 270 ∧ State.reset.power.maxPoint = 6
  ∧ (∀ i : Fin 16, vget State.reset.power.profiles i = 270) ∧ State.reset.power.throttleTemp = 95 ∧ State.reset.input.iLim = 580

/-- A write operation that reaches its session in order and fails a check that comes before the entry's own returns
that status, and changes nothing but OPS_REJECTED, the count of its frame and the answer kept for a repetition. So
does one whose entry's own check fails. A repeated operation of the last request changes nothing but the count of its
frame, and one numbered below the last executed is discarded and counted. (R495, R496, R508.) -/
def Obligations.DictionaryWritesTurnedAway : Prop :=
  (∀ (s : State) (r : Req) (index sub : Nat) (x : Session) (ap : Req → State → Nat × State), Served s r index x →
    writeChecks s r x index sub ≠ 0 → writeChecks s r x index sub ≠ 0x0403 →
    serveWrite s r index sub ap = storeAnswer { countFrame s r with dict := { (countFrame s r).dict with
      opsRejected := sat64 (countFrame s r).dict.opsRejected 1 } } r (writeChecks s r x index sub))
  ∧ (∀ (s : State) (r : Req) (x : Session) (index sub : Nat), writeChecks s r x index sub ≠ 0x0403)
  ∧ (∀ (s : State) (r : Req) (index sub : Nat) (x : Session) (ap : Req → State → Nat × State), Passes s r index sub x →
    (ap r (countFrame s r)).1 ≠ 0 → (ap r (countFrame s r)).1 ≠ 0x0403 →
    serveWrite s r index sub ap = storeAnswer { countFrame s r with dict := { (countFrame s r).dict with
      opsRejected := sat64 (countFrame s r).dict.opsRejected 1 } } r (ap r (countFrame s r)).1)
  ∧ (∀ (s : State) (r : Req) (index sub : Nat) (x : Session) (ap : Req → State → Nat × State),
    servedWrite s r index = true → s.session r = some x → opDiscarded r x = false → r.seq = x.lastSeq →
    x.answers.any (fun a => a.1 == r.op) = true → serveWrite s r index sub ap = countFrame s r)
  ∧ (∀ (s : State) (r : Req) (index sub : Nat) (x : Session) (ap : Req → State → Nat × State),
    servedWrite s r index = true → s.session r = some x → r.seq < x.lastSeq →
    serveWrite s r index sub ap = discardFrame (countFrame s r) r)

/-- The adder forms every exact sum at the higher exponent and rounds it to the nearest integer, ties to even. Where
all lie within ±32,767 that is the result; else, with RAISES 15 SAT is set and with EXP 0xFE SOVF is set and the
mantissas are clamped; else the exponent and RAISES go up by one and the halved sums are rounded. Flags are the OR of
both. The result of in-range blocks is in range, with EXP at most 0xFE and RAISES at most 15, and the same when A and
B change places. A received EXP 0xFF enters as 0xFE with NONFINITE. (R325.) -/
def Obligations.GradientAdditionRule : Prop :=
  (∀ (v : Int) (k : Nat), 2 * (rneInt v k * 2 ^ k - v).natAbs ≤ 2 ^ k
    ∧ (2 * (rneInt v k * 2 ^ k - v).natAbs = 2 ^ k → rneInt v k % 2 = 0))
  ∧ (∀ a b : G16, G16.add a b = G16.add b a)
  ∧ (∀ a b : G16, b.exp ≤ a.exp →
    let k := a.exp - b.exp
    let sums := List.zipWith (fun x y : Int => x * 2 ^ k + y) a.m b.m
    let m := sums.map (fun v => rneInt v k)
    let raises := max a.raises b.raises
    let nf := a.nonfinite || b.nonfinite
    let sat := a.sat || b.sat
    let sovf := a.sovf || b.sovf
    ((∀ v ∈ m, -32767 ≤ v ∧ v ≤ 32767) → G16.add a b = ⟨a.exp, raises, nf, sat, sovf, m⟩)
    ∧ ((∃ v ∈ m, v < -32767 ∨ 32767 < v) →
      (raises = 15 → G16.add a b = ⟨a.exp, 15, nf, true, sovf, m.map (fun v => max (-32767) (min 32767 v))⟩)
      ∧ (raises ≠ 15 → a.exp = 0xFE → G16.add a b = ⟨0xFE, raises, nf, sat, true, m.map (fun v => max (-32767) (min 32767 v))⟩)
      ∧ (raises ≠ 15 → a.exp ≠ 0xFE →
        G16.add a b = ⟨a.exp + 1, raises + 1, nf, sat, sovf, sums.map (fun v => rneInt v (k + 1))⟩)))
  ∧ (∀ a b : G16, (∀ v ∈ a.m, -32767 ≤ v ∧ v ≤ 32767) → (∀ v ∈ b.m, -32767 ≤ v ∧ v ≤ 32767) →
    a.exp ≤ 0xFE → b.exp ≤ 0xFE → a.raises ≤ 15 → b.raises ≤ 15 →
    (∀ v ∈ (G16.add a b).m, -32767 ≤ v ∧ v ≤ 32767) ∧ (G16.add a b).exp ≤ 0xFE ∧ (G16.add a b).raises ≤ 15
      ∧ (G16.add a b).m.length = min a.m.length b.m.length)
  ∧ (∀ (h : W16) (bs : List Byte), (G16.ofBytes h bs).exp ≤ 0xFE ∧ (h.toNat / 256 = 0xFF →
    (G16.ofBytes h bs).exp = 0xFE ∧ (G16.ofBytes h bs).nonfinite = true))

/-- Where a hole carries logical number l and a spare is left, the spare chosen is one at the least distance |Δpx| +
|Δpy| and, among those, the one with the lowest PID; relocation, where that spare passes its adoption check, gives l
to it and leaves every other logical number where it was. (R77.) -/
def Obligations.NearestSpareTakesOver : Prop :=
  (∀ p q : Pid, pidDist p q =
    ((p.val % 8 : Int) - (q.val % 8 : Int)).natAbs + ((p.val / 8 : Int) - (q.val / 8 : Int)).natAbs)
  ∧ (∀ (e : Effective) (q : Pid), q ∈ e.spares ↔ ((vget e.sk q).hole = none ∧ ∀ l : Fin 56, vget e.map l ≠ q))
  ∧ (∀ (e : Effective) (p q : Pid), e.nearest p = some q →
    q ∈ e.spares ∧ ∀ z ∈ e.spares, pidDist p q < pidDist p z ∨ (pidDist p q = pidDist p z ∧ q ≤ z))
  ∧ (∀ (e : Effective) (p : Pid), e.spares ≠ [] → ∃ q, e.nearest p = some q)
  ∧ (∀ (s : State) (l : Fin 56) (q : Pid) (fails : Option (List (Pid × Nat))) (origin cause fuel : Nat), s.col.eff.isHole (vget s.col.eff.map l) = true →
    s.col.eff.nearest (vget s.col.eff.map l) = some q →
    (adoptCheck fails q s).1 = 0 →
    let t := relocateOne (fuel + 1) fails origin cause l s
    vget t.col.eff.map l = q ∧ (∀ k : Fin 56, k ≠ l → vget t.col.eff.map k = vget s.col.eff.map k)
      ∧ t.col.eff.sk = s.col.eff.sk)

/-- A qualified edge of the beat input (source 0) closer than 0.5 µs to the train's reference is an EARLY anomaly, one
closer than 0.9 µs a SHORT anomaly, one from 0.9 to 1.1 µs an accepted edge that restarts the count of missed beats,
extends the run and enters the period estimate; the first edge of a train is its reference. The level's fall ends the
episode; a pulse of fewer than 50 ns is a GLITCH. LATE, WIDE and STUCK count their anomaly. Every such step leaves the
rest of the state. An oscillator beat that is not steered counts one beat (and one beat of HOLDOVER); in SLEWING it
moves the residual offset towards 0 by 16 units (1/64 of a beat: the model's choice within R53, notes/assumptions/60).
16 beats without an accepted edge restart a train that the count does not follow, and its flywheel beats go on as LATE
anomalies until the next edge. A beat symbol of the selected live port is an edge like those of the beat input. (R47,
R49, R50, R53, R538.) -/
def Obligations.BeatInputComplete : Prop :=
  (∀ (s : State) (ps d : Nat), s.time.syncHigh = false → s.powered = true → s.time.source = 0 →
    s.time.train.hasRef = true → ps < 500000 →
    exec (.syncInRise ps d) s = .next ((anomaly (s.modTime (fun t => { t with early := sat32 t.early 1 }))).modTime
      (fun t => { t with syncHigh := true, highAccepted := false, wideSeen := false, stuckSeen := false })))
  ∧ (∀ (s : State) (ps d : Nat), s.time.syncHigh = false → s.powered = true → s.time.source = 0 →
    s.time.train.hasRef = true → 500000 ≤ ps → ps < 900000 →
    exec (.syncInRise ps d) s = .next ((anomaly (s.modTime (fun t => { t with short := sat32 t.short 1 }))).modTime
      (fun t => { t with syncHigh := true, highAccepted := false, wideSeen := false, stuckSeen := false })))
  ∧ (∀ (s : State) (ps d : Nat), s.time.syncHigh = false → s.powered = true → s.time.source = 0 →
    s.time.train.hasRef = true → 900000 ≤ ps → ps ≤ 1100000 → (s.time.follows = true → s.beatDue = false) →
    exec (.syncInRise ps d) s = .next ((trainBeat (s.modTime (fun t => { t with
        train := { t.train with missed := 0, run := t.train.run + 1 },
        periods := (t.periods ++ [ps]).drop (t.periods.length + 1 - 16) })) d).modTime
      (fun t => { t with syncHigh := true, highAccepted := true, wideSeen := false, stuckSeen := false })))
  ∧ (∀ (s : State) (ps d : Nat), s.time.syncHigh = false → s.powered = true → s.time.source = 0 →
    s.time.train.hasRef = false → (s.time.follows = true → s.beatDue = false) →
    exec (.syncInRise ps d) s = .next ((trainBeat (s.modTime (fun t => { t with
        train := { hasRef := true, missed := 0, run := 0 } })) d).modTime
      (fun t => { t with syncHigh := true, highAccepted := false, wideSeen := false, stuckSeen := false })))
  ∧ (∀ (s : State) (ns : Nat), s.powered = true → s.time.syncHigh = true →
    exec (.syncInFall ns) s = .next (s.modTime (fun t => { t with
      syncHigh := false, highAccepted := false, wideSeen := false, stuckSeen := false })))
  ∧ (∀ (s : State) (ns : Nat), s.powered = true → s.time.syncHigh = false → ns < 50 → s.time.source = 0 →
    exec (.syncInFall ns) s = .next (anomaly (s.modTime (fun t => { t with glitch := sat32 t.glitch 1 }))))
  ∧ (∀ s : State, s.powered = true → s.time.source ≠ 2 → (s.time.train.hasRef = true ∨ s.time.train.fly = true) →
    (s.time.follows = true → s.beatDue = false) →
    exec .late s = .next (
      let t := anomaly (s.modTime (fun t => { t with
        late := sat32 t.late 1, train := { t.train with missed := t.train.missed + 1, run := 0 } }))
      if s.time.follows = true ∧ s.time.handover = false then countBeat t else t))
  ∧ (∀ s : State, s.time.syncHigh = true → s.time.highAccepted = true → s.time.wideSeen = false → s.time.source = 0 →
    exec .wide s = .next (anomaly (s.modTime (fun t => { t with wide := sat32 t.wide 1, wideSeen := true }))))
  ∧ (∀ s : State, s.time.syncHigh = true → s.time.stuckSeen = false → s.time.source = 0 →
    exec .stuck s = .next (anomaly (s.modTime (fun t => { t with stuck := sat32 t.stuck 1, stuckSeen := true }))))
  ∧ (∀ s : State, (s.time.source = 2 ∨ s.time.follows = false ∨ s.time.handover = true) → s.powered = true →
    s.beatDue = false → s.time.lock ≠ .slewing → s.time.steer = false →
    exec .oscillatorBeat s = .next (countBeat (s.modTime (fun t => { t with
      holdoverBeats := if t.lock = .holdover then t.holdoverBeats + 1 else t.holdoverBeats }))))
  ∧ (∀ s : State, (s.time.source = 2 ∨ s.time.follows = false ∨ s.time.handover = true) → s.powered = true →
    s.beatDue = false → s.time.lock = .slewing → s.time.steer = false →
    exec .oscillatorBeat s = .next (countBeat (s.modTime (fun t => { t with
      slewOffset := if 16 < t.slewOffset then t.slewOffset - 16
        else if t.slewOffset < -16 then t.slewOffset + 16 else 0 }))))
  ∧ (∀ s : State, 16 ≤ s.time.train.missed → s.time.follows = false → s.time.source ≠ 2 →
    exec .trainRestart s = .next (s.modTime (fun t => { t with train := { fly := true } })))
  ∧ (∀ (s : State) (port : Slice) (ps d : Nat), s.time.source = 1 → s.time.linkPort = port.val →
    port ∈ livePorts s → s.time.train.hasRef = true → 900000 ≤ ps → ps ≤ 1100000 →
    (s.time.follows = true → s.beatDue = false) →
    exec (.beatSymbolReceived port ps d) s = .next (trainBeat (s.modTime (fun t => { t with
        train := { t.train with missed := 0, run := t.train.run + 1 },
        periods := (t.periods ++ [ps]).drop (t.periods.length + 1 - 16) })) d))

/-- In every state in which no loaded count waits, and in every state in which a loaded count waits but an entry is
armed, a counted beat advances COUNT by one modulo 2^64 (and the waiting count by one: the model's choice,
notes/assumptions/60); where a loaded count waits and no entry is armed, COUNT becomes that count. FRAC returns to 0
(in JOINED the beat may go on to report the change to READY within the beat), and neither the commit record nor any
skillet nor the reduction changes. (R47, R56.) -/
def Obligations.CountedBeatMovesTheCount : Prop :=
  ∀ s : State,
    (countBeat s).time.count =
      (match s.time.pendingLoad with
       | some v => if s.anyArmed then (s.time.count + 1) % 2 ^ 64 else v % 2 ^ 64
       | none => (s.time.count + 1) % 2 ^ 64)
    ∧ (s.life.st ≠ .joined → (countBeat s).time.frac = 0)
    ∧ (countBeat s).time.pendingLoad = (match s.time.pendingLoad with
       | some v => if s.anyArmed then some (v + 1) else none
       | none => none)
    ∧ (countBeat s).time.ticks = s.time.ticks + 1
    ∧ (countBeat s).commit = s.commit ∧ (countBeat s).sks = s.sks ∧ (countBeat s).red = s.red

/-- 16 anomalies within 1,000 beats put the count in HOLDOVER; 64 accepted beats take UNLOCKED to LOCKING, or to
LOCKED where VALID is set; HOLDOVER with 256 accepted beats and the reference known goes to SLEWING with the offset of
the nearest edge, or raises TIME_SPLIT where it exceeds 2,048 beats; SLEWING ends in LOCKED with BEAT_RELOCKED; a
HOLDOVER of more than 400,000 beats awaits a stamp. (R50, R51, R52, R53, R54, R55.) -/
def Obligations.LockStatesComplete : Prop :=
  (∀ s : State, 16 ≤ (s.time.anomalies.filter (fun a => s.time.ticks < a + 1000)).length → s.time.source ≠ 2 →
    (s.time.follows = true ∨ s.time.lock = .slewing) →
    exec .holdoverEntry s = .next (enterHoldover s))
  ∧ (∀ s : State, s.time.lock = .unlocked → s.time.source ≠ 2 → 64 ≤ s.time.train.run →
    exec .lockingEntry s = .next (setLock (s.modTime (fun t => { t with handover := true }))
      (if s.time.valid then .locked else .locking)))
  ∧ (∀ (s : State) (d : Int) (off : Int), s.time.lock = .holdover → s.time.source ≠ 2 → 256 ≤ s.time.train.run →
    s.time.refOffset = some off → -512 < d → d ≤ 512 →
    exec (.slewingEntry d) s = .next (
      let total : Int := (off + 512) / 1024 * 1024 + d
      if 2048 * 1024 < total.natAbs ∧ s.time.refLoaded = false then timeSplit s total.natAbs
      else s.modTime (fun t => { t with
        lock := .slewing, slewOffset := total, refOffset := none, awaitStamp := false, awaitLoad := false, anomalies := [] })))
  ∧ (∀ s : State, s.time.lock = .slewing → s.time.slewOffset.natAbs ≤ 8 →
    exec .slewEnd s = .next (raiseMod (setLock (s.modTime (fun t => { t with slewOffset := 0, refLoaded := false })) .locked)
      .beatRelocked 0))
  ∧ (∀ s : State, s.time.lock = .holdover → 400000 < s.time.holdoverBeats → s.time.longSeen = false →
    s.time.awaitLoad = false → s.time.refLoaded = false →
    exec .holdoverLong s = .next (raiseMod (s.modTime (fun t => { t with
      longSeen := true, awaitStamp := true, refOffset := none })) .holdoverLong 0))
  ∧ (∀ s : State, s.time.lock = .holdover → 400000 < s.time.holdoverBeats → s.time.longSeen = false →
    (s.time.awaitLoad = true ∨ s.time.refLoaded = true) →
    exec .holdoverLong s = .next (raiseMod (s.modTime (fun t => { t with longSeen := true })) .holdoverLong 0))

/-- With the common checks passed: CBC_LOAD on a count that is not valid sets VALID and lets the next beat take the
value; on a valid count a value not below COUNT waits for the next beat; in a HOLDOVER that awaits it the value gives
the reference's offset and VALID is set. BEAT_SOURCE outside RUNNING and PAUSED takes the value and restarts the
source, BEAT_LINK_PORT is held. SCHED_ENTRY that does not arm and has no reserved KIND stores the entry (the model's
choice, notes/assumptions/61), and one that arms and meets no row of R62 stores it ARMED; MARK_SEND takes the marker
as if it had been received. (R54, R56, R59, R61, R66.) -/
def Obligations.TimeWritesComplete : Prop :=
  (∀ (s : State) (r : Req) (x : Session), Passes s r 0x3200 5 x → s.time.awaits = false → loadState s.life.st = true →
    s.anyArmed = false → s.time.valid = false →
    exec (.cbcLoad r) s = .next (storeAnswer (setValid ((countFrame s r).modTime (fun t => { t with
      pendingLoad := some (reqNat r) }))) r 0))
  ∧ (∀ (s : State) (r : Req) (x : Session), Passes s r 0x3200 5 x → s.time.awaits = false → loadState s.life.st = true →
    s.anyArmed = false → s.time.valid = true → s.time.count ≤ reqNat r →
    exec (.cbcLoad r) s = .next (storeAnswer ((countFrame s r).modTime (fun t => { t with
      pendingLoad := some (reqNat r) })) r 0))
  ∧ (∀ (s : State) (r : Req) (x : Session), Passes s r 0x3200 5 x → s.time.awaits = true →
    exec (.cbcLoad r) s = .next (storeAnswer (setValid ((countFrame s r).modTime (fun t => { t with
      refOffset := some (loadOffset s (reqNat r)), refLoaded := true, awaitLoad := false, awaitStamp := false }))) r 0))
  ∧ (∀ (s : State) (r : Req) (x : Session), Passes s r 0x3200 1 x → reqNat r ≤ 2 → s.runningOrPaused = false →
    reqNat r ≠ s.time.source →
    exec (.beatSourceWrite r) s = .next (storeAnswer (restartSource ((countFrame s r).modTime (fun t => { t with
      source := reqNat r }))) r 0))
  ∧ (∀ (s : State) (r : Req) (x : Session), Passes s r 0x3200 2 x → reqNat r ≤ 31 → s.runningOrPaused = false →
    reqNat r ≠ s.time.linkPort → s.time.source ≠ 1 →
    exec (.beatLinkPortWrite r) s = .next (storeAnswer ((countFrame s r).modTime (fun t => { t with
      linkPort := reqNat r })) r 0))
  ∧ (∀ (s : State) (i : Fin 64) (r : Req) (x : Session), Passes s r 0x3210 i.val x →
    (vget s.sched.entries i).arm = false → (schedOf (leNat r.value)).arm = false →
    (schedOf (leNat r.value)).kind ≤ 4 →
    exec (.schedEntryWrite i r) s = .next (storeAnswer ((countFrame s r).modSched (fun c => { c with
      entries := vset c.entries i (schedOf (leNat r.value)) })) r 0))
  ∧ (∀ (s : State) (i : Fin 64) (r : Req) (x : Session), Passes s r 0x3210 i.val x →
    (vget s.sched.entries i).arm = false → (schedOf (leNat r.value)).arm = true →
    armStatus s i (schedOf (leNat r.value)) = 0 →
    exec (.schedEntryWrite i r) s = .next (storeAnswer ((countFrame s r).modSched (fun c => { c with
      entries := vset c.entries i { schedOf (leNat r.value) with state := .armed } })) r 0))
  ∧ (∀ (s : State) (r : Req) (x : Session), Passes s r 0x3202 7 x →
    exec (.markSend r) s = .next (storeAnswer (takeMarker (countFrame s r) (reqNat r) (reqNat r % 65536)) r 0))

/-- While A of a step runs, a frame of the gather of that step and epoch leaves the landing store, and each of its
blocks is written into the replica, noted and sent on. A record of the buddy copy of the last committed step is
written at its place in that step's region. Once every record of a copy is held, what it holds of the copy is
forgotten, BUDDY_HELD is that step and BUDDY_ACK is sent back, to the -X neighbour or with X = 1 the -Y neighbour. An
acknowledgement of the copy of the last committed step is held; stale ones are dropped and counted. In RUNNING a
bucket whose replica is held, or after a step without a gather the next one in order, has its ready task STARTed once
on every training skillet, and a rejected START is reported. (R29, R31, R32, R338, R353, R354, R355.) -/
def Obligations.PhaseAComplete : Prop :=
  (∀ (s : State) (port : Slice) (k : Nat) (c : Content), landedReduce s port k [3, 4] = some c → s.run.aRunning = true →
    c.repoch = s.red.epoch → c.step = s.run.aStep % 65536 →
    exec (.agReceived port k) s = .next (finishA ((List.range (c.count % 4 + 1)).foldl (fun t i =>
      let j := c.block + i
      let w := (c.bytes.drop (64 * i)).take 64
      let t := (planWrite t (replicaAddr t j) w).modRedSl (blockSlice j) (fun r => { r with
        agGot := if r.agGot.contains j then r.agGot else r.agGot ++ [j] })
      agPump (if c.kind = 3 ∧ c.hop + 2 < t.torus.y then sendAg t (blockSlice j) true (c.hop + 1) c.origin j w else t)
        (blockSlice j)) (noteProgress (dropLanded s port k) 4))))
  ∧ (∀ (s : State) (port : Slice) (k : Nat) (c : Content), landedReduce s port k [7] = some c → s.commit.loaded = true →
    c.repoch = s.red.epoch → c.step = stepBefore s.commit.step % 65536 →
    exec (.buddyReceived port k) s = .next ((List.range (c.count % 4 + 1)).foldl (fun t i =>
      let step := stepBefore s.commit.step
      let j := c.block + i
      let n := recordLen c.sub
      (planWrite t (recordAddr t (6 + step % 2) c.sub j) ((c.bytes.drop (n * i)).take n)).modRedSl (blockSlice j) (fun r =>
        let got := if r.buddyStep = step then r.buddyGot else []
        { r with buddyStep := step, buddyGot := if got.contains (j, c.sub) then got else got ++ [(j, c.sub)] }))
      (dropLanded s port k)))
  ∧ (∀ s : State, 1 < s.modules → s.commit.loaded = true → 0 < s.ownedStripes →
    (∀ sl : Slice, copyHeld s (s.slice 0).red.buddyStep sl = true) →
    exec .buddyCopyComplete s = .next (
      let step := (s.slice 0).red.buddyStep
      let u := allSlices.foldl (fun t sl => t.modRedSl sl (fun r => { r with buddyGot := [] })) s
      let v := { u with rim := { u.rim with buddyHeld := step } }
      sendBundle v (if v.torus.x = 1 then .ym else .xm) 0 (reduceFrame v 8 step 0 v.shard 0 0 .ash [] [] 0)))
  ∧ (∀ (s : State) (port : Slice) (k : Nat) (c : Content), landedReduce s port k [8] = some c → s.commit.loaded = true →
    c.repoch = s.red.epoch → c.step = stepBefore s.commit.step % 65536 →
    exec (.buddyAck port k) s = .next (
      let u := noteProgress (dropLanded s port k) 3
      { u with rim := { u.rim with acked := true, buddyAcked := stepBefore s.commit.step } }))
  ∧ (∀ (s : State) (port : Slice) (k : Nat) (c : Content), landedReduce s port k [8] = some c →
    c.repoch ≠ s.red.epoch → exec (.buddyAck port k) s = .next (dropStale s port k))
  ∧ (∀ (s : State) (b : Nat) (e : Bucket), s.red.buckets[b]? = some e → s.run.active = true → s.life.st = .running →
    s.run.ready.contains b = true →
    (if s.run.readyNow then s.run.ready.head? = some b else ∀ sl : Slice, agHas s b sl = true) →
    exec (.readyTaskStart b) s = .next (
      let u := s.modRun (fun r => { r with ready := r.ready.filter (fun x => x != b) })
      (trainingPids u).foldl (fun t p =>
        let v := startTask (recvCobalt t p.val) p (Fin.ofNat 16 e.readyTask) e.readyPc (w64 t.commit.step)
        let w := sendReply v.2 p.val v.1 []
        if v.1 = 0 then w else raiseMod w .readyStartRejected (names [w.commit.step, b, p.val])) u))

/-- Outside SELF_TEST its end does not come about. In SELF_TEST the effective colander is built first; then, with
fewer than 56 healthy skillets, a boot that ends in QUARANTINED or a failed stack, the module is quarantined, and a
module that is quarantined is in that state with every port DISABLED. Otherwise it leaves SELF_TEST for AWAIT_ADDRESS
(or beyond, as setLife says), its trial bank is committed and its ports may train. A hole request for a healthy
skillet, with 57 healthy ones, is a HOLE record of reason 5 by the service engineer; one for a hole is refused with
0x0306, one above 63 with 0x0304. A READ of JOURNAL_RECORD gives the record at the session's JOURNAL_INDEX, and zeros
at or beyond JOURNAL_USED. (R88, R95, R480, R498.) -/
def Obligations.SelfTestComplete : Prop :=
  (∀ (s : State) (t : SelfTest), s.life.st ≠ .selfTest → exec (.selfTestDone t) s = .next s)
  ∧ (∀ (s : State) (t : SelfTest), s.life.st = .selfTest →
    (selfTested t s).col.eff.healthy < 56 ∨ (selfTested t s).sec.quarantineBoot = true ∨ t.failedStacks ≠ [] →
    exec (.selfTestDone t) s = .next (quarantine (selfTested t s)))
  ∧ (∀ s : State, s.life.st ≠ .quarantined →
    (quarantine s).life.st = .quarantined ∧ ∀ n : Slice, ((quarantine s).port n).st = .disabled)
  ∧ (∀ (s : State) (t : SelfTest), s.life.st = .selfTest → 56 ≤ (selfTested t s).col.eff.healthy →
    (selfTested t s).sec.quarantineBoot = false → t.failedStacks = [] →
    exec (.selfTestDone t) s = .next (allSlices.foldl portUp (commitTrial (setLife (selfTested t s) .awaitAddress))))
  ∧ (∀ (s : State) (r : Req) (x : Session) (p : Pid), Passes s r 0x2006 1 x → reqNat r = p.val → s.isHole p = false →
    57 ≤ s.col.eff.healthy →
    exec (.holeRequest r) s = .next (storeAnswer (
      let u := appendRecord (countFrame s r) 1 3 p 5 0 0
      { u with col := { u.col with holeRequest := p.val } }) r 0))
  ∧ (∀ (s : State) (r : Req) (x : Session) (p : Pid), Passes s r 0x2006 1 x → reqNat r = p.val → s.isHole p = true →
    exec (.holeRequest r) s = .next (storeAnswer { countFrame s r with
      dict := { (countFrame s r).dict with opsRejected := sat64 (countFrame s r).dict.opsRejected 1 } } r 0x0306))
  ∧ (∀ (s : State) (r : Req) (x : Session), Passes s r 0x2006 1 x → 64 ≤ reqNat r →
    exec (.holeRequest r) s = .next (storeAnswer { countFrame s r with
      dict := { (countFrame s r).dict with opsRejected := sat64 (countFrame s r).dict.opsRejected 1 } } r 0x0304))
  ∧ (∀ (s : State) (r : Req) (x : Session) (c : ColRec), headerStatus r = 0 → r.typ = 0 → r.value = [] →
    s.col.journal[x.journalIndex]? = some c → odRead s r x 0x2005 2 = (0, c.bytes))
  ∧ (∀ (s : State) (r : Req) (x : Session), headerStatus r = 0 → r.typ = 0 → r.value = [] →
    s.col.journal.length ≤ x.journalIndex → odRead s r x 0x2005 2 = (0, List.replicate 16 0))

/-- A window whose length has ended closes. The entry that falls due next fires: a STEP_BOUNDARY of a running job
waits for U, one that finds a boundary waiting is merged, counted and MISSED; an EVAL_WINDOW and a CAP_WINDOW open
their window, a DEADLINE raises BUDDY_LATE only where the buddy copy is not acknowledged. A stamp of a LOCKED
neighbour confirms a count that is not valid: the next beat takes the stamped count, corrected for the link delay of
training (half the round trip, in whole beats: the model's choice, notes/assumptions/60), plus one. A marker pulse's
target is the next beat plus MARK_DELAY; its fall, its stuck level and a received marker act as stated. (R55, R58,
R63, R64, R65, R66.) -/
def Obligations.ScheduleAndMarkersComplete : Prop :=
  (∀ (s : State) (i : Fin 64), s.sched.windows.any (fun w => w.entry = i.val && w.close ≤ s.time.count) = true →
    exec (.windowClose i) s = .next (capMoved (s.modSched (fun c => { c with
      windows := c.windows.filter (fun w => !(w.entry = i.val && w.close ≤ s.time.count)) }))))
  ∧ (∀ (s : State) (i : Fin 64), nextDue s = some i → (vget s.sched.entries i).kind = 1 → s.commit.loaded = true →
    s.life.st = .running → s.run.boundary = none →
    exec (.schedEntryFire i) s = .next ((s.modSched (fun c => { c with
        entries := vmod c.entries i (fun e => e.fired false) })).modRun
      (fun r => { r with boundary := some (vget s.sched.entries i).fireAt })))
  ∧ (∀ (s : State) (i : Fin 64) (b : Nat), nextDue s = some i → (vget s.sched.entries i).kind = 1 → s.commit.loaded = true →
    s.life.st = .running → s.run.boundary = some b →
    exec (.schedEntryFire i) s = .next (raiseMod ((s.modSched (fun c => { c with
        entries := vmod c.entries i (fun e => e.fired true) })).modSched (fun c => { c with
        boundariesMerged := sat32 c.boundariesMerged 1 })) .boundaryMerged (names [s.commit.step])))
  ∧ (∀ (s : State) (i : Fin 64), nextDue s = some i → (vget s.sched.entries i).kind = 2 →
    exec (.schedEntryFire i) s = .next (openEval ((s.modSched (fun c => { c with
        entries := vmod c.entries i (fun e => e.fired false) })).modSched (fun c => { c with
        windows := c.windows ++ [⟨i.val, (vget s.sched.entries i).fireAt + 64 * (vget s.sched.entries i).length, 2,
          (vget s.sched.entries i).arg⟩] })) (vget s.sched.entries i).arg))
  ∧ (∀ (s : State) (i : Fin 64), nextDue s = some i → (vget s.sched.entries i).kind = 3 →
    exec (.schedEntryFire i) s = .next (capMoved ((s.modSched (fun c => { c with
        entries := vmod c.entries i (fun e => e.fired false) })).modSched (fun c => { c with
        windows := c.windows ++ [⟨i.val, (vget s.sched.entries i).fireAt + 64 * (vget s.sched.entries i).length, 3,
          (vget s.sched.entries i).arg⟩] }))))
  ∧ (∀ (s : State) (i : Fin 64), nextDue s = some i → (vget s.sched.entries i).kind = 4 →
    exec (.schedEntryFire i) s = .next (
      let t := s.modSched (fun c => { c with entries := vmod c.entries i (fun e => e.fired false) })
      if s.rim.acked || s.modules = 1 || !s.commit.loaded then t
      else raiseMod t .buddyLate (names [s.commit.step])))
  ∧ (∀ (s : State) (port : Slice) (k : Nat) (c : Content), landedNeighbour s port k 3 = some c →
    (c.bytes.drop 8).headD 0 = 2#8 → (c.bytes.drop 9).headD 0 = 1#8 → s.time.valid = false → s.time.source ≠ 2 →
    exec (.stampReceived port k) s = .next (setValid ((dropLanded s port k).modTime (fun t => { t with
      pendingLoad := some (stampCount s port (leNat (c.bytes.take 8)) + 1) }))))
  ∧ (∀ (s : State) (port : Slice) (n : Nat), stampCount s port n = n + (s.port port).rtt / 2 / 1000)
  ∧ (∀ s : State, s.sched.markHigh = false → s.powered = true →
    exec .stepMarkRise s = .next (
      let t := s.modSched (fun c => { c with markHigh := true, markStuckSeen := false })
      if s.sched.markSource = 1 || s.sched.markSource = 3 then applyMarker t (s.time.count + 1 + s.sched.markDelay) else t))
  ∧ (∀ (s : State) (ns : Nat), 50 ≤ ns →
    exec (.stepMarkFall ns) s = .next (s.modSched (fun c => { c with markHigh := false, markStuckSeen := false })))
  ∧ (∀ s : State, s.sched.markHigh = true → s.sched.markStuckSeen = false →
    exec .markStuck s = .next (s.modSched (fun c => { c with markStuck := sat32 c.markStuck 1, markStuckSeen := true })))
  ∧ (∀ (s : State) (port : Slice) (k : Nat) (c : Content), landedNeighbour s port k 4 = some c →
    exec (.markerReceived port k) s = .next (takeMarker (dropLanded s port k) (leNat (c.bytes.take 8))
      (leNat ((c.bytes.drop 8).take 2))))

/-- From the four flags of the fused result the outcome is COMMIT where none is set; otherwise HALT where the skip
limit is above 0 and one more skip reaches it, and SKIP where not. The clip factor is clip_norm / norm where clip_norm
is above 0 and the norm above it, and 1.0 otherwise, in binary64, with norm the root of f.sumsq. With a step in
progress, this module's record sent and every module's record held, GATE_EVALUATE answers a next state in which the
outcome, the fused tokens and flags and, on COMMIT, the clip factor are these, from shard 0's limits; the commit
record, the skillets, the optimizer and the module's own skip count stay. On COMMIT and HALT the step is past its gate
and waits for its U. (R23.) -/
def Obligations.GateDecidesTheStep : Prop :=
  (∀ (lossNf gradNf sat sovf : Bool) (limit skips : Nat),
    gateOutcome (b2n lossNf + 2 * b2n gradNf + 4 * b2n sat + 8 * b2n sovf) limit skips =
      if lossNf || gradNf || sat || sovf then
        (if 0 < limit ∧ limit ≤ skips + 1 then Outcome.halt else Outcome.skip)
      else Outcome.commit)
  ∧ (∀ (c : W32) (norm : W64), clipFactor c norm =
      if Machine.Num.lt (numOf 0 0) (f64num (f64of32 c)) = true ∧ Machine.Num.lt (f64num (f64of32 c)) (f64num norm) = true
      then f64div (f64of32 c) norm else f64one)
  ∧ (∀ (s : State) (fs : List Fused) (f0 : Fused) (rest : List Fused),
    fs = (allShards s).filterMap (fun k => Tab.find s.red.gathered k) → fs = f0 :: rest → fs.length = s.modules →
    s.run.active = true → s.red.sent = true →
    let f := fusedSum fs
    let out := gateOutcome f.flags f0.skipLimit s.run.skips
    let clip := clipFactor f0.clipNorm (f64sqrt (scaledSumsq (optimFor s) f))
    ∃ t, exec .gateEvaluate s = .next t
      ∧ t.run.lastOutcome = outcomeCode out ∧ t.run.lastTokens = f.tokens % 2 ^ 64 ∧ t.run.lastFlags = f.flags
      ∧ (out = .commit → t.run.lastClip = f32of64 clip)
      ∧ t.commit = s.commit ∧ t.sks = s.sks ∧ t.run.skips = s.run.skips ∧ t.rim.optim = s.rim.optim
      ∧ (out ≠ .skip → t.run.active = false ∧ ∃ e, t.run.ended = s.run.ended ++ [e] ∧ e.outcome = out ∧ e.step = s.commit.step
          ∧ e.clip = clip))

/-- U of a COMMIT gives a state whose commit record has the step counter one higher modulo 2^64 and the other slot
pointer, whose run of skips is 0 and whose COMMITTED has advanced; U of a SKIP or a HALT leaves the commit record,
adds one to the run of skips and advances SKIPPED. Both move the input cursor on and keep the values of before U;
nothing else changes. (R25, R28.) -/
def Obligations.FlipIsOneWrite : Prop :=
  ∀ (s : State) (e : Ended),
    (e.outcome = .commit → Machine.flip s e = { s with
      commit := { s.commit with step := (s.commit.step + 1) % 2 ^ 64, ptr := 1 - s.commit.ptr }
      run := { s.run with
        saved := some { skips := s.run.skips, runs := s.watch.runs, cursor := s.run.cursor }
        skips := 0, cursor := s.run.cursor + 1, committed := sat64 s.run.committed 1, skipped := sat64 s.run.skipped 0 } })
    ∧ (e.outcome ≠ .commit → Machine.flip s e = { s with
      run := { s.run with
        saved := some { skips := s.run.skips, runs := s.watch.runs, cursor := s.run.cursor }
        skips := min 65535 (s.run.skips + 1), cursor := s.run.cursor + 1, committed := sat64 s.run.committed 0,
        skipped := sat64 s.run.skipped 1 } })

/-- With the oldest ended step a COMMIT, neither G nor A running, the module RUNNING and the buddy acknowledgement
held (or M = 1), UPDATE_START makes the pending settings of that step effective and begins G in every engine. An
engine that deals with all its blocks without a fault or poisoned input reports completion. STEP_FLIP at a waiting
boundary with G complete answers a next state in which, on COMMIT, the step number is one more modulo 2^64, the
pointer is flipped and LOADED stays (no held command waiting); on SKIP and HALT the step number and the pointer stay.
(R25, R27, R28, R308.) -/
def Obligations.UpdateCompletes : Prop :=
  (∀ (s : State) (e : Ended) (rest : List Ended), s.run.ended = e :: rest → e.outcome = .commit → s.run.gRunning = false →
    s.run.aRunning = false → s.life.st = .running → (s.modules = 1 ∨ s.rim.acked = true) →
    exec .updateStart s = .next (
      let t := if s.rim.applySet = true ∧ s.rim.applyStep = s.commit.step then
        { s with rim := { s.rim with optim := optimFor s, optimNext := [], applySet := false } } else s
      allSlices.foldl beginUpdate
        ({ t with rim := { t.rim with clampRaised := false } }.modRun (fun r => { r with gRunning := true }))))
  ∧ (∀ (s : State) (sl : Slice), (s.slice sl).ue.phase = 2 → (s.slice sl).ue.gDone = false →
    ((ueRun s sl (engineBlocks s sl).length).slice sl).ue.goes = true →
    exec (.ueGComplete sl) s = .next ((ueRun s sl (engineBlocks s sl).length).modUe sl (fun u => { u with
      gDone := true, phase := 0 })))
  ∧ (∀ (s : State) (e : Ended) (rest : List Ended) (b : Nat), s.run.ended = e :: rest → s.run.boundary = some b →
    s.life.st = .running → s.life.held = none → e.outcome = .commit → s.run.gRunning = true →
    allSlices.all (fun sl => (s.slice sl).ue.gDone) = true →
    ∃ t, exec .stepFlip s = .next t ∧ t.commit = { s.commit with
      step := (s.commit.step + 1) % 2 ^ 64, ptr := 1 - s.commit.ptr })
  ∧ (∀ (s : State) (e : Ended) (rest : List Ended) (b : Nat), s.run.ended = e :: rest → s.run.boundary = some b →
    s.life.st = .running → e.outcome ≠ .commit →
    ∃ t, exec .stepFlip s = .next t ∧ t.commit.step = s.commit.step ∧ t.commit.ptr = s.commit.ptr)

/-- With the word standing, room in the queue and a descriptor that stands, ISSUE queues the descriptor as copied with
its issuer and goes on; FLUSH goes on and takes effect at once where no pass streams, and otherwise waits for the pass
boundary. The banks having taken the bit errors given, a stationary load that may start reads its tile into the back
registers, notes poison as cause 4 and releases its slot unless HOLD is set. A pass of a degenerate shape that may
issue moves no data. (R102, R103, R118, R119, R120, R123, R126.) -/
def Obligations.GriddleQueueComplete : Prop :=
  (∀ (s : State) (p : Pid) (t : Fin 16) (w : Nat), Presents s p .issue t w →
    let g : Fin 4 := Fin.ofNat 4 (bits w 111 110)
    let f := fetched s p t
    let r := readRange f p g.val (bits w 109 87 * 64) 64
    (f.gr p g).queue.length < 4 → bits w 109 87 * 64 + 64 ≤ paLimit →
    passStatus r.2 p g (bits w 109 87) (passDescOf r.1.bytes) = 0 →
    exec (.passIssue p) s = .next (advance (r.2.modGr p g (fun x => { x with
      queue := x.queue ++ [{ desc := passDescOf r.1.bytes, issuer := issuerOf f p t w, id := x.serial }],
      serial := x.serial + 1 })) p t))
  ∧ (∀ (s : State) (p : Pid) (t : Fin 16) (w : Nat), Presents s p .flush t w →
    exec (.passFlush p) s = .next (
      let g : Fin 4 := Fin.ofNat 4 (bits w 111 110)
      let f := fetched s p t
      let u := (advance f p t).modGr p g (fun x => { x with flushers := x.flushers ++ [issuerOf f p t w], flushPending := true })
      if (u.gr p g).issuing then u else doFlush u p g))
  ∧ (∀ (b : State) (p : Pid) (g : Fin 4) (errs : List (Nat × Bool)) (q : Pass), let s := strike b p errs
    (s.gr p g).waiting.find? (fun q => q.desc.loads) = some q → (s.gr p g).halted = false → (s.gr p g).flushPending = false →
    (s.gr p g).back = none → (s.gr p g).loadFault = none → s.computeOn p = true →
    (q.desc.w2.chk = true → s.slotSt p q.desc.w2.slot = .full) →
    exec (.stationaryLoadStart p g errs) b = .next (
      let r := readTile s p g q.desc
      let u := r.2.2.modGr p g (fun x => { x with
        back := some (q.id, r.1), loadFault := if r.2.1 then some (q.id, 4) else none })
      if q.desc.hold then u else releaseOperand u p q.desc.w2))
  ∧ (∀ (b : State) (p : Pid) (g : Fin 4) (errs : List (Nat × Bool)) (n : Nat) (q : Pass), let s := strike b p errs
    (s.gr p g).waiting.head? = some q → passReady s p g q = true → q.desc.empty = true →
    exec (.passIssueBegin p g errs n) b = .next (emptyPass s p g q))

/-- A ready pass that is not degenerate enters ISSUE at the end of the array's list. At its boundary its rows are
counted, it drains and, without HOLD, its streaming and init slots are released, and a waiting flush, then a held stop
whose last boundary this is, take effect; with no stop held nothing more happens. A drained pass that emits enters
EMIT, any other is done. At the end of an emit whose writes are all accepted its taps are counted and its chain ends.
A rejected emit that came back halts the griddle with PASS_FAULT of cause 5; a fault of cause 4 halts it with its back
registers empty and its queue kept, or, where a flush waits, flushes it. (R104, R108, R120, R121, R122, R127, R128.)
-/
def Obligations.GriddlePassComplete : Prop :=
  (∀ (b : State) (p : Pid) (g : Fin 4) (errs : List (Nat × Bool)) (n : Nat) (q : Pass), let s := strike b p errs
    (s.gr p g).waiting.head? = some q → passReady s p g q = true → q.desc.empty = false →
    ∃ u a, exec (.passIssueBegin p g errs n) b = .next u ∧ (u.gr p g).active = (s.gr p g).active ++ [a]
      ∧ a.pass = q ∧ a.st = .issue)
  ∧ (∀ (s : State) (p : Pid) (g : Fin 4) (n : Nat) (a : ActivePass),
    (s.gr p g).active.find? (fun a => a.st == .issue) = some a → (s.gr p g).faulted = false →
    (s.gr p g).halted = false →
    exec (.passBoundary p g n) s = .next (takeStop (
      let u := s.modGr p g (fun x => { x with
        rowsIssued := sat64 x.rowsIssued a.pass.desc.m, skipped := sat64 x.skipped n,
        active := x.active.map (fun y => if y.pass.id = a.pass.id then { y with st := .drain } else y) })
      let v := if a.pass.desc.hold then u
        else if a.pass.desc.init == .source then releaseOperand (releaseOperand u p a.pass.desc.w4) p a.pass.desc.w5
        else releaseOperand u p a.pass.desc.w4
      if (v.gr p g).flushPending then doFlush v p g else v)))
  ∧ (∀ s : State, s.life.held ≠ some 3 → takeStop s = s)
  ∧ (∀ (s : State) (p : Pid) (g : Fin 4) (a : ActivePass),
    (s.gr p g).active.find? (fun a => a.st == .drain) = some a → a.fault = 0 → a.pass.desc.emit = true →
    exec (.passDrainEnd p g) s = .next (s.modGr p g (fun x => { x with
      active := x.active.map (fun y => if y.pass.id = a.pass.id then { y with st := .emit } else y) })))
  ∧ (∀ (s : State) (p : Pid) (g : Fin 4) (a : ActivePass),
    (s.gr p g).active.find? (fun a => a.st == .drain) = some a → a.fault = 0 → a.pass.desc.emit = false →
    exec (.passDrainEnd p g) s = .next (passDone s p g a.pass))
  ∧ (∀ (s : State) (p : Pid) (g : Fin 4) (a : ActivePass) (w : Win),
    (s.gr p g).active.find? (fun a => a.st == .emit) = some a → a.fault = 0 →
    (s.gr p g).windows.find? (fun w => w.id == a.chain) = some w → (emitAll s p g a.pass.desc w).1 = true →
    exec (.passEmitEnd p g) s = .next (
      let u := (emitAll s p g a.pass.desc w).2
      chainDone (if a.pass.desc.tapEn then tapValues u p a.pass.desc.tap (emitTap a.pass.desc w.vals) else u) p g w a.pass))
  ∧ (∀ (s : State) (p : Pid) (g : Fin 4) (col : Fin 256), (s.gr p g).rejected = true →
    exec (.griddleFault p g 5 col) s = .next (takeStop (raiseSk ((s.modGr p g (fun x => { x with rejected := false })).modGr
      p g (fun x => { x with halted := true })) p g.val .passFault (names [5, 0]))))
  ∧ (∀ (s : State) (p : Pid) (g : Fin 4) (col : Fin 256) (t : Option Nat × Pass), faultTarget (s.gr p g) 4 = some t →
    ∃ u, exec (.griddleFault p g 4 col) s = .next (takeStop u) ∧ (u.gr p g).back = none
      ∧ ((s.gr p g).flushPending = false → (u.gr p g).halted = true ∧ (u.gr p g).queue = (s.gr p g).queue)
      ∧ ((s.gr p g).flushPending = true → (u.gr p g).halted = false ∧ (u.gr p g).queue = []))

/-- With the word standing: SET of a slot that meets no row of R167 writes its configuration fields; RESET and
RESET_ALL with no work in progress make the slot, or all 4,096, EMPTY with a new generation; COMPLETE and RELEASE act
on the slot; LOAD of 8 unchecked bytes that come without poison (the banks having taken the bit errors given) writes
the register; MEMOP with a descriptor that stands is queued. All go on to the next word. A DRAINING slot whose reads
have retired becomes EMPTY with GEN + 1. (R161, R163, R166, R167, R168, R172, R175, R223.) -/
def Obligations.SlotWordsComplete : Prop :=
  (∀ (s : State) (p : Pid) (t : Fin 16) (w : Nat), Presents s p .set t w →
    slotSetStatus (fetched s p t) p (bits w 111 100) (bits w 63 0) = 0 →
    exec (.slotSet p) s = .next (advance ((fetched s p t).modPn p (fun k =>
      k.setSlot (bits w 111 100) { k.slot (bits w 111 100) with
        base := bits (bits w 63 0) 63 41, length := bits (bits w 63 0) 40 18, producers := bits (bits w 63 0) 17 12,
        consumers := bits (bits w 63 0) 11 6 })) p t))
  ∧ (∀ (s : State) (p : Pid) (t : Fin 16) (w : Nat), Presents s p .reset t w → workInProgress (fetched s p t) p = false →
    exec (.slotReset p) s = .next (advance ((fetched s p t).modPn p (fun k =>
      k.setSlot (bits w 111 100) (k.slot (bits w 111 100)).emptied)) p t))
  ∧ (∀ (s : State) (p : Pid) (t : Fin 16) (w : Nat), Presents s p .resetAll t w → workInProgress (fetched s p t) p = false →
    exec (.slotResetAll p) s = .next (advance ((fetched s p t).modPn p (fun k => { k with
      slots := emptiedSlots k.slots })) p t))
  ∧ (∀ (x : Tab Slot) (n : Nat), Tab.at (emptiedSlots x) n {} = if n < 4096 then (Tab.at x n {}).emptied else {})
  ∧ (∀ (s : State) (p : Pid) (t : Fin 16) (w : Nat), Presents s p .complete t w →
    exec (.slotComplete p) s = .next (advance (slotCompletion (fetched s p t) p (bits w 111 100)) p t))
  ∧ (∀ (s : State) (p : Pid) (t : Fin 16) (w : Nat), Presents s p .release t w →
    exec (.slotRelease p) s = .next (advance (Machine.slotRelease (fetched s p t) p (bits w 111 100)) p t))
  ∧ (∀ (s : State) (p : Pid) (n : Fin 4096), ((s.pn p).slot n.val).st = .draining →
    exec (.slotDrainDone p n) s = .next (s.modPn p (fun k => k.setSlot n.val ((s.pn p).slot n.val).emptied)))
  ∧ (∀ (s : State) (p : Pid) (t : Fin 16) (w : Nat) (errs : List (Nat × Bool)), Presents (strike s p errs) p .load t w → bit w 108 = false →
    let r := readRange (fetched (strike s p errs) p t) p 14 (bits w 92 64) 8
    r.1.poison = false →
    exec (.slotLoad p errs) s = .next (advance (r.2.modTask p t (fun x => { x with
      tr := vset x.tr (Fin.ofNat 8 (bits w 111 109)) (w64 (leNat r.1.bytes)) })) p t))
  ∧ (∀ (s : State) (p : Pid) (t : Fin 16) (w : Nat), Presents s p .memop t w → bits w 111 88 * 32 + 32 ≤ paLimit →
    let r := readRange (fetched s p t) p 14 (bits w 111 88 * 32) 32
    let d := memDescOf r.1.bytes
    memopStatus (r.2.pn p) (bits w 111 88 * 32) d = 0 →
    exec (.memop p) s = .next (advance (r.2.modPn p (fun k => { k with memopQueue := k.memopQueue ++ [{
      copy := d.op == 2, length := d.length, pattern := d.pattern, src := d.src, dst := d.dst,
      issuer := issuerOf (fetched s p t) p t w }] })) p t))

/-- With the word standing, an unchecked STORE whose eight bytes lie on open shelves completes: byte i of the register
stands at its address plus i, in little-endian order, every other byte of that pantry and every other pantry reads as
before, no task register changes, and the task goes on to the next word. (R157, R178, R223.) -/
def Obligations.StoreWritesEightBytes : Prop :=
  ∀ (s : State) (p : Pid) (t : Fin 16) (w : Nat), Presents s p .store t w → bit w 108 = false →
    rangeOpen (s.pn p) (bits w 92 64) 8 = true →
    ∃ u, exec (.slotStore p) s = .next u
      ∧ (∀ i : Nat, i < 8 → Mem.get (u.pn p).mem (bits w 92 64 + i)
          = BitVec.ofNat 8 ((trOf (s.task p t) (bits w 111 109)).toNat / 256 ^ i))
      ∧ (∀ a : Nat, ¬ (bits w 92 64 ≤ a ∧ a < bits w 92 64 + 8) → Mem.get (u.pn p).mem a = Mem.get (s.pn p).mem a)
      ∧ (∀ q : Pid, q ≠ p → u.pn q = s.pn q)
      ∧ (∀ k : Fin 16, (u.task p k).tr = (s.task p k).tr ∧ (u.task p k).st = (s.task p k).st)
      ∧ (u.task p t).pc = ((s.task p t).pc + 1) % 2 ^ 25
      ∧ (u.pn p).slots = (s.pn p).slots ∧ u.rim = s.rim ∧ u.links = s.links

/-- SHELF_WAKE_DONE of a WAKING shelf makes it OPEN and SHELF_CLOSE_DONE of a CLOSING one makes it OFF; after either,
every byte of that shelf reads as zero, every byte of pantry outside it reads as before, every other shelf and every
slot stay, and no other skillet's pantry changes. (R176, R177.) -/
def Obligations.ShelfDataIsGone : Prop :=
  ∀ (s : State) (p : Pid) (n : Fin 15),
    ((vget (s.pn p).shelves n).st = .waking →
      ∃ u, exec (.shelfWakeDone p n) s = .next u ∧ (vget (u.pn p).shelves n).st = .opened
        ∧ (∀ a : Nat, Mem.get (u.pn p).mem a = if a / 2 ^ 25 = n.val then 0 else Mem.get (s.pn p).mem a)
        ∧ (∀ m : Fin 15, m ≠ n → vget (u.pn p).shelves m = vget (s.pn p).shelves m)
        ∧ (u.pn p).slots = (s.pn p).slots ∧ (∀ q : Pid, q ≠ p → u.pn q = s.pn q))
    ∧ ((vget (s.pn p).shelves n).st = .closing →
      ∃ u, exec (.shelfCloseDone p n) s = .next u ∧ (vget (u.pn p).shelves n).st = .off
        ∧ (∀ a : Nat, Mem.get (u.pn p).mem a = if a / 2 ^ 25 = n.val then 0 else Mem.get (s.pn p).mem a)
        ∧ (∀ m : Fin 15, m ≠ n → vget (u.pn p).shelves m = vget (s.pn p).shelves m)
        ∧ (u.pn p).slots = (s.pn p).slots ∧ (∀ q : Pid, q ≠ p → u.pn q = s.pn q))

/-- A SHELF message of the steward that opens an OFF shelf makes it WAKING and one that closes an OPEN shelf that no
slot bars makes it CLOSING, each answered with 0; the sequencer's words do the same and hold the task. A memory
operation whose slots let it begin runs and ends: where its destination shelves are open a FILL leaves the pattern and
a COPY the source's bytes in the destination and every other byte as before, then its release, completion and posted
status follow; one of length 0 touches no bank. A waiting correction is written back and counted; scrub of an open
shelf ends its bank's debt and notes what it finds, scrub of a rim buffer corrects or poisons the granule; the end of
the window starts the counts again and takes the new limit. (R159, R161, R176, R177, R178, R180, R181, R182, R186,
R303.) -/
def Obligations.PantryUpkeepComplete : Prop :=
  (∀ (s : State) (p : Pid) (n : Fin 15), s.nodeLive p.val = true → (s.pn p).shelf n.val = .off →
    exec (.shelfOpen p (some n.val)) s = .next (sendReply ((recvCobalt s p.val).modPn p (fun k => { k with
      shelves := vset k.shelves n ⟨.waking, (vget (s.pn p).shelves n).rejected⟩ })) p.val 0 []))
  ∧ (∀ (s : State) (p : Pid) (n : Fin 15), s.nodeLive p.val = true → (s.pn p).shelf n.val = .opened → slotBars (recvCobalt s p.val) p n.val = false →
    exec (.shelfClose p (some n.val)) s = .next (sendReply ((recvCobalt s p.val).modPn p (fun k => { k with
      shelves := vset k.shelves n ⟨.closing, false⟩ })) p.val 0 []))
  ∧ (∀ (s : State) (p : Pid) (t : Fin 16) (w : Nat) (n : Fin 15), Presents s p .open_ t w → bits w 111 108 = n.val →
    ((fetched s p t).pn p).shelf n.val = .off →
    exec (.shelfOpen p none) s = .next (((fetched s p t).modPn p (fun k => { k with
      shelves := vset k.shelves n ⟨.waking, (vget ((fetched s p t).pn p).shelves n).rejected⟩ })).modSq p (fun q => { q with hold := some (n.val, true) })))
  ∧ (∀ (s : State) (p : Pid) (t : Fin 16) (w : Nat) (n : Fin 15), Presents s p .close t w → bits w 111 108 = n.val →
    ((fetched s p t).pn p).shelf n.val = .opened → slotBars (fetched s p t) p n.val = false →
    exec (.shelfClose p none) s = .next (((fetched s p t).modPn p (fun k => { k with
      shelves := vset k.shelves n ⟨.closing, false⟩ })).modSq p (fun q => { q with hold := some (n.val, false) })))
  ∧ (∀ (s : State) (p : Pid) (k : Nat) (m : MemOp), (s.pn p).memopQueue[k]? = some m → memopReady s p m = true →
    exec (.memopDone p k) s = .next (
      let r := memopRun (s.modPn p (fun x => { x with memopQueue := x.memopQueue.eraseIdx k })) p m
      let u := r.2.modPn p (fun x => { x with memops := sat64 x.memops 1 })
      let v := if r.1 = 0 ∧ m.copy = true then releaseOperand u p m.src else u
      let w := if r.1 = 0 ∧ m.dst.chk = true ∧ m.dst.fin = true then slotCompletion v p m.dst.slot else v
      postCompletion w p m.issuer r.1))
  ∧ (∀ (s : State) (p : Pid) (m : MemOp), m.length = 0 → memopRun s p m = (0, s))
  ∧ (∀ (s : State) (p : Pid) (m : MemOp), rangeOpen (s.pn p) m.dst.base (m.length * 64) = true →
    (memopRun s p m).1 = 0
    ∧ ∀ a : Nat, Mem.get ((memopRun s p m).2.pn p).mem a =
        if m.dst.base ≤ a ∧ a < m.dst.base + m.length * 64 then
          (if m.copy then Mem.get (s.pn p).mem (m.src.base + (a - m.dst.base))
           else BitVec.ofNat 8 (m.pattern / 256 ^ ((a - m.dst.base) % 8)))
        else Mem.get (s.pn p).mem a)
  ∧ (∀ (s : State) (p : Pid) (g : Nat), g ∈ (s.pn p).corrupt →
    exec (.correctionWriteback p g) s = .next (countCe (s.modPn p (fun k => { k with
      corrupt := k.corrupt.filter (fun x => x != g) })) p (physBankOf (s.modPn p (fun k => { k with
      corrupt := k.corrupt.filter (fun x => x != g) })) p (8 * g)) (bankWord (8 * g))))
  ∧ (∀ (s : State) (node : Fin 68) (p : Pid) (word : Nat) (g : Fin 64) (done : Bool), node.val = p.val →
    s.computeOn p = true → s.powered = true → (s.pn p).shelf (shelfOf (word * 512 + g.val * 8)) = .opened →
    (∀ e ∈ (s.pn p).errors, e.1 ≠ (word * 512 + g.val * 8) / 8) →
    exec (.scrubAccess node word g .single done) s = .next (noteError (s.modPn p (fun k => { k with
      scrubForced := k.scrubForced.filter (fun b => b != physBankOf s p (word * 512 + g.val * 8)),
      scrubPasses := sat64 k.scrubPasses (b2n done) })) p ((word * 512 + g.val * 8) / 8) false))
  ∧ (∀ (s : State) (node : Fin 68) (i : Fin 4) (word : Nat) (g : Fin 64) (done : Bool), node.val = 64 + i.val →
    s.powered = true → word * 64 + g.val < 2 ^ 25 →
    exec (.scrubAccess node word g .single done) s = .next (bufferError s i (word * 64 + g.val) false)
    ∧ exec (.scrubAccess node word g .double done) s = .next (raiseBuffer (bufferError s i (word * 64 + g.val) true) i
        .pantryUncorrectable (word * 64 + g.val)))
  ∧ (∀ (s : State) (p : Pid) (b : Fin 256), s.computeOn p = true →
    exec (.scrubForce p b) s = .next (s.modPn p (fun k => { k with scrubForced := insertNat k.scrubForced b.val })))
  ∧ (∀ s : State, exec .ceWindowEnd s = .next { s with
      ceLimit := s.ceLimitNext, sks := s.sks.map (fun k => { k with pantry := { k.pantry with bankCe := [] } })
      rim := { s.rim with buffers := s.rim.buffers.map (fun b => { b with ceRaised := false }) } })

/-- With the word standing and a chain that validates, ARM of an IDLE ladle starts the stream and goes on, and ARM in
TAIL without a pending arm is held as pending; STOP goes on and, in IDLE, completes at once, while an ACTIVE ladle
stops and owes the completion; a STOPPING ladle without outstanding portions is IDLE and its STOPs complete; a fault
that a running ladle has met, or a parity error, halts it with its cause; a memory portion that times out returns its
tag and faults a running ladle with cause 4. As its blocks begin a list is read again, once: where it still stands,
its first block that may start and has data joins the stream's blocks, and so do the later ones without another read
of the list; a list that no longer stands is the fault LIST_CHANGED. A block that issues, with a free tag, takes the
next tag for a portion. A portion to memory or another skillet that has all its answers with status 0 returns its tag
and counts PORTIONS and BYTES. (R197, R198, R199, R200, R203, R205, R206, R207, R211, R212.) -/
def Obligations.LadleComplete : Prop :=
  (∀ (s : State) (p : Pid) (t : Fin 16) (w : Nat) (chain : List Nat) (loop : Option Nat) (u : State), Presents s p .arm t w →
    let l : Fin 8 := Fin.ofNat 8 (bits w 111 109)
    let i := issuerOf (fetched s p t) p t w
    walkChain 64 (fetched s p t) p l [] (bits w 108 86) = (0, chain, loop, u) →
    ((u.ld p l).st = .idle → exec (.ladleArm p) s = .next (advance (startStream u p l (bits w 108 86) i) p t))
    ∧ ((u.ld p l).st = .tail → (u.ld p l).pending = none →
      exec (.ladleArm p) s = .next (advance (u.modLd p l (fun d => { d with pending := some (bits w 108 86, i) })) p t)))
  ∧ (∀ (s : State) (p : Pid) (t : Fin 16) (w : Nat), Presents s p .stop t w →
    let l : Fin 8 := Fin.ofNat 8 (bits w 111 109)
    let i := issuerOf (fetched s p t) p t w
    let u := advance (fetched s p t) p t
    ((u.ld p l).st = .idle → exec (.ladleStop p) s = .next (postCompletion u p i 0))
    ∧ ((u.ld p l).st = .active → exec (.ladleStop p) s = .next ((stopLadle u p l).modLd p l (fun d => { d with
        stopIssuers := d.stopIssuers ++ [i] }))))
  ∧ (∀ (s : State) (p : Pid) (l : Fin 8), (s.ld p l).st = .stopping → (s.ld p l).portions = [] →
    exec (.ladleStopDone p l) s = .next ((s.ld p l).stopIssuers.foldl (fun t i => postCompletion t p i 0)
      (s.modLd p l (fun d => { d with st := .idle, stopIssuers := [], chain := [] }))))
  ∧ (∀ (s : State) (p : Pid) (l : Fin 8) (cause : Nat), ((s.ld p l).st = .active ∨ (s.ld p l).st = .tail) →
    (cause = 5 ∨ (cause ≠ 0 ∧ (s.ld p l).fault = cause)) →
    let at_ := if (s.ld p l).fault = cause then (s.ld p l).faultAt.getD (s.ld p l).now else (s.ld p l).now
    exec (.ladleFault p l cause) s = .next (faultLadle s p l cause at_)
      ∧ ((faultLadle s p l cause at_).ld p l).st = .halted ∧ ((faultLadle s p l cause at_).ld p l).cause = cause)
  ∧ (∀ (s : State) (p : Pid) (l : Fin 8) (tag : Nat) (x : Portion), (s.ld p l).portions.find? (fun x => x.tag == tag) = some x →
    x.mem = true → x.answered = false → (s.ld p l).st = .active →
    exec (.memTimeout p l tag) s = .next (faultLadle (s.modLd p l (fun d => { d with
      portions := d.portions.filter (fun y => y.tag != tag) })) p l 4 (x.listId, x.block)))
  ∧ (∀ (s : State) (p : Pid) (l : Fin 8) (addr : Nat), (s.ld p l).st = .active → (s.ld p l).allStarted = false →
    (s.ld p l).fault = 0 → (s.ld p l).blocks = [] → (s.ld p l).list = none →
    (s.ld p l).chain[(s.ld p l).listPos]? = some addr →
    let r := readList s p l addr
    let b := listBlock r.1 (s.ld p l).blockIx
    listStatus r.2 p addr r.1 = 0 → (s.ld p l).blockIx < (listHead r.1).count → blockReady (loadList s p l) p b = true →
    b.empty = false →
    ∃ u x, exec (.ladleBlockStart p l) s = .next u ∧ (u.ld p l).blocks = [x] ∧ x.index = (s.ld p l).blockIx
      ∧ x.block = b ∧ (u.ld p l).head = some (listHead r.1))
  ∧ (∀ (s : State) (p : Pid) (l : Fin 8) (h : ListHead) (bs : List Block) (b : Block), (s.ld p l).st = .active →
    (s.ld p l).allStarted = false → (s.ld p l).fault = 0 → (s.ld p l).blocks = [] → (s.ld p l).head = some h →
    (s.ld p l).list = some bs → bs[(s.ld p l).blockIx]? = some b → blockReady s p b = true → b.empty = false →
    ∃ u x, exec (.ladleBlockStart p l) s = .next u ∧ (u.ld p l).blocks = [x] ∧ x.index = (s.ld p l).blockIx
      ∧ x.block = b ∧ (u.ld p l).list = some bs ∧ u.pn p = s.pn p)
  ∧ (∀ (s : State) (p : Pid) (l : Fin 8) (addr : Nat), (s.ld p l).st = .active → (s.ld p l).allStarted = false →
    (s.ld p l).fault = 0 → (s.ld p l).blocks = [] → (s.ld p l).list = none →
    (s.ld p l).chain[(s.ld p l).listPos]? = some addr →
    let r := readList s p l addr
    listStatus r.2 p addr r.1 ≠ 0 →
    exec (.ladleBlockStart p l) s = .next (r.2.modLd p l (fun d => { d with
      fault := 3, faultAt := some ((listHead r.1).listId, 0) })))
  ∧ (∀ (s : State) (p : Pid) (l : Fin 8) (r : BlockRun), (s.ld p l).blocks.find? (fun b => !b.issuedAll) = some r →
    (s.ld p l).st = .active → (s.ld p l).fault = 0 → tagFree s p l r.head = true →
    ∃ u, exec (.ladlePortionIssue p l) s = .next u ∧ (u.ld p l).tags = (s.ld p l).tags + 1)
  ∧ (∀ (s : State) (p : Pid) (l : Fin 8) (tag cycles : Nat) (x : Portion),
    (s.ld p l).portions.find? (fun x => x.tag == tag) = some x → x.answered = true → x.space ≠ .pantry → x.status = 0 →
    (s.ld p l).st = .stopping → x.tap = none → cycles ≤ (s.ld p l).lateLimit →
    ∃ u, exec (.ladlePortionComplete p l tag cycles) s = .next u
      ∧ (u.ld p l).portions = (s.ld p l).portions.filter (fun y => y.tag != tag)
      ∧ (u.ld p l).portionsDone = sat64 (s.ld p l).portionsDone 1 ∧ (u.ld p l).bytes = sat64 (s.ld p l).bytes x.len)

/-- With the word standing: WAIT_SLOT_FULL (with the generation where the word asks for it), WAIT_SLOT_EMPTY,
WAIT_COUNTER and WAIT_SIGNAL go on to the next word where their condition holds, a counter or a signal first losing N,
and put the task in WAITING otherwise; TIMEAT at or below the present time of the skillet's own copy completes at once
and counts in TIMEAT_LATE, and otherwise waits for its target. The next state is the one after the fetch but for this.
(R226, R227, R230, R169.) -/
def Obligations.WaitWordsComplete : Prop :=
  (∀ (s : State) (p : Pid) (t : Fin 16) (w : Nat), Presents s p .slotFull t w →
    exec (.waitSlotFull p) s = .next (if fullHolds (fetched s p t) p w then advance (fetched s p t) p t else waitTask (fetched s p t) p t 1 w))
  ∧ (∀ (s : State) (p : Pid) (t : Fin 16) (w : Nat), Presents s p .slotEmpty t w →
    exec (.waitSlotEmpty p) s = .next (if emptyHolds (fetched s p t) p w then advance (fetched s p t) p t else waitTask (fetched s p t) p t 1 w))
  ∧ (∀ (s : State) (p : Pid) (t : Fin 16) (w : Nat), Presents s p .counter t w →
    exec (.waitCounter p) s = .next (if bits w 108 93 ≤ vget ((fetched s p t).task p t).cc (Fin.ofNat 8 (bits w 111 109)) then
      advance ((fetched s p t).modTask p t (fun x => { x with
        cc := vmod x.cc (Fin.ofNat 8 (bits w 111 109)) (fun c => c - bits w 108 93) })) p t
      else waitTask (fetched s p t) p t 2 w))
  ∧ (∀ (s : State) (p : Pid) (t : Fin 16) (w : Nat), Presents s p .signal t w →
    exec (.waitSignal p) s = .next (if bits w 105 90 ≤ vget ((fetched s p t).sq p).sg (Fin.ofNat 64 (bits w 111 106)) then
      advance ((fetched s p t).modSq p (fun q => { q with
        sg := vmod q.sg (Fin.ofNat 64 (bits w 111 106)) (fun c => c - bits w 105 90) })) p t
      else waitTask (fetched s p t) p t 3 w))
  ∧ (∀ (s : State) (p : Pid) (t : Fin 16) (w : Nat) (frac : Fin 1024), Presents s p .abs t w →
    let u := (fetched s p t).atFrac frac.val
    exec (.timeatAbs p frac) s = .next (if timeReached u (bits w 63 0, bits w 73 64) (u.fracAt p.val) then
      advance (u.modSq p (fun q => { q with timeatLate := sat64 q.timeatLate 1 })) p t
      else waitTask (u.modTask p t (fun x => { x with target := some (bits w 63 0, bits w 73 64) })) p t 4 w))
  ∧ (∀ (s : State) (p : Pid) (t : Fin 16) (w : Nat) (frac : Fin 1024), Presents s p .rel t w →
    let u := (fetched s p t).atFrac frac.val
    let g := (((trOf ((fetched s p t).task p t) (bits w 111 109)).toNat + bits w 63 0) % 2 ^ 64, bits w 73 64)
    exec (.timeatRel p frac) s = .next (if timeReached u g (u.fracAt p.val) then
      advance (u.modSq p (fun q => { q with timeatLate := sat64 q.timeatLate 1 })) p t
      else waitTask (u.modTask p t (fun x => { x with target := some g })) p t 4 w))

/-- With the word standing: FOR pushes its count and goes on, or with a count of 0 goes on past the loop; NEXT counts
down and returns to the body, or pops the loop; JUMP and a JUMP_IF whose condition holds continue at the target
(STATUS_NZ clearing STATUS), any other JUMP_IF at the next word; LOADI writes IMM, ADDI the sum modulo 2^64, READREG
the register read at this instant (or a free value where the offset names none); all but the jumps go on to the next
word. (R224, R231.) -/
def Obligations.BranchWordsComplete : Prop :=
  (∀ (s : State) (p : Pid) (t : Fin 16) (w : Nat), Presents s p .for_ t w → forCount ((fetched s p t).task p t) w = 0 →
    exec (.loopFor p) s = .next (jumpTo (fetched s p t) p t (bits w 88 64 + 1)))
  ∧ (∀ (s : State) (p : Pid) (t : Fin 16) (w : Nat), Presents s p .for_ t w → forCount ((fetched s p t).task p t) w ≠ 0 →
    exec (.loopFor p) s = .next (advance ((fetched s p t).modTask p t (fun x => { x with
      loops := ⟨forCount ((fetched s p t).task p t) w, x.pc + 1, bits w 88 64⟩ :: x.loops })) p t))
  ∧ (∀ (s : State) (p : Pid) (t : Fin 16) (w : Nat) (l : Loop) (r : List Loop), Presents s p .next t w → ((fetched s p t).task p t).loops = l :: r → 1 < l.count →
    exec (.loopNext p) s = .next (jumpTo ((fetched s p t).modTask p t (fun x => { x with
      loops := { l with count := l.count - 1 } :: r })) p t l.body))
  ∧ (∀ (s : State) (p : Pid) (t : Fin 16) (w : Nat) (l : Loop) (r : List Loop), Presents s p .next t w → ((fetched s p t).task p t).loops = l :: r → l.count ≤ 1 →
    exec (.loopNext p) s = .next (advance ((fetched s p t).modTask p t (fun x => { x with loops := r })) p t))
  ∧ (∀ (s : State) (p : Pid) (t : Fin 16) (w : Nat), Presents s p .jump t w →
    exec (.jump p) s = .next (jumpTo (fetched s p t) p t (bits w 88 64)))
  ∧ (∀ (s : State) (p : Pid) (t : Fin 16) (w : Nat), Presents s p .jumpIf t w →
    exec (.jumpIf p) s = .next (if jumpHolds ((fetched s p t).task p t) w then
      jumpTo (if bits w 108 106 = 4 then (fetched s p t).modTask p t (fun x => { x with status := 0 }) else (fetched s p t)) p t (bits w 88 64)
      else advance (fetched s p t) p t))
  ∧ (∀ (s : State) (p : Pid) (t : Fin 16) (w : Nat), Presents s p .loadi t w →
    exec (.loadi p) s = .next (advance ((fetched s p t).modTask p t (fun x => { x with
      tr := vset x.tr (Fin.ofNat 8 (bits w 111 109)) (w64 (bits w 63 0)) })) p t))
  ∧ (∀ (s : State) (p : Pid) (t : Fin 16) (w : Nat), Presents s p .addi t w →
    exec (.addi p) s = .next (advance ((fetched s p t).modTask p t (fun x => { x with
      tr := vset x.tr (Fin.ofNat 8 (bits w 111 109))
        (w64 ((trOf ((fetched s p t).task p t) (bits w 108 106)).toNat + bits w 63 0)) })) p t))
  ∧ (∀ (s : State) (p : Pid) (t : Fin 16) (w : Nat), Presents s p .readreg t w →
    exec (.readreg p) s = .next (advance ({ (fetched s p t) with free := (fetched s p t).free + 1 }.modTask p t (fun x => { x with
      tr := vset x.tr (Fin.ofNat 8 (bits w 111 109)) (w64 ((skReg { (fetched s p t) with free := (fetched s p t).free + 1 } p (bits w 108 104)
        (bits w 103 92) false).getD (Config.freeNat (fetched s p t).free))) })) p t))

/-- With the word standing: SPAWN starts the named FREE task at the target with copies of the eight task registers;
END makes the task FREE with its counters and loops zero and its owed completions void, and the next READY task runs;
YIELD leaves the task READY past the word and the next READY task runs; RAISE raises event 0xE300 + CODE with the
class of the word and the named register as its data, where the cobalt node's send queue has room; a full queue holds
the word, which is presented again. (R217, R218, R223, R229, R231, R249.) -/
def Obligations.TaskWordsComplete : Prop :=
  (∀ (s : State) (p : Pid) (t : Fin 16) (w : Nat), Presents s p .spawn t w →
    exec (.spawn p) s = .next (advance ((fetched s p t).modTask p (Fin.ofNat 16 (bits w 111 108)) (fun _ => {
      pc := bits w 88 64, tr := ((fetched s p t).task p t).tr, st := .ready,
      inc := ((fetched s p t).task p (Fin.ofNat 16 (bits w 111 108))).inc })) p t))
  ∧ (∀ (s : State) (p : Pid) (t : Fin 16) (w : Nat), Presents s p .end_ t w →
    exec (.endTask p) s = .next (leaveRunning ((fetched s p t).modTask p t (fun x => { x with
      cc := Vector.replicate 8 0, loops := [], inc := x.inc + 1 })) p t .free))
  ∧ (∀ (s : State) (p : Pid) (t : Fin 16) (w : Nat), Presents s p .yield_ t w →
    exec (.yieldTask p) s = .next (leaveRunning (advance (fetched s p t) p t) p t .ready))
  ∧ (∀ (s : State) (p : Pid) (t : Fin 16) (w : Nat), Presents s p .raise_ t w → sendRoom s p = true →
    exec (.planEvent p) s = .next (raiseAs (advance (fetched s p t) p t) p.val (0xE300 + bits w 111 104) (if bit w 103 then .contained else .notice)
      (plocUnit p.val 6) (trOf ((advance (fetched s p t) p t).task p t) (bits w 102 100)).toNat))
  ∧ (∀ (s : State) (p : Pid), sendRoom s p = false → exec (.planEvent p) s = .next s)

/-- With room in the send queue and the word standing: SEND sends a SIGNAL to the logical skillets of its mask, one
message to one skillet or one broadcast to several; COMPLETE and RELEASE send one message to the skillet of the named
logical number; all count in SIGNALS_SENT and go on. A full queue holds the word. A message in flight to a live node,
of the epoch in force and from a source that may send it, leaves the network and counts as received there: a SIGNAL
advances its signal counter (with COUNTER_OVERFLOW at 65,535), a completion and a release act on their slot; any other
message is discarded and counted. (R228, R229, R270, R271, R275, R276, R277, R278.) -/
def Obligations.SignalsComplete : Prop :=
  (∀ (s : State) (p : Pid) (t : Fin 16) (w : Nat), Presents s p .send t w → sendRoom s p = true →
    exec (.signalSend p) s = .next (advance (sendSignal ((fetched s p t).modSq p (fun q => { q with
      signalsSent := sat64 q.signalsSent 1 })) p
      (((List.range 56).filter (fun l => bit w l)).filterMap (fun l => (fetched s p t).pidOf l)) (bits w 111 106)) p t))
  ∧ (∀ (s : State) (p : Pid) (t : Fin 16) (w : Nat) (q : Pid), Presents s p .remoteComplete t w → sendRoom s p = true →
    ((fetched s p t).modSq p (fun x => { x with signalsSent := sat64 x.signalsSent 1 })).pidOf (bits w 111 106) = some q →
    exec (.remoteComplete p) s = .next (advance (sendSk ((fetched s p t).modSq p (fun x => { x with
      signalsSent := sat64 x.signalsSent 1 })) .remoteComplete p q.val (bits w 105 94)) p t))
  ∧ (∀ (s : State) (p : Pid) (t : Fin 16) (w : Nat) (q : Pid), Presents s p .remoteRelease t w → sendRoom s p = true →
    ((fetched s p t).modSq p (fun x => { x with signalsSent := sat64 x.signalsSent 1 })).pidOf (bits w 111 106) = some q →
    exec (.remoteRelease p) s = .next (advance (sendSk ((fetched s p t).modSq p (fun x => { x with
      signalsSent := sat64 x.signalsSent 1 })) .remoteRelease p q.val (bits w 105 94)) p t))
  ∧ (∀ (s : State) (p : Pid), sendRoom s p = false → exec (.signalSend p) s = .next s
    ∧ exec (.remoteComplete p) s = .next s ∧ exec (.remoteRelease p) s = .next s)
  ∧ (∀ (s : State) (p src : Pid) (m : CobaltMsg) (rest : List CobaltMsg), s.nodeLive p.val = true →
    takeMsg s.mesh.cobalt .signal src.val p.val = some (m, rest) → m.epoch = s.mesh.epoch → cobaltAdmitted m = true →
    exec (.signalReceived p src) s = .next (
      let u := recvCobalt { s with mesh := { s.mesh with cobalt := rest } } p.val
      bumpSG (u.modSq p (fun q => { q with signalsReceived := sat64 q.signalsReceived 1 })) p m.arg))
  ∧ (∀ (s : State) (p src : Pid) (m : CobaltMsg) (rest : List CobaltMsg), s.nodeLive p.val = true →
    takeMsg s.mesh.cobalt .remoteComplete src.val p.val = some (m, rest) → m.epoch = s.mesh.epoch → cobaltAdmitted m = true →
    exec (.remoteCompleteReceived p src) s = .next (
      let u := recvCobalt { s with mesh := { s.mesh with cobalt := rest } } p.val
      slotCompletion u p m.arg))
  ∧ (∀ (s : State) (p src : Pid) (m : CobaltMsg) (rest : List CobaltMsg), s.nodeLive p.val = true →
    takeMsg s.mesh.cobalt .remoteRelease src.val p.val = some (m, rest) → m.epoch = s.mesh.epoch → cobaltAdmitted m = true →
    exec (.remoteReleaseReceived p src) s = .next (
      let u := recvCobalt { s with mesh := { s.mesh with cobalt := rest } } p.val
      Machine.slotRelease u p m.arg))
  ∧ (∀ (s : State) (p src : Pid) (m : CobaltMsg) (rest : List CobaltMsg), s.nodeLive p.val = true →
    takeMsg s.mesh.cobalt .signal src.val p.val = some (m, rest) → (m.epoch ≠ s.mesh.epoch ∨ cobaltAdmitted m = false) →
    exec (.signalReceived p src) s = .next ({ s with mesh := { s.mesh with cobalt := rest } }.modRt (nodeOf p)
      (fun r => { r with cobaltDiscarded := sat64 r.cobaltDiscarded 1 })))

/-- Where a word is presented and stands, and no double-bit error waits in its granules, the state after its fetch
differs from the state before only in the sequencer's WORDS (one more, unless the word is presented again), the
sequencer port's ACCESSES, CONFLICT, ROTATOR_SPLITS and RMW of that skillet, the single-bit errors that the read
meets, and the counter of free values: every task, slot and byte of pantry, every other skillet and the rest of the
module are as before. (R160, R180, R218, R222, R246.) -/
def Obligations.FetchOnlyCounts : Prop :=
  ∀ (s : State) (p : Pid) (op : WordOp) (t : Fin 16) (w : Nat), Presents s p op t w →
    (∀ e ∈ (s.pn p).errors, granuleIn (16 * (s.task p t).pc) 16 e.1 = true → e.2 = false) →
    (∀ q : Pid, q ≠ p → (fetched s p t).sk q = s.sk q)
    ∧ (∀ u : Fin 16, (fetched s p t).task p u = s.task p u)
    ∧ (∀ a : Nat, Mem.get ((fetched s p t).pn p).mem a = Mem.get (s.pn p).mem a)
    ∧ ((fetched s p t).pn p).slots = (s.pn p).slots ∧ ((fetched s p t).pn p).shelves = (s.pn p).shelves
    ∧ ((fetched s p t).pn p).poison = (s.pn p).poison
    ∧ ((fetched s p t).sq p).sg = (s.sq p).sg
    ∧ ((fetched s p t).sq p).words = (if (s.task p t).word = 0 then sat64 (s.sq p).words 1 else (s.sq p).words)
    ∧ ((fetched s p t).sk p).griddles = (s.sk p).griddles ∧ ((fetched s p t).sk p).ladles = (s.sk p).ladles
    ∧ (fetched s p t).mesh = s.mesh ∧ (fetched s p t).time = s.time ∧ (fetched s p t).recov = s.recov
    ∧ (fetched s p t).rim = s.rim ∧ (fetched s p t).links = s.links ∧ (fetched s p t).commit = s.commit

/-- At a skillet whose node is live (its sequencer powered for the first two): TASK_START of a FREE task makes it
READY at the PC with the argument in TR0, the other registers, counters and STATUS zero, and is answered with 0;
HALT_ALL makes every task FREE with counters, STATUS and loops zero, clears every signal counter, the whisk's queue
and the memory operations that wait, a task inside a shelf command stopping at its end; CLEAR_LOSS zeroes the loss
record; the tap commands switch and clear the banks. An expired slice leaves the running task READY for another; a
WAITING task whose condition holds is READY; a parity error faults a task with cause 4. (R217, R218, R219, R226, R275,
R404, R405.) -/
def Obligations.SequencerCommandsComplete : Prop :=
  (∀ (s : State) (p : Pid) (task : Fin 16) (pc : BitVec 25) (arg : W64), s.nodeLive p.val = true →
    (recvCobalt s p.val).sequences p = true → (s.task p task).st = .free →
    exec (.taskStart p task pc arg) s = .next (sendReply (kick ((recvCobalt s p.val).modTask p task (fun _ => {
      pc := pc.toNat, tr := vset (Vector.replicate 8 0) 0 arg, st := .ready, inc := (s.task p task).inc })) p) p.val 0 []))
  ∧ (∀ (s : State) (p : Pid), s.nodeLive p.val = true → s.sequences p = true →
    exec (.haltAll p) s = .next (haltAll (recvCobalt s p.val) p))
  ∧ (∀ (s : State) (p : Pid), (s.sq p).hold = none →
    ∃ t, haltAll (recvCobalt s p.val) p = t
      ∧ (∀ k : Fin 16, (t.task p k).st = .free ∧ (t.task p k).status = 0 ∧ (t.task p k).loops = []
          ∧ (t.task p k).cc = Vector.replicate 8 0
          ∧ (t.task p k).tr = (s.task p k).tr ∧ (t.task p k).pc = (s.task p k).pc)
      ∧ (t.sq p).sg = Vector.replicate 64 0 ∧ (t.sq p).current = none ∧ (t.wh p).queue = [] ∧ (t.pn p).mem = (s.pn p).mem
      ∧ (∀ m ∈ (t.pn p).memopQueue, memopReady (recvCobalt s p.val) p m = true)
      ∧ (∀ q : Pid, q ≠ p → t.sk q = s.sk q))
  ∧ (∀ (s : State) (p : Pid) (t : Fin 16), (s.sq p).hold.isSome = true → (s.sq p).current = some t →
    ((haltAll (recvCobalt s p.val) p).sq p).halting = true ∧ ((haltAll (recvCobalt s p.val) p).sq p).current = some t
      ∧ ((haltAll (recvCobalt s p.val) p).task p t).status = 0
      ∧ ∀ k : Fin 16, k ≠ t → ((haltAll (recvCobalt s p.val) p).task p k).st = .free)
  ∧ (∀ (s : State) (p : Pid), s.nodeLive p.val = true →
    exec (.clearLoss p) s = .next ((recvCobalt s p.val).modWh p (fun h => { h with
      lossSum := 0, lossTokens := 0, lossNonfinite := false })))
  ∧ (∀ (s : State) (p : Pid) (t : Fin 16), (s.sq p).current = some t → (s.sq p).hold = none →
    (s.sq p).tasks.toList.any (fun x => x.st == .ready) = true →
    exec (.sliceExpired p) s = .next (leaveRunning (s.modSq p (fun q => { q with
      sliceExpired := sat64 q.sliceExpired 1 })) p t .ready))
  ∧ (∀ (s : State) (p : Pid) (t : Fin 16) (frac : Fin 1024), (s.task p t).st = .waiting →
    wakeHolds s p t ((s.atFrac frac.val).fracAt p.val) = true →
    exec (.taskWake p t frac) s = .next (kick ((s.atFrac frac.val).modTask p t Task.wake) p))
  ∧ (∀ x : Task, (Task.wake x).st = .ready ∧ (Task.wake x).waitKind = 0 ∧ (Task.wake x).tr = x.tr
    ∧ (Task.wake x).pc = (match wordOp x.word with | some .issue | some .run => x.pc | _ => (x.pc + 1) % 2 ^ 25))
  ∧ (∀ (s : State) (p : Pid) (t : Fin 16), (s.task p t).st ≠ .free → (s.task p t).st ≠ .faulted →
    exec (.taskTableParity p t) s = .next (taskFault s p t 4))
  ∧ (∀ (s : State) (p : Pid), s.nodeLive p.val = true → p ∉ trainingPids s →
    exec (.tapSwitch p) s = .next ((recvCobalt s p.val).modSk p (fun k => { k with taps := k.taps.switch })))
  ∧ (∀ (s : State) (p : Pid), s.nodeLive p.val = true →
    exec (.tapClearIdle p) s = .next ((recvCobalt s p.val).modSk p (fun k => { k with taps := { k.taps with idle := {} } })))
  ∧ (∀ (s : State) (p : Pid), s.nodeLive p.val = true →
    exec (.tapClearActive p) s = .next ((recvCobalt s p.val).modSk p (fun k => { k with
      taps := { k.taps with active := { fullRaised := k.taps.active.fullRaised } } })))

/-- With room in the queue and a descriptor that stands, RUN queues the descriptor as copied and goes on; the oldest
operation starts, the banks having taken the bit errors given, where the whisk is free, its slots let it and its shape
is not empty; an operation of no rows or columns makes its releases and completions at once; at its end its results
are written and, all writes accepted, its slots, counts, loss record and completion follow; a fault that it has met,
or a parity error, halts the queue with WHISK_FAULT. (R232, R239, R240, R243.) -/
def Obligations.WhiskComplete : Prop :=
  (∀ (s : State) (p : Pid) (t : Fin 16) (w : Nat), Presents s p .run t w → ((fetched s p t).wh p).queue.length < 4 →
    bits w 111 89 * 64 + 64 ≤ paLimit →
    let r := readRange (fetched s p t) p 4 (bits w 111 89 * 64) 64
    whiskStatus (r.2.pn p) (bits w 111 89) (whiskDescOf r.1.bytes) = 0 →
    exec (.whiskRun p) s = .next (advance (r.2.modWh p (fun h => { h with
      queue := h.queue ++ [{ addr := bits w 111 89, desc := whiskDescOf r.1.bytes, issuer := issuerOf (fetched s p t) p t w }] })) p t))
  ∧ (∀ (b : State) (p : Pid) (errs : List (Nat × Bool)) (x : WhiskOp) (rest : List WhiskOp), let s := strike b p errs
    (s.wh p).queue = x :: rest →
    (s.wh p).running = none → (s.wh p).halted = false → s.computeOn p = true → x.desc.rows ≠ 0 → x.desc.cols ≠ 0 →
    whiskSlotsOk (s.modWh p (fun h => { h with queue := rest })) p x.desc = true →
    exec (.whiskOpStart p errs) b = .next (startWhisk (s.modWh p (fun h => { h with queue := rest })) p x))
  ∧ (∀ (b : State) (p : Pid) (errs : List (Nat × Bool)) (x : WhiskOp) (rest : List WhiskOp), let s := strike b p errs
    (s.wh p).queue = x :: rest →
    (s.wh p).running = none → (s.wh p).halted = false → s.computeOn p = true → (x.desc.rows = 0 ∨ x.desc.cols = 0) →
    exec (.whiskOpStart p errs) b = .next (postCompletion ((whiskSlots (s.modWh p (fun h => { h with queue := rest })) p
      x.desc).modWh p (fun h => { h with ops := sat64 h.ops 1 })) p x.issuer 0))
  ∧ (∀ (s : State) (p : Pid) (x : WhiskOp), (s.wh p).running = some x → x.fault = 0 →
    let o := x.outs.foldl (fun (r : Bool × State) e => ((r.1 && (writeRange r.2 p 4 e.1 e.2).1), (writeRange r.2 p 4 e.1 e.2).2)) (true, s)
    o.1 = true →
    exec (.whiskOpEnd p) s = .next (
      let u := o.2.modWh p (fun h => { h.addLosses x.losses with
        running := none, ops := sat64 h.ops 1, elements := sat64 h.elements (x.desc.rows * x.desc.cols) })
      postCompletion (whiskSlots (if x.taps.isEmpty then u else tapBins u p x.taps) p x.desc) p x.issuer 0))
  ∧ (∀ (s : State) (p : Pid) (cause : Nat) (x : WhiskOp), (s.wh p).running = some x → (s.wh p).halted = false →
    (cause = 3 ∨ (cause ≠ 0 ∧ x.fault = cause)) →
    exec (.whiskFault p cause) s = .next (raiseSk (s.modWh p (fun h => { h with
      halted := true, cause := cause, running := none })) p 4 .whiskFault (names [x.addr, cause])))

/-- In a powered module a MESH_CTL message counts as received at every live node. RELEASE advances the epoch modulo 4
and ends the hold, brings the bank written during it into force with ROUTES_REBUILT where there is one, and is
answered from node 67; a clock command sets its half, raises MESH_CLOCK_CHANGED on a change, and is answered;
TABLE_WRITE to a live node enters the idle bank of its router; a parity error at a live node marks the router or the
cobalt node faulty and raises ROUTER_PARITY. (R255, R268, R271, R274, R277.) -/
def Obligations.MeshControlComplete : Prop :=
  (∀ s : State, s.powered = true → s.mesh.banksWritten = false →
    exec .meshRelease s = .next (sendReply { meshCtl s with mesh := { (meshCtl s).mesh with
      epoch := (s.mesh.epoch + 1) % 4, hold := false, banksWritten := false } } 67 0 []))
  ∧ (∀ s : State, s.powered = true → s.mesh.banksWritten = true →
    exec .meshRelease s = .next (sendReply (raiseMod { meshCtl s with mesh := { (meshCtl s).mesh with
      epoch := (s.mesh.epoch + 1) % 4, hold := false, bank := 1 - s.mesh.bank, banksWritten := false } } .routesRebuilt
      (names [1 - s.mesh.bank])) 67 0 []))
  ∧ (∀ s : State, (meshCtl s).mesh.epoch = s.mesh.epoch ∧ (meshCtl s).mesh.bank = s.mesh.bank
    ∧ (meshCtl s).mesh.outQ = s.mesh.outQ ∧ (meshCtl s).mesh.cobalt = s.mesh.cobalt ∧ (meshCtl s).sks = s.sks)
  ∧ (∀ s : State, s.powered = true → s.mesh.westHalf = true → exec .westFullClock s = .next (sendReply (raiseMod { meshCtl s with mesh := { (meshCtl s).mesh with
      westHalf := false } } .meshClockChanged (names [0, 0])) 67 0 []))
  ∧ (∀ s : State, s.powered = true → s.mesh.westHalf = false → exec .westHalfClock s = .next (sendReply (raiseMod { meshCtl s with mesh := { (meshCtl s).mesh with
      westHalf := true } } .meshClockChanged (names [0, 1])) 67 0 []))
  ∧ (∀ s : State, s.powered = true → s.mesh.eastHalf = true → exec .eastFullClock s = .next (sendReply (raiseMod { meshCtl s with mesh := { (meshCtl s).mesh with
      eastHalf := false } } .meshClockChanged (names [1, 0])) 67 0 []))
  ∧ (∀ s : State, s.powered = true → s.mesh.eastHalf = false → exec .eastHalfClock s = .next (sendReply (raiseMod { meshCtl s with mesh := { (meshCtl s).mesh with
      eastHalf := true } } .meshClockChanged (names [1, 1])) 67 0 []))
  ∧ (∀ (s : State) (node : Fin 68) (dest : Fin 128) (e : W64), s.nodeLive node.val = true →
    exec (.tableWrite node dest e) s = .next (
      let u := s.modRt node (fun r => { r with
        tables := vmod r.tables (Fin.ofNat 2 (1 - s.mesh.bank)) (fun t => Tab.put t dest.val (Config.tableEntry e)),
        cobaltReceived := sat64 r.cobaltReceived 1 })
      { u with mesh := { u.mesh with banksWritten := true } }))
  ∧ (∀ (s : State) (node : Fin 68), s.nodeLive node.val = true →
    exec (.routerParity node false) s = .next ((raise s node.val .routerParity (routerPloc node) (names [0])).modRt node
      (fun r => { r with faulty := true })))
  ∧ (∀ (s : State) (node : Fin 68), s.nodeLive node.val = true →
    exec (.routerParity node true) s = .next ((raise s node.val .routerParity
      (if node.val < 64 then plocUnit node.val 0x11 else routerPloc node) (names [1])).modRt node
      (fun r => { r with cobaltFaulty := true })))

/-- In a powered module MESH_CTL HOLD answers a next state in which the mesh is held, no router output and no slack
buffer holds a traffic flit, no router holds a landed traffic flit or an open merge entry, no cobalt signal, remote
completion or remote release is in flight, and the commit record, the lifecycle state and the stacks are as before.
(R270.) -/
def Obligations.HoldDiscardsTraffic : Prop :=
  ∀ s : State, s.powered = true → ∃ t, exec .meshHold s = .next t ∧ t.mesh.hold = true
    ∧ (∀ e ∈ t.mesh.outQ, ∀ x ∈ e.2, heldKind x.flit.kind = false)
    ∧ (∀ n : Fin 68, (t.rt n).merge = [] ∧ (t.rt n).reorder.all (fun f => !heldKind f.kind) = true)
    ∧ (∀ m ∈ t.mesh.cobalt, m.kind ≠ .signal ∧ m.kind ≠ .remoteComplete ∧ m.kind ≠ .remoteRelease)
    ∧ t.commit = s.commit ∧ t.life = s.life ∧ t.mesh.epoch = s.mesh.epoch

/-- A flit at a router that routes, with credit and room, leaves its output, is counted and enters its destination,
the next router or the elastic buffer of the seam; the fourth failure marks the link down; a beat on a cobalt link is
retried as a flit is. The WRITE flit at the head of a landing buffer lands and is acknowledged with its status; a
MERGE flit of an open tag that agrees with it is added, one of a new tag opens an entry; an ordered position whose
contributions are held is merged in order. A branch releases its stored copies; a CANCEL discards the stopped ladle's
waiting flits; a lagging receiver is counted. (R168, R174, R258, R261, R264, R265, R266, R267, R272, R273, R274,
R276.) -/
def Obligations.MeshFlitsComplete : Prop :=
  (∀ (s : State) (node : Fin 68) (cls : TClass) (vc : Fin 3) (fails : Nat) (x : QFlit) (rest : List QFlit),
    takeFlit (s.outQ node.val 4) cls vc.val = some (x, rest) → s.routes node = true → node.val < 64 →
    hasCredit s node 4 x.flit.cls x.flit.vc = true →
    exec (.flitHop node 4 cls vc fails) s = .next (deliver ((s.setOutQ node.val 4 rest).modRt node (fun r => { r with
      flitsOut := bump4 r.flitsOut x.flit.cls 1 })) node node.val x.flit))
  ∧ (∀ (s : State) (node : Fin 68) (out : Fin 16) (cls : TClass) (vc : Fin 3) (fails : Nat) (x : QFlit) (rest : List QFlit),
    takeFlit (s.outQ node.val out.val) cls vc.val = some (x, rest) → s.routes node = true → out.val < 4 → node.val < 64 →
    seamOut node.val 4 out.val 0 = none → linkUp s node out.val = true →
    let n := linkEnd node.val out.val
    let next : Fin 68 := Fin.ofNat 68 n.1
    s.routes next = true →
    (fails < 4 → hasCredit s node out.val x.flit.cls x.flit.vc = true → canAccept s next n.2 x.flit = true →
      exec (.flitHop node out cls vc fails) s = .next (enterNode (((noteRetry s node out.val fails).setOutQ node.val out.val
        rest).modRt node (fun r => { r with flitsOut := bump4 r.flitsOut x.flit.cls 1 })) next n.2 x.flit))
    ∧ (4 ≤ fails → exec (.flitHop node out cls vc fails) s = .next (raiseRt (markDown (noteRetry s node out.val 3) node out.val)
        node .meshLinkDown (names [out.val]))))
  ∧ (∀ (s : State) (node : Fin 68) (out : Fin 16) (cls : TClass) (vc : Fin 3) (fails : Nat) (x : QFlit) (rest : List QFlit),
    takeFlit (s.outQ node.val out.val) cls vc.val = some (x, rest) → s.routes node = true → out.val < 4 → node.val < 64 →
    seamOut node.val 4 out.val 0 ≠ none → hasCredit s node out.val x.flit.cls x.flit.vc = true →
    exec (.flitHop node out cls vc fails) s = .next (
      let u := (s.setOutQ node.val out.val rest).modRt node (fun r => { r with flitsOut := bump4 r.flitsOut x.flit.cls 1 })
      u.setOutQ node.val 6 (u.outQ node.val 6 ++ [x])))
  ∧ (∀ (s : State) (node : Fin 68) (out : Fin 16) (cls : TClass) (vc : Fin 3) (fails : Nat), s.nodeLive node.val = true →
    node.val < 64 → 8 ≤ out.val → out.val < 12 → (s.rt node).cobaltDown.getLsbD (downBit (out.val - 8)) = false → fails < 4 →
    exec (.flitHop node out cls vc fails) s = .next (noteRetry s node out.val fails))
  ∧ (∀ (s : State) (node : Fin 68) (out : Fin 16),
    exec (.mcastBranchRelease node out) s = .next (releaseBranch 16 s node out.val))
  ∧ (∀ (s : State) (p : Pid) (cls : TClass) (f : Flit) (rest : List Flit), landingOf s p cls = f :: rest →
    (f.kind = .write ∨ f.kind = .mcastWrite) → s.computeOn p = true → (slotHolds s p f = false ∨ f.payload = []) →
    exec (.flitLanding p cls) s = .next (
      let r := landWrite (countLanded (setLanding s p cls rest) p cls) p f
      sendAcks r.2 p.val f r.1))
  ∧ (∀ (s : State) (p : Pid) (f : Flit) (rest : List Flit) (e : MergeEntry), landingOf s p .vermilion = f :: rest →
    f.kind = .merge → s.computeOn p = true → s.mesh.ordered = false → mergeEntry s p f.sumTag = some e →
    mergeMismatch e f = false → mergeOutside s p f = false →
    exec (.mergeLanding p) s = .next (mergeWrite (countLanded (setLanding s p .vermilion rest) p .vermilion) p e f))
  ∧ (∀ (s : State) (p : Pid) (f : Flit) (rest : List Flit), landingOf s p .vermilion = f :: rest →
    f.kind = .merge → s.computeOn p = true → s.mesh.ordered = false → mergeEntry s p f.sumTag = none →
    (s.rt (nodeOf p)).merge.length < 16 → mergeMismatch (openEntry f) f = false → mergeOutside s p f = false →
    slotHolds s p f = false →
    exec (.mergeLanding p) s = .next (mergeWrite (countLanded (setLanding s p .vermilion rest) p .vermilion) p (openEntry f) f))
  ∧ (∀ (s : State) (p : Pid) (f : Flit) (e : MergeEntry), (s.rt (nodeOf p)).reorder = [f] → f.fanin ≤ 1 →
    entryFor s p f = some e →
    exec (.orderedMerge p) s = .next (mergeWrite (giveCredit (s.modRt (nodeOf p) (fun r => { r with reorder := [] })) f) p e f))
  ∧ (∀ (s : State) (p : Pid) (cls : TClass) (c : Flit) (before after : List Flit),
    landingOf s p cls = before ++ c :: after → c.kind = .cancel → before.all (fun f => f.kind != .cancel) = true →
    exec (.cancelReceived p cls) s = .next (
      let mine (f : Flit) : Bool := f.src == c.src && f.ladle == c.ladle && (f.kind == .write || f.kind == .mcastWrite)
      countDiscard (setLanding s p cls (before.filter (fun f => !mine f) ++ after)) (nodeOf p) (before.filter mine).length))
  ∧ (∀ (s : State) (p q : Pid) (l : Fin 8),
    (s.ld p l).portions.any (fun x => x.space == .multicast && x.sent && x.acks.map (fun a => a.1) == [q.val]) = true →
    (s.ld p l).lagRaised = true →
    exec (.mcastLag p l q) s = .next (({ s with free := s.free + 1 }.modRt (nodeOf p) (fun r => { r with
      lag := Tab.put r.lag q.val (sat64 (Tab.at r.lag q.val 0) ((s.rt (nodeOf p)).mcastLagLimit + Config.freeNat s.free)) })).modLd
        p l (fun d => { d with lagRaised := true })))

/-- A REG_READ of a unit register of a live skillet is counted at its node and replied to with status 0 and the
register's value; a REG_WRITE of a register that a write changes is replied to with the status of that write, whose
state it leaves; a reserved unit of a live node is replied to with 0x0305. REPLY and EVENT_RECORD take the oldest such
message of a node, of the epoch in force and admitted, out of the network, and the record is handled. (R271, R277,
R404.) -/
def Obligations.RegisterMessagesComplete : Prop :=
  (∀ (s : State) (node : Fin 69) (unit : Fin 32) (off v : Nat), s.nodeLive node.val = true → node.val < 64 → unit.val ≤ 0x10 →
    off % 8 = 0 → regValue (recvCobalt s node.val) node.val unit.val off = some v →
    exec (.regRead node unit off) s = .next (sendReply (recvCobalt s node.val) node.val 0 [v]))
  ∧ (∀ (s : State) (node : Fin 69) (unit : Fin 32) (off : Nat), s.nodeLive node.val = true →
    unitReserved node.val unit.val = true →
    exec (.regRead node unit off) s = .next (sendReply (recvCobalt s node.val) node.val 0x0305 []))
  ∧ (∀ (s : State) (node : Fin 69) (unit : Fin 32) (off status : Nat) (value : W64) (u : State), s.nodeLive node.val = true →
    unitReserved node.val unit.val = false → writeReg (recvCobalt s node.val) node.val unit.val off value.toNat = some (status, u) →
    exec (.regWrite node unit off value) s = .next (sendReply u node.val status []))
  ∧ (∀ (s : State) (p : Pid) (l : Fin 8) (v : Nat), 64 ≤ v → v ≤ 1048576 →
    writeReg s p.val (8 + l.val) 0x40 v = some (0, s.modLd p l (fun d => { d with lateLimit := v })))
  ∧ (∀ (s : State) (p : Pid) (l : Fin 8) (v : Nat), 1048576 < v → writeReg s p.val (8 + l.val) 0x40 v = some (0x0304, s))
  ∧ (∀ (s : State) (node : Fin 69) (m : CobaltMsg) (rest : List CobaltMsg),
    takeMsg s.mesh.cobalt .reply node.val 68 = some (m, rest) →
    (node.val < 68 → m.epoch = s.mesh.epoch ∧ cobaltAdmitted m = true) →
    exec (.reply node) s = .next { s with mesh := { s.mesh with cobalt := rest } })
  ∧ (∀ (s : State) (node : Fin 69) (m : CobaltMsg) (rest : List CobaltMsg) (r : EventRec), s.life.st ≠ .off →
    takeMsg s.mesh.cobalt .event node.val 68 = some (m, rest) →
    (node.val < 68 → m.epoch = s.mesh.epoch ∧ cobaltAdmitted m = true) → m.record = some r →
    exec (.eventRecord node) s = .next (handleRecord { s with mesh := { s.mesh with cobalt := rest } } r))

/-- In a powered module: a temperature of 85 °C or more in a cool stack doubles the refresh rate and raises STACK_HOT,
and is only held in a hot one; one below 80 °C returns it to normal; between them the rate stays. ECS_READ holds the
on-die results. Scrub of a burst with an uncorrectable error leaves the burst marked in the stack, counts it and puts
its row in the repair list, as a CONTAINED event in a persistent region and a NOTICE one elsewhere; a corrected error
is counted by row; a clean burst changes nothing. A failed stack has link state 2 and its channels marked. The end of
the window starts the rows' counts again at every slice. The next MEM flit of a port leaves it. A READ part of a stack
that the controller does not refuse is served with the errors met; a refused one is counted and answered with DONE
carrying 0x0702 and its length. A READ part of a rim buffer is served there. A WRITE flit that is not refused is
written at its place with its poison, a refused one is not and its last flit counts it; only the last flit of a part
is answered with DONE. (R282, R283, R284, R286, R288, R299, R300, R303.) -/
def Obligations.StacksComplete : Prop :=
  (∀ (s : State) (sl : Slice) (temp : Nat), s.powered = true → 85 ≤ temp → (s.slice sl).mc.hot = false →
    exec (.stackTempRead sl temp) s = .next (raiseMc (s.modMc sl (fun m => { m with temp := min temp 255, hot := true })) sl
      .stackHot (names [temp])))
  ∧ (∀ (s : State) (sl : Slice) (temp : Nat), s.powered = true → 85 ≤ temp → (s.slice sl).mc.hot = true →
    exec (.stackTempRead sl temp) s = .next (s.modMc sl (fun m => { m with temp := min temp 255, hot := true })))
  ∧ (∀ (s : State) (sl : Slice) (temp : Nat), s.powered = true → temp < 80 →
    exec (.stackTempRead sl temp) s = .next (s.modMc sl (fun m => { m with temp := temp, hot := false })))
  ∧ (∀ (s : State) (sl : Slice) (temp : Nat), s.powered = true → 80 ≤ temp → temp < 85 →
    exec (.stackTempRead sl temp) s = .next (s.modMc sl (fun m => { m with temp := temp })))
  ∧ (∀ (s : State) (sl : Slice) (n : Nat), s.powered = true →
    exec (.ecsRead sl n) s = .next (s.modMc sl (fun m => { m with ecsCorrected := n })))
  ∧ (∀ (s : State) (sl : Slice) (burst : Nat) (e : Ecc), s.powered = true → burst < 96 * 2 ^ 24 →
    e = .double ∨ (s.slice sl).mc.bad.contains burst = true →
    exec (.stackScrub sl burst e) s = .next (stackUncorrectable s sl burst
      (if persistentLocal s (burst * 64) then .contained else .notice)))
  ∧ (∀ (s : State) (sl : Slice) (burst : Nat), s.powered = true → burst < 96 * 2 ^ 24 → (s.slice sl).mc.bad.contains burst = false →
    exec (.stackScrub sl burst .single) s = .next (stackCorrected s sl burst)
      ∧ exec (.stackScrub sl burst .clean) s = .next s)
  ∧ (∀ (s : State) (sl : Slice) (channels : BitVec 32), s.powered = true →
    exec (.stackFailed sl channels) s = .next (raiseMc (s.modMc sl (fun m => { m with
      link := 2, failed := m.failed ||| channels })) sl .stackFailed (names [channels.toNat])))
  ∧ (∀ s : State, exec .stackRowWindowEnd s = .next (allSlices.foldl
      (fun t sl => t.modMc sl (fun m => { m with rowCe := [], ceRaised := false })) s))
  ∧ (∀ (s t : State) (sl : Fin 36) (h : sl.val < 32) (f : Flit) (errs : List (Nat × Bool)),
    rimTake s (64 + sl.val) [.memRead, .memWrite] = some (f, t) → f.kind = .memRead →
    exec (.memRead sl errs) s = .next (if partRefused t f false then
      sendDone (refusePart t ⟨sl.val, h⟩) (64 + sl.val) f f.len 0x0702 else readPart t ⟨sl.val, h⟩ f errs))
  ∧ (∀ (s t : State) (i : Fin 4) (sl : Fin 36) (f : Flit) (errs : List (Nat × Bool)), sl.val = 32 + i.val →
    rimTake s (64 + sl.val) [.memRead, .memWrite] = some (f, t) → f.kind = .memRead →
    exec (.memRead sl errs) s = .next (readBuffer t i f errs))
  ∧ (∀ (s t : State) (sl : Fin 36) (h : sl.val < 32) (f : Flit),
    rimTake s (64 + sl.val) [.memRead, .memWrite] = some (f, t) → f.kind = .memWrite → partRefused t f true = false →
    exec (.memWrite sl) s = .next (
      let spoilt := f.poison.map (fun g => (f.loc + 8 * g) / 64)
      let u := (writeStack t ⟨sl.val, h⟩ f.loc f.payload).modMc ⟨sl.val, h⟩ (fun m => { m with
        bad := spoilt.foldl insertNat m.bad, rewrites := m.rewrites.filter (fun e => !spoilt.contains e.1) })
      if f.last then sendDone u (64 + sl.val) f 0 0 else u))
  ∧ (∀ (s t : State) (sl : Fin 36) (h : sl.val < 32) (f : Flit),
    rimTake s (64 + sl.val) [.memRead, .memWrite] = some (f, t) → f.kind = .memWrite → partRefused t f true = true →
    exec (.memWrite sl) s = .next (if f.last then sendDone (refusePart t ⟨sl.val, h⟩) (64 + sl.val) f 0 0x0702 else t))
  ∧ (∀ (s t : State) (i : Fin 4) (sl : Fin 36) (f : Flit), sl.val = 32 + i.val →
    rimTake s (64 + sl.val) [.memRead, .memWrite] = some (f, t) → f.kind = .memWrite →
    exec (.memWrite sl) s = .next (
      let u := t.modBuffer i (fun b =>
        { b with
          mem := Mem.store b.mem f.loc f.payload
          poison := (f.poison.map (fun g => f.loc / 8 + g)).foldl insertNat
            (b.poison.filter (fun g => !(f.loc ≤ 8 * g && 8 * g + 8 ≤ f.loc + f.payload.length))) })
      if f.last then sendDone u (64 + sl.val) f 0 0 else u))

/-- In ordinary mode the next RIM_WRITE or RIM_ADD flit of a slice leaves its port and each of its operations is
received in turn. The next operation on a block, taken from the adder's queue, is applied; a ring's delivery then goes
on as a row sum or a final block. An operation on a padding block changes nothing, and one for a bucket whose share is
complete is not applied but raises BUCKET_OVERRUN. Adder parity drops the operation at the adder, which writes nothing
back. A fault of an update engine at work on a block of its stripes, in N, G or A, stops it there with its cause:
parity, where it has met no poisoned input before, or the poisoned input that it has met. In N and A the engine is as
it was when the fault came; in G it has first done the blocks before. (R304, R305, R307, R314, R330, R332.) -/
def Obligations.RemoteAccumulateComplete : Prop :=
  (∀ (s t : State) (sl : Slice) (f : Flit), s.mesh.ordered = false → t.mesh.ordered = false →
    rimTake s (64 + sl.val) [.rimWrite, .rimAdd] = some (f, t) → f.kind = .rimWrite →
    exec (.rimWrite sl) s = .next (noteProgress ((flitOps f false).foldl (fun u o => receiveRa u sl o) t) 0))
  ∧ (∀ (s t : State) (sl : Slice) (f : Flit), s.mesh.ordered = false → t.mesh.ordered = false →
    rimTake s (64 + sl.val) [.rimWrite, .rimAdd] = some (f, t) → f.kind = .rimAdd →
    exec (.rimAdd sl) s = .next (noteProgress ((flitOps f true).foldl (fun u o => receiveRa u sl o) t) 0))
  ∧ (∀ (s : State) (sl : Slice) (o : RaOp), s.padding o.block = true → receiveRa s sl o = s)
  ∧ (∀ (s : State) (sl : Slice) (o : RaOp) (b : Nat), s.padding o.block = false → bucketOf s o.block = some b →
    bucketComplete s b sl = true →
    receiveRa s sl o = raiseMc (s.modRed (fun r => { r with overruns := sat64 r.overruns 1 })) sl .bucketOverrun
      (names [s.commit.step, b]))
  ∧ (∀ (s : State) (sl : Slice) (block : Nat) (o : RaOp) (t : State), takeRa s sl block = some (o, t) →
    exec (.raBlockOp sl block) s =
      .next (if o.src = 64 then ringDelivered (applyRa t sl o) sl block else applyRa t sl o))
  ∧ (∀ (s : State) (sl : Slice) (o : RaOp), o.add = false →
    applyRa s sl o = (writeBlock s o.block o.g).modMc sl (fun m => { m with raWrites := sat64 m.raWrites 1 }))
  ∧ (∀ (s : State) (sl : Slice) (block : Nat) (o : RaOp) (t : State), takeRa s sl block = some (o, t) →
    exec (.raFault sl block) s = .next (raiseMc t sl .raFault (names [block])))
  ∧ (∀ (s : State) (sl : Slice) (cause block : Nat), (s.slice sl).ue.phase ≠ 0 → (s.slice sl).ue.stopped = false →
    ueAt s sl block = true →
    cause = 1 ∧ ((ueReach s sl block cause).slice sl).ue.poisonAt = none
      ∨ cause = 2 ∧ ((ueReach s sl block cause).slice sl).ue.poisonAt = some block →
    exec (.ueFault sl cause block) s = .next (raiseUe ((ueReach s sl block cause).modUe sl (fun u => { u with
      phase := 0, cause := cause, faults := sat64 u.faults 1, gDone := false, stopped := true })) sl .ueFault
      (cause * 2 ^ 62 + block % 2 ^ 36)))
  ∧ (∀ (s : State) (sl : Slice) (block cause : Nat), (s.slice sl).ue.phase ≠ 2 → ueReach s sl block cause = s)

/-- A write of 5010 that passes the common checks: in PAUSED or READY a value that its entry takes is in force at
once, in RUNNING it joins the pending set; RULE takes 0 to 2, BETA1 a finite value of at least 0 and below 1.
APPLY_STEP in RUNNING must lie above the step counter. A class range whose reserved bit is 0, whose FIRST does not lie
above its LAST where it is enabled and which overlaps no other is held. A value above its range is refused with 0x0304
and leaves the settings. A write that passes the common checks: CLIP_NORM holds a finite value of at least 0,
SKIP_LIMIT 0 to 1024, ORDERED is taken in READY, PAUSED and SERVICE and refused with 0x0401 in RUNNING, CHECK_DIVISOR
holds a power of two from 16 to 4096 and is refused with 0x0306 for another number of that range, REDUCE_EPOCH is
taken in RECOVERING and READY. QUIET_STEPS holds 1 to 65,535. (R312, R313, R322, R323, R352, R356, R360, R415.) -/
def Obligations.TrainingWritesComplete : Prop :=
  (∀ (s : State) (sub : Nat) (r : Req) (x : Session), Passes s r 0x5010 sub x →
    s.life.st = .paused ∨ s.life.st = .ready → optimStatus s.rim.optim sub r = 0 →
    exec (.optimizerWrite sub r) s = .next (storeAnswer (
      { countFrame s r with rim := { s.rim with optim := s.rim.optim.set sub (reqNat r) } }) r 0))
  ∧ (∀ (s : State) (sub : Nat) (r : Req) (x : Session), Passes s r 0x5010 sub x → s.life.st = .running →
    optimStatus (optimPending s) sub r = 0 →
    exec (.optimizerWrite sub r) s = .next (storeAnswer (
      { countFrame s r with rim := { s.rim with optimNext := s.rim.optimNext ++ [(sub, reqNat r)] } }) r 0))
  ∧ (∀ (s : State) (r : Req) (x : Session), Passes s r 0x5010 1 x → s.life.st = .paused → reqNat r ≤ 2 →
    exec (.optimizerWrite 1 r) s = .next (storeAnswer (
      { countFrame s r with rim := { s.rim with optim := { s.rim.optim with rule := reqNat r } } }) r 0))
  ∧ (∀ (s : State) (r : Req) (x : Session), Passes s r 0x5010 1 x → s.life.st = .running → reqNat r ≤ 2 →
    exec (.optimizerWrite 1 r) s = .next (storeAnswer (
      { countFrame s r with rim := { s.rim with optimNext := s.rim.optimNext ++ [(1, reqNat r)] } }) r 0))
  ∧ (∀ (s : State) (r : Req) (x : Session), Passes s r 0x5010 1 x → 2 < reqNat r →
    exec (.optimizerWrite 1 r) s = .next (storeAnswer (
      { countFrame s r with dict := { (countFrame s r).dict with
        opsRejected := sat64 (countFrame s r).dict.opsRejected 1 } }) r 0x0304))
  ∧ (∀ (s : State) (r : Req) (x : Session), Passes s r 0x5010 7 x → s.life.st = .ready → f32Below1 (reqF32 r) = 0 →
    exec (.optimizerWrite 7 r) s = .next (storeAnswer (
      { countFrame s r with rim := { s.rim with optim := { s.rim.optim with beta1 := reqF32 r } } }) r 0))
  ∧ (∀ (s : State) (r : Req) (x : Session), Passes s r 0x5010 0x20 x → s.life.st = .running →
    s.commit.step < reqNat r →
    exec (.applyStep r) s = .next (storeAnswer (
      { countFrame s r with rim := { s.rim with applyStep := reqNat r, applySet := true } }) r 0))
  ∧ (∀ (s : State) (i : Fin 64) (r : Req) (x : Session), Passes s r 0x5011 i.val x → s.life.st = .ready →
    bit (reqNat r) 60 = false → (bit (reqNat r) 61 = true → bits (reqNat r) 59 30 ≤ bits (reqNat r) 29 0) →
    (∀ k : Fin 64, k ≠ i → rangesOverlap (reqNat r) (vget s.rim.optim.classes k) = false) →
    exec (.classRangeWrite i r) s = .next (storeAnswer (
      { countFrame s r with rim := { s.rim with
        optim := { s.rim.optim with classes := vset s.rim.optim.classes i (reqNat r) } } }) r 0))
  ∧ (∀ (s : State) (r : Req) (x : Session), Passes s r 0x6100 1 x → (f32num (reqF32 r)).isFin = true →
    Machine.Num.lt (f32num (reqF32 r)) (numOf 0 0) = false →
    exec (.clipNormWrite r) s = .next (storeAnswer ((countFrame s r).modRed (fun x => { x with clipNorm := reqF32 r })) r 0))
  ∧ (∀ (s : State) (r : Req) (x : Session), Passes s r 0x6100 2 x → reqNat r ≤ 1024 →
    exec (.skipLimitWrite r) s = .next (storeAnswer ((countFrame s r).modRed (fun x => { x with skipLimit := reqNat r })) r 0))
  ∧ (∀ (s : State) (r : Req) (x : Session), Passes s r 0x6101 1 x →
    s.life.st = .ready ∨ s.life.st = .paused ∨ s.life.st = .service →
    exec (.orderedWrite r) s = .next (storeAnswer ({ countFrame s r with
      mesh := { s.mesh with ordered := reqNat r = 1 } }) r 0))
  ∧ (∀ (s : State) (r : Req) (x : Session), Passes s r 0x6101 1 x → s.life.st = .running →
    exec (.orderedWrite r) s = .next (storeAnswer ({ countFrame s r with
      dict := { (countFrame s r).dict with opsRejected := sat64 (countFrame s r).dict.opsRejected 1 } }) r 0x0401))
  ∧ (∀ (s : State) (r : Req) (x : Session) (i : Nat), Passes s r 0x6101 2 x → 4 ≤ i → i ≤ 12 → reqNat r = 2 ^ i →
    exec (.checkDivisorWrite r) s = .next (storeAnswer ((countFrame s r).modRed (fun x => { x with divisor := 2 ^ i })) r 0))
  ∧ (∀ (s : State) (r : Req) (x : Session), Passes s r 0x6101 2 x → 16 ≤ reqNat r → reqNat r ≤ 4096 →
    (∀ i, i ≤ 12 → reqNat r ≠ 2 ^ i) →
    exec (.checkDivisorWrite r) s = .next (storeAnswer ({ countFrame s r with
      dict := { (countFrame s r).dict with opsRejected := sat64 (countFrame s r).dict.opsRejected 1 } }) r 0x0306))
  ∧ (∀ (s : State) (r : Req) (x : Session), Passes s r 0x6105 1 x → s.life.st = .recovering ∨ s.life.st = .ready →
    exec (.reduceEpochWrite r) s = .next (storeAnswer ((countFrame s r).modRed (fun x => { x with epoch := reqNat r })) r 0))
  ∧ (∀ (s : State) (r : Req) (x : Session), Passes s r 0x6000 2 x → 1 ≤ reqNat r → reqNat r ≤ 65535 →
    exec (.dictWrite 0x6000 2 r) s = .next (storeAnswer ((countFrame s r).modWatch
      (fun x => { x with quietSteps := reqNat r })) r 0))

/-- While a step is active the next bucket of a slice launches once its share is complete and applied: the owned
padding blocks become final zeros; with one module the real blocks are final at once, with more the rings start and
the sampled blocks are copied. A bucket launched, final at its owner and with nothing of it held, queued or
unacknowledged is REDUCED. A ring frame of this step whose every block's sum is still awaited is taken into the
reduction buffers, a stale one dropped. A held block that is ready goes to the adder of its memory controller at the
owner, and on the X ring elsewhere is added to the local block and sent on. Parity at an empty adder raises its event.
(R331, R334, R335, R336.) -/
def Obligations.BucketsComplete : Prop :=
  (∀ (s : State) (sl : Slice) (b : Nat), s.run.active = true → b = (s.slice sl).red.launched → b < s.red.buckets.length →
    bucketComplete s b sl = true → (s.slice sl).red.queue.any (fun o => (bucketBlocks s b sl).contains o.block) = false →
    exec (.bucketLaunch sl b) s = .next (
      let real := (bucketBlocks s b sl).filter (fun j => !s.padding j)
      let u := ((bucketBlocks s b sl).filter (fun j => s.padding j && s.ownsBlock j)).foldl
        (fun t j => finalize (writeBlock t j G16.zero) sl j)
        (noteProgress (s.modRedSl sl (fun r => { r with launched := r.launched + 1 })) 0)
      if u.modules = 1 then real.foldl (fun t j => finalize t sl j) u
      else (real.filter (sampled u)).foldl sendCopy (launchRings u sl real)))
  ∧ (∀ (s : State) (sl : Slice) (b : Nat), b < (s.slice sl).red.launched → (s.slice sl).red.reduced.contains b = false →
    ((bucketBlocks s b sl).filter (fun j => s.ownsBlock j)).all (fun j => (s.slice sl).red.final.contains j) = true →
    (s.slice sl).red.held.any (fun h => (bucketBlocks s b sl).contains h.block) = false →
    (s.slice sl).red.queue.any (fun o => (bucketBlocks s b sl).contains o.block) = false →
    (∀ n : Slice, portHolds s b sl (s.port n) = false) →
    exec (.bucketReduced sl b) s = .next (
      let u := s.modRedSl sl (fun r => { r with reduced := r.reduced ++ [b] })
      if allReduced u then noteProgress (noteProgress (noteProgress u 1) 2) 3 else u))
  ∧ (∀ (s : State) (port : Slice) (k : Nat) (c : Content), landedReduce s port k [1, 2] = some c →
    staleFrame s c [s.commit.step] = true → exec (.rsReceived port k) s = .next (dropStale s port k))
  ∧ (∀ (s : State) (port : Slice) (k : Nat) (c : Content), landedReduce s port k [1, 2] = some c →
    staleFrame s c [s.commit.step] = false → s.run.active = true → heldAt s port + (frameBlocks c).length ≤ 1024 →
    (frameBlocks c).all (fun e => sumAwaited s (c.kind == 2) e.1) = true →
    exec (.rsReceived port k) s = .next (noteProgress ((frameBlocks c).foldl (fun t e => t.modRedSl (blockSlice e.1)
      (fun r => { r with
        held := r.held ++ [⟨c.kind = 2, port.val, c.block, c.hop, e.1, e.2⟩]
        passed := r.passed ++ [(e.1, c.kind == 2)] })) (takeLanded s port k)) 0))
  ∧ (∀ (s : State) (sl : Slice) (k : Nat) (h : RingHeld), (s.slice sl).red.held[k]? = some h →
    ringReady s h.yRing h.block = true → ringPlace s h.yRing = ringOwner s h.yRing (blockStripe h.block) →
    exec (.linkAdd sl k) s = .next (queueRa (leaveHeld s sl k h) sl ⟨h.block, true, 64, h.g⟩))
  ∧ (∀ (s : State) (sl : Slice) (k : Nat) (h : RingHeld), (s.slice sl).red.held[k]? = some h → h.yRing = false →
    ringReady s false h.block = true → ringPlace s false ≠ ringOwner s false (blockStripe h.block) →
    exec (.linkAdd sl k) s = .next (
      let u := takeBlock (leaveHeld s sl k h) h.block
      let out := G16.add h.g u.1
      traceOutput (sendRing (countLinkAdd u.2 (sliceOf h.port) h.g u.1) sl false (h.hop + 1) h.block out)
        (h.hop + 1) h.block out))
  ∧ (∀ (s : State) (port : Slice), (∀ sl : Slice, (s.slice sl).red.held.any (fun h => h.port = port.val) = false) →
    exec (.linkAdderParity port) s = .next (raisePort s port .linkAdderParity (names [s.commit.step, port.val])))

/-- A CHECK frame of this step leaves the landing store, and the copies of sampled owned blocks that it carries are
stored; a stale one is dropped and counted. A sampled owned block that is final, with every copy held, is compared
once: where the fold in the order of the rings equals the delivered block nothing but CHECKED, the fold's newly
saturated values in BLOCKS_SATURATED and the trace's finding follow; where it does not, a mismatch is counted, the
block is traced in the next run of the step, and REDUCE_MISMATCH raised with the step and the block. A TRACE frame's
outputs are held and judged. (R338, R343, R344, R346.) -/
def Obligations.ChecksComplete : Prop :=
  (∀ (s : State) (port : Slice) (k : Nat) (c : Content), landedReduce s port k [5] = some c →
    staleFrame s c [s.commit.step] = false → s.run.active = true →
    (frameBlocks c).any (fun e => (s.slice (blockSlice e.1)).red.compared.contains e.1 || (copyOf s e.1 c.origin).isSome) = false →
    exec (.checkReceived port k) s = .next (
      let u := noteProgress (dropLanded s port k) 1
      ((frameBlocks c).filter (fun e => u.ownsBlock e.1 && sampled u e.1)).foldl
        (fun t e => storeCopy t ⟨e.1, c.origin, e.2⟩) u))
  ∧ (∀ (s : State) (port : Slice) (k : Nat) (c : Content), landedReduce s port k [5] = some c →
    staleFrame s c [s.commit.step] = true → exec (.checkReceived port k) s = .next (dropStale s port k))
  ∧ (∀ (s : State) (sl : Slice) (j : Nat) (f : G16), s.run.active = true → blockSlice j = sl → s.ownsBlock j = true →
    sampled s j = true → (s.slice sl).red.compared.contains j = false → (s.slice sl).red.skipped.contains j = false →
    (s.slice sl).red.final.contains j = true → fullFold s j = some f →
    exec (.checkCompare sl j) s = .next (
      let n := fullFoldSats s j
      let v := (takeBlock s j).2.modRed (fun m => { m with blocksSaturated := sat64 m.blocksSaturated n })
      let u := (noteProgress (v.modRedSl sl (fun r => { r with compared := r.compared ++ [j] })) 1).modRed
        (fun m => { m with checked := sat64 m.checked 1 })
      if f = (takeBlock s j).1 then judgeTrace u j false
      else judgeTrace (raiseMc (u.modRed (fun m => { m with
          mismatches := sat64 m.mismatches 1
          tracesNew := if m.tracesNew.contains j then m.tracesNew else m.tracesNew ++ [j] })) sl .reduceMismatch
        (u.commit.step % 65536 * 2 ^ 36 + j % 2 ^ 36)) j true))
  ∧ (∀ (s : State) (port : Slice) (k : Nat) (c : Content), landedReduce s port k [6] = some c →
    staleFrame s c [s.commit.step] = false → s.run.active = true →
    exec (.traceReceived port k) s = .next ((frameBlocks c).foldl (fun t e =>
      judgeTrace (t.modRed (fun r => { r with traceOuts := r.traceOuts ++ [⟨e.1, c.origin, e.2⟩] })) e.1
        (t.red.tracesNew.contains e.1)) (dropLanded s port k)))

/-- While a step is active a live rim strip whose eight update engines have added all their owned blocks sends its
FUSE once, with the sum of their squares, the count and the flags. With every strip's FUSE, the last bucket REDUCED,
the checks done, every training skillet's taps read and the buddy's acknowledgement (or one module) the module forms
its record once, which clears the skillets' loss records, and sends it on the X ring. A received record of this step
that is not yet held is gathered and sent on while it has hops to go. (R347, R348, R349, R350, R338.) -/
def Obligations.FusedRecordsComplete : Prop :=
  (∀ (s : State) (side : Fin 4), s.run.active = true → s.nodeLive (64 + side.val) = true → vget s.red.fuse side = none → s.red.buckets ≠ [] →
    (sideSlices side).all (fun sl => ueDone s sl) = true →
    exec (.fuse side) s = .next ((countSent s (64 + side.val)).modRed (fun r => { r with fuse := vset r.fuse side (some
      { sumsq := ((sideSlices side).map (fun sl => (s.slice sl).ue)).foldl (fun a u => f64add a u.sumsq) 0
        blocks := ((sideSlices side).map (fun sl => (s.slice sl).ue.blocks)).sum
        flags := b2n ((sideSlices side).any (fun sl => (s.slice sl).ue.nonfinite))
          + 2 * b2n ((sideSlices side).any (fun sl => (s.slice sl).ue.sat))
          + 4 * b2n ((sideSlices side).any (fun sl => (s.slice sl).ue.sovf)) }) })))
  ∧ (∀ s : State, s.run.active = true → s.red.sent = false → s.red.fuse.toList.all (fun m => m.isSome) = true →
    allReduced s = true → checksDone s = true → (trainingPids s).all (fun p => s.watch.read.contains p) = true →
    s.modules = 1 ∨ s.rim.acked = true →
    exec .fusedRecordForm s = .next (
      let f := formFused s
      let u := ((trainingPids s).foldl (fun t p => clearLoss (recvCobalt t p.val) p) s).modRed
        (fun r => { r with sent := true, gathered := Tab.put r.gathered f.shard f })
      sendRow (if 1 < u.torus.x then sendFused u false 0 f else u)))
  ∧ (∀ (s : State) (port : Slice) (k : Nat) (c : Content), landedReduce s port k [9] = some c →
    staleFrame s c [s.commit.step] = false → s.run.active = true → Tab.find s.red.gathered (fusedOf c.bytes).shard = none →
    exec (.fusedReceived port k) s = .next (
      let f := fusedOf c.bytes
      let u := (noteProgress (dropLanded s port k) 2).modRed (fun r => { r with gathered := Tab.put r.gathered f.shard f })
      let y := f.shard / max 1 u.torus.x != u.torus.cy
      sendRow (if c.hop + 2 < ringSize u y then sendFused u y (c.hop + 1) f else u)))
  ∧ (∀ (s : State) (port : Slice) (k : Nat) (c : Content), landedReduce s port k [9] = some c →
    staleFrame s c [s.commit.step] = true → exec (.fusedReceived port k) s = .next (dropStale s port k))

/-- At an all-wait point that waits and has reported nothing in this run, once STALL_LIMIT beats have gone by since
its last contribution, the expiry counts once, the point is noted as reported and WATCHDOG_STALL names it with the
contributors it misses. Where it has reported, nothing happens. A step that has run for STEP_LIMIT likewise raises
WATCHDOG_STEP once. (R339, R340.) -/
def Obligations.WatchdogOnlyReports : Prop :=
  (∀ (s : State) (point : Fin 6), point.val ≠ 5 → (waitingAt s point).1 = true →
    s.run.stallRaised.contains point.val = false → vget s.run.progress point + s.red.stallLimit ≤ s.time.ticks →
    exec (.watchdogStall point) s = .next (raiseMod ((s.modRed (fun r => { r with
        watchdogExpiries := sat64 r.watchdogExpiries 1 })).modRun (fun r => { r with
        stallRaised := r.stallRaised ++ [point.val] })) .watchdogStall (names (point.val :: (waitingAt s point).2))))
  ∧ (∀ s : State, (waitingAt s 5).1 = true → s.recov.stallRaised = false →
    vget s.run.progress 5 + s.red.stallLimit ≤ s.time.ticks →
    exec (.watchdogStall 5) s = .next (raiseMod { s.modRed (fun r => { r with
        watchdogExpiries := sat64 r.watchdogExpiries 1 }) with recov := { s.recov with stallRaised := true } }
      .watchdogStall (names (5 :: (waitingAt s 5).2))))
  ∧ (∀ (s : State) (point : Fin 6), point.val ≠ 5 → s.run.stallRaised.contains point.val = true →
    exec (.watchdogStall point) s = .next s)
  ∧ (∀ s : State, s.run.active = true → s.run.stepRaised = false → s.run.begin_ + s.red.stepLimit ≤ s.time.ticks →
    exec .watchdogStep s = .next (raiseMod ((s.modRed (fun r => { r with
        watchdogExpiries := sat64 r.watchdogExpiries 1 })).modRun (fun r => { r with stepRaised := true })) .watchdogStep
      (names [s.commit.step])))

/-- On a lit port a sequenced frame whose codewords were corrected and whose CRC holds gives its link word, and then
is accepted where its SEQ is the expected one, dropped silently where it is behind, and discarded with a NAK where it
is ahead. A frame that fails its CRC, or has a codeword that is not corrected, is counted and discarded with a NAK,
its link word not taken. A NAK received, or 4.0 µs without an ACK, replays a lane's unacknowledged frames. A lane
whose lock is lost, or whose error ratio passes 2.4e-4, fails the port; a ratio at or below BER_WARN is only held.
(R367, R368, R369, R370, R373.) -/
def Obligations.LinkLanesComplete : Prop :=
  (∀ (s : State) (port : Slice) (lane : Fin 32) (f : Frame), (s.port port).lit = true → f.content.ftype ≠ .idle →
    f.content.ftype ≠ .reservedType →
    exec (.linkFrameReceived port lane f true true) s = .next (
      let u := takeLinkWord ({ s with free := s.free + 1 }.modPort port
        (fun p => { p with fecCorrected := sat64 p.fecCorrected (Config.freeNat s.free) })) port lane.val f
      let behind := (((u.port port).lane lane.val).expect + 256 - f.seq % 256) % 256
      if behind = 0 then acceptFrame u port lane.val f else if behind ≤ 128 then u else noteDiscard u port lane.val))
  ∧ (∀ (s : State) (port : Slice) (lane : Fin 32) (f : Frame), (s.port port).lit = true → f.content.ftype ≠ .idle →
    f.content.ftype ≠ .reservedType →
    exec (.linkFrameReceived port lane f false true) s = .next (noteDiscard ({ s with free := s.free + 1 }.modPort port
        (fun p => { p with fecUncorrectable := sat64 p.fecUncorrectable (1 + Config.freeNat s.free % 2) })) port lane.val))
  ∧ (∀ (s : State) (port : Slice) (lane : Fin 32) (f : Frame), (s.port port).lit = true → f.content.ftype ≠ .idle →
    f.content.ftype ≠ .reservedType →
    exec (.linkFrameReceived port lane f true false) s = .next (noteDiscard (({ s with free := s.free + 1 }.modPort port
        (fun p => { p with fecCorrected := sat64 p.fecCorrected (Config.freeNat s.free) })).modPort port
        (fun p => { p with crcErrors := sat64 p.crcErrors 1 })) port lane.val))
  ∧ (∀ (s : State) (port : Slice) (lane : Fin 32), (s.port port).lit = true →
    ((s.port port).lane lane.val).nakGot = true →
    exec (.nakReceived port lane) s = .next (replayLane s port lane.val))
  ∧ (∀ (s : State) (port : Slice) (lane : Fin 32), (s.port port).lit = true →
    ((s.port port).lane lane.val).replay ≠ [] →
    exec (.replayTimeout port lane) s = .next (replayLane s port lane.val))
  ∧ (∀ (s : State) (port : Slice) (lane : Fin 32), (s.port port).lit = true →
    exec (.laneLockLost port lane) s = .next (failPort s port))
  ∧ (∀ (s : State) (port : Slice) (lane : Fin 32) (ber : W32), (s.port port).lit = true →
    Machine.Num.lt (numOf 24 0) (Machine.Num.mul (f32num ber) (numOf 100000 0)) = true →
    exec (.laneBerWindow port lane ber) s = .next (failPort (s.modPort port
      (fun p => { p with ber := Tab.put p.ber lane.val ber })) port))
  ∧ (∀ (s : State) (port : Slice) (lane : Fin 32) (ber : W32), (s.port port).lit = true →
    Machine.Num.lt (numOf 24 0) (Machine.Num.mul (f32num ber) (numOf 100000 0)) = false →
    Machine.Num.lt (f32num s.torus.berWarn) (f32num ber) = false →
    exec (.laneBerWindow port lane ber) s = .next (s.modPort port
      (fun p => { p with ber := Tab.put p.ber lane.val ber })))

/-- A FAILED port goes DOWN after its second, or DISABLED where its cartridge is not lit; a DOWN port with lock
TRAINS; training that ends sends it to VERIFY with fresh lanes and credits, its round trip held (LINK_LONG above 1224
ns) and HELLO said, training that times out sends it DOWN. HELLO passes a VERIFY port to STANDBY where every check
holds and to HELD with the reason of the first that fails. A HELD or VERIFY port repeats HELLO. JOIN in STANDBY,
QUIESCE in service and LAST while draining act. PORT_ENABLE 0 takes the port out of service unless a used bundle would
be left empty (0x0601). (R371, R375, R381, R382, R383, R385, R386, R399.) -/
def Obligations.PortStatesComplete : Prop :=
  (∀ (s : State) (port : Slice), (s.port port).st = .failed →
    exec (.portFailedTimeout port) s = .next (s.modPort port (fun p => { p with
      st := if (s.bay (bayOf port)).st = .lit then .down else .disabled })))
  ∧ (∀ (s : State) (port : Slice), (s.port port).st = .down →
    exec (.codewordLock port) s = .next (s.modPort port (fun p => { p with st := .training })))
  ∧ (∀ (s : State) (port : Slice), (s.port port).st = .training →
    exec (.trainingTimeout port) s = .next (s.modPort port (fun p => { p with st := .down })))
  ∧ (∀ (s : State) (port : Slice) (rtt : Nat), (s.port port).st = .training →
    exec (.trainingDone port rtt) s = .next (
      let u := s.modPort port (fun p => { p with
        st := .verify, lanes := [], landing := [], tx := [], taken := Vector.replicate 3 0, freed := Vector.replicate 3 0,
        credits := vset (vset (vset (Vector.replicate 3 0) 0 2048) 1 512) 2 64, rtt := rtt, long := 1224 < rtt })
      sendHello (if 1224 < rtt then raisePort u port .linkLong (names [port.val, rtt]) else u) port))
  ∧ (∀ (s : State) (port : Slice) (k : Nat) (c : Content), landedNeighbour s port k 1 = some c →
    (s.port port).st = .verify →
    exec (.linkHello port k) s = .next (
      let h := c.bytes.take 52
      let coord := leNat ((h.drop 44).take 2)
      let u := (noteIdentity (dropLanded s port k) port (helloIdentity h)).modPort port (fun p => { p with
        hello := h, peerPort := some ((h.drop 46).headD 0).toNat, peerCoord := if coord = 0xFFFF then none else some coord })
      if helloReason u port h = 0 then discover (joinDone (sendJoin (u.modPort port (fun p => { p with
          st := .standby, joinSent := false, joinGot := false, heldReason := 0 })) port) port)
      else raisePort (u.modPort port (fun p => { p with st := .held, heldReason := helloReason u port h })) port .portHeld
          (names [port.val, helloReason u port h])))
  ∧ (∀ (s : State) (port : Slice), (s.port port).st = .held ∨ (s.port port).st = .verify →
    exec (.helloPeriod port) s = .next (sendHello s port))
  ∧ (∀ (s : State) (port : Slice) (k : Nat) (c : Content), landedNeighbour s port k 5 = some c → (s.port port).st = .standby →
    exec (.join port k) s = .next (discover (joinDone (sendJoin ((dropLanded s port k).modPort port
      (fun p => { p with joinGot := true })) port) port)))
  ∧ (∀ (s : State) (port : Slice) (k : Nat) (c : Content), landedNeighbour s port k 6 = some c →
    (s.port port).st = .inService → exec (.quiesce port k) s = .next (beginDrain (dropLanded s port k) port))
  ∧ (∀ (s : State) (port : Slice) (k : Nat) (c : Content), landedNeighbour s port k 7 = some c →
    (s.port port).st = .draining → exec (.last port k) s = .next (drainDone ((dropLanded s port k).modPort port
      (fun p => { p with lastGot := true })) port))
  ∧ (∀ (s : State) (port : Slice) (r : Req) (x : Session), Passes s r 0x4003 port.val x → reqNat r = 0 →
    strandsBundle (countFrame s r) [port] = false →
    exec (.portEnableWrite port r) s = .next (storeAnswer (leaveService ((countFrame s r).modPort port
      (fun p => { p with enable := false })) port) r 0))
  ∧ (∀ (s : State) (port : Slice) (r : Req) (x : Session), Passes s r 0x4003 port.val x → reqNat r = 0 →
    strandsBundle (countFrame s r) [port] = true →
    exec (.portEnableWrite port r) s = .next (storeAnswer { countFrame s r with
      dict := { (countFrame s r).dict with opsRejected := sat64 (countFrame s r).dict.opsRejected 1 } } r 0x0601))

/-- A preparation takes both ports of a bay out of service and the bay is PREPARED, with CARTRIDGE_READY, once both
are DISABLED; one that would leave a used bundle empty is refused with 0x0601 and changes nothing of the links. An
EMPTY bay takes a cartridge, which warms; once LIT, outside OFF and QUARANTINED, its preparation ends and its ports
may train. A lit cartridge that fails fails its lit ports and disables the others. A removed cartridge leaves its bay
EMPTY. WEAR holds the bias and is reported as it passes 90. (R381, R389, R394, R397.) -/
def Obligations.CartridgesComplete : Prop :=
  (∀ (s : State) (b : Fin 16) (r : Req) (x : Session), Passes s r 0x4011 b.val x → reqNat r ≠ 0 →
    strandsBundle (countFrame s r) (bayPorts b) = true →
    exec (.cartridgePrepare b r) s = .next (storeAnswer { countFrame s r with
      dict := { (countFrame s r).dict with opsRejected := sat64 (countFrame s r).dict.opsRejected 1 } } r 0x0601))
  ∧ (∀ (s : State) (b : Fin 16) (r : Req) (x : Session), Passes s r 0x4011 b.val x → reqNat r ≠ 0 →
    strandsBundle (countFrame s r) (bayPorts b) = false →
    exec (.cartridgePrepare b r) s = .next (storeAnswer (
      let u := (bayPorts b).foldl (fun t n => leaveService (t.modPort n (fun p => { p with prepared := true })) n)
        ((countFrame s r).modBay b (fun y => { y with prepare := true }))
      if (u.bay b).st = .failed then bayReady ((bayPorts b).foldl disablePort u) b else u) r 0))
  ∧ (∀ (s : State) (b : Fin 16) (r : Req) (x : Session), Passes s r 0x4011 b.val x → reqNat r = 0 →
    exec (.cartridgePrepare b r) s = .next (storeAnswer ((bayPorts b).foldl
      (fun t n => portUp (t.modPort n (fun p => { p with prepared := false })) n)
      ((countFrame s r).modBay b (fun y => { y with prepare := false }))) r 0))
  ∧ (∀ (s : State) (b : Fin 16), (s.bay b).prepare = true → (s.bay b).st = .lit ∨ (s.bay b).st = .warming →
    (∀ n ∈ bayPorts b, (s.port n).st = .disabled) → exec (.cartridgeReady b) s = .next (bayReady s b))
  ∧ (∀ (s : State) (b : Fin 16) (serial : List Byte), (s.bay b).st = .empty →
    exec (.cartridgeInserted b serial) s = .next (s.modBay b (fun y => { y with
      st := .warming, serial := serial, wear := 0 })))
  ∧ (∀ (s : State) (b : Fin 16), (s.bay b).st = .warming → s.life.st ≠ .off → s.life.st ≠ .quarantined →
    exec (.cartridgeLit b) s = .next ((bayPorts b).foldl
      (fun t n => portUp (t.modPort n (fun p => { p with prepared := false })) n)
      (s.modBay b (fun y => { y with st := .lit, prepare := false }))))
  ∧ (∀ (s : State) (b : Fin 16), (s.bay b).st = .lit →
    exec (.cartridgeFailed b) s = .next ((bayPorts b).foldl (fun t n =>
        let u := if (t.port n).lit then failPort t n else t
        if (u.port n).st = .failed ∨ (u.port n).st = .disabled then u else disablePort u n)
      (raiseBay (s.modBay b (fun y => { y with st := .failed })) b .cartridgeFailed (names [b.val]))))
  ∧ (∀ (s : State) (b : Fin 16), (s.bay b).st ≠ .empty →
    exec (.cartridgeRemoved b) s = .next (((bayPorts b).foldl
      (fun t n => disablePort (if (t.port n).lit then failPort t n else t) n) s).modBay b (fun y => { y with
      st := .empty, serial := [], wear := 0 })))
  ∧ (∀ (s : State) (b : Fin 16) (bias : Nat), (s.bay b).st = .lit → (s.bay b).wear ≤ 90 → 90 < bias →
    exec (.cartridgeWear b bias) s = .next (raiseBay (s.modBay b (fun y => { y with wear := min 100 bias })) b
      .cartridgeWear (names [b.val, min 100 bias])))
  ∧ (∀ (s : State) (b : Fin 16) (bias : Nat), (s.bay b).st = .lit → 90 < (s.bay b).wear ∨ bias ≤ 90 →
    exec (.cartridgeWear b bias) s = .next (s.modBay b (fun y => { y with wear := min 100 bias })))

/-- A module with a coordinate claims on every port in STANDBY or IN_SERVICE; one without sends nothing. A CLAIM gives
a module without a coordinate the one that the sender expects here, confirms the one held, or is a conflict, reported.
A torus setting in range and consistent, in AWAIT_ADDRESS or LINK_UP, is held, with its sides DISABLED or free to
train; in any other state it is refused with 0x0401. COORD_CONFIRM of the coordinate held, in LINK_UP, leads on to
JOINED. (R378, R390, R391, R392.) -/
def Obligations.DiscoveryComplete : Prop :=
  (∀ s : State, s.torus.known = true →
    exec .claimPeriod s = .next (((List.finRange 32).filter (fun n => (s.port n).st == .standby || (s.port n).st == .inService)).foldl
      (fun t n => match portBundle t.torus n with
        | none => t
        | some b => sendNeighbour t n 2 (leBytes 2 t.torus.coord ++ leBytes 2 (neighbourCoord t.torus b))) s))
  ∧ (∀ s : State, s.torus.known = false → exec .claimPeriod s = .next s)
  ∧ (∀ (s : State) (port : Slice) (k : Nat) (c : Content), landedNeighbour s port k 2 = some c →
    exec (.claim port k) s = .next (
      let expects := leNat ((c.bytes.drop 2).take 2)
      let u := (dropLanded s port k).modPort port (fun p => { p with
        peerCoord := some (leNat (c.bytes.take 2)), peerExpects := some expects })
      if s.torus.known = false then discover (u.modTorus (fun t => { t with coord := expects }))
      else if s.torus.coord = expects then discover u
      else raisePort (u.modTorus (fun t => { t with conflict := true })) port .coordConflict (names [s.torus.coord, expects])))
  ∧ (∀ (s : State) (r : Req) (x : Session), Passes s r 0x4100 1 x → 1 ≤ reqNat r → reqNat r ≤ 32 →
    reqNat r * s.torus.y ≤ 1024 → (s.torus.double = true → s.torus.y = 1) →
    s.life.st = .awaitAddress ∨ s.life.st = .linkUp →
    exec (.torusSettingsWrite 1 r) s = .next (storeAnswer (discover (refreshSides ((countFrame s r).modTorus
      (fun t => { t with x := reqNat r })))) r 0))
  ∧ (∀ (s : State) (r : Req) (x : Session), Passes s r 0x4100 1 x → 1 ≤ reqNat r → reqNat r ≤ 32 →
    reqNat r * s.torus.y ≤ 1024 → (s.torus.double = true → s.torus.y = 1) →
    s.life.st ≠ .awaitAddress → s.life.st ≠ .linkUp →
    exec (.torusSettingsWrite 1 r) s = .next (storeAnswer { countFrame s r with
      dict := { (countFrame s r).dict with opsRejected := sat64 (countFrame s r).dict.opsRejected 1 } } r 0x0401))
  ∧ (∀ (s : State) (r : Req) (x : Session), Passes s r 0x4101 3 x → s.torus.known = true → reqNat r = s.torus.coord →
    s.life.st = .linkUp →
    exec (.coordConfirm r) s = .next (storeAnswer (setLife (countFrame s r) .joined) r 0))

/-- A droop of a running skillet stretches its clock and counts one episode; its end adds the stretched cycles. A
window with more than 1 % stretched cycles is the first, second or third in a row: the third lowers the DROOP ceiling
by one and is reported; a window without ends the row, and the hundredth in a row without raises the ceiling by one up
to 23. A ramp's end puts its level in force. An ageing reading is applied while the controller runs. A budget estimate
is held; in a running skillet without a forced level whose estimator is trusted it sets the BUDGET ceiling and the
level follows, in one whose estimator is distrusted it does no more. (R418, R419, R420, R421, R426, R432, R433.) -/
def Obligations.MonitorsComplete : Prop :=
  (∀ (s : State) (p : Pid), runs s p = true → (s.mon p).stretching = false →
    exec (.droopDetect p) s = .next (s.modMon p (fun m => { m with
      stretching := true, droopEvents := sat64 m.droopEvents 1 })))
  ∧ (∀ (s : State) (p : Pid) (cycles : Nat), (s.mon p).stretching = true →
    exec (.droopEnd p cycles) s = .next (s.modMon p (fun m => { m with
      stretching := false, droopCycles := sat64 m.droopCycles cycles })))
  ∧ (∀ (s : State) (p : Pid) (cycles stretched : Nat), s.controls = true → periodDue s (s.mon p).droopPeriod 10000 = true →
    cycles < 100 * stretched → (s.mon p).droopRun < 2 →
    exec (.droopWindow p cycles stretched) s = .next ((s.modMon p (fun m => { m with
      droopPeriod := periodNow s 10000 })).modMon p (fun m => { m with droopRun := m.droopRun + 1, droopFree := 0 })))
  ∧ (∀ (s : State) (p : Pid) (cycles stretched : Nat), s.controls = true → periodDue s (s.mon p).droopPeriod 10000 = true →
    cycles < 100 * stretched → (s.mon p).droopRun = 2 →
    exec (.droopWindow p cycles stretched) s = .next (
      let u := (s.modMon p (fun m => { m with droopPeriod := periodNow s 10000 })).modMon p (fun m => { m with
        droopRun := 0, droopFree := 0, droop := m.droop - 1 })
      settle (raiseMon u p .droopFrequent (names [(u.mon p).droop])) p))
  ∧ (∀ (s : State) (p : Pid) (cycles stretched : Nat), s.controls = true → periodDue s (s.mon p).droopPeriod 10000 = true →
    100 * stretched ≤ cycles → (s.mon p).droopFree < 99 →
    exec (.droopWindow p cycles stretched) s = .next ((s.modMon p (fun m => { m with
      droopPeriod := periodNow s 10000 })).modMon p (fun m => { m with droopRun := 0, droopFree := m.droopFree + 1 })))
  ∧ (∀ (s : State) (p : Pid) (cycles stretched : Nat), s.controls = true → periodDue s (s.mon p).droopPeriod 10000 = true →
    100 * stretched ≤ cycles → (s.mon p).droopFree = 99 →
    exec (.droopWindow p cycles stretched) s = .next ((s.modMon p (fun m => { m with
      droopPeriod := periodNow s 10000 })).modMon p (fun m => { m with
        droopRun := 0, droopFree := 0, droop := min 23 (m.droop + 1) })))
  ∧ (∀ (s : State) (p : Pid) (l : Nat), (s.mon p).ramp = some l →
    exec (.levelRampDone p) s = .next (setLevel (s.modMon p (fun m => { m with ramp := none })) p l))
  ∧ (∀ (s : State) (p : Pid) (mhz : Nat), s.controls = true → exec (.marginMeasure p mhz) s = .next (applyMargin s p mhz))
  ∧ (∀ (s : State) (p : Pid) (counts : List Nat) (temp : Nat), s.powered = true → runs s p = true → (s.mon p).forced = none →
    (s.mon p).trust.distrusted = true →
    exec (.budgetEstimate p counts temp) s = .next (
      let u := s.modMon p (fun m => { m with temp := min temp 255 })
      let e := estimate u p counts
      let recent := ((u.mon p).estimates ++ [e]).drop ((u.mon p).estimates.length + 1 - 32)
      u.modMon p (fun m => { m with
        estimateLast := e, estimates := recent, estimateAvg := Config.roundMw recent.sum recent.length })))
  ∧ (∀ (s : State) (p : Pid) (counts : List Nat) (temp : Nat), s.powered = true → runs s p = true → (s.mon p).forced = none →
    (s.mon p).trust.distrusted = false →
    exec (.budgetEstimate p counts temp) s = .next (
      let u := s.modMon p (fun m => { m with temp := min temp 255 })
      let e := estimate u p counts
      let recent := ((u.mon p).estimates ++ [e]).drop ((u.mon p).estimates.length + 1 - 32)
      let u := u.modMon p (fun m => { m with
        estimateLast := e, estimates := recent, estimateAvg := Config.roundMw recent.sum recent.length })
      let b := budgetCeiling u p counts
      climb (settle (u.modMon p (fun m => { m with
        budgetLevel := b, budgetExceeded := sat64 m.budgetExceeded (b2n (decide (m.budget < e))) })) p) p))

/-- A node that takes part in the cobalt network hears POWER messages. SET of a region that is neither tripped nor off
nor isolated, with no reserved bit and every level at most 23, sets the budget, the ceilings and the forced level, and
is answered 0x0000; a reserved bit is answered 0x0305, a level above 23 0x0304 and a tripped region 0x0401, with no
effect but the reply. COMPUTE_OFF of a running mapped skillet switches it off for heat; COMPUTE_ON restores a cooled
region or powers one that is simply off. POWER COEFF from counter 0 or 24 loads its coefficients. A distrusted
skillet's period forces its level. (R430, R431, R435, R437, R442.) -/
def Obligations.PowerMessagesComplete : Prop :=
  (∀ (s : State) (p : Pid) (budget limit thermal force : Nat) (measured : Bool), s.nodeLive p.val = true →
    (measured = false → force = 0) →
    limit ≤ 23 → thermal ≤ 23 → force ≤ 23 → powerRefused (recvCobalt s p.val) p = false →
    exec (.powerSet p budget limit thermal measured force 0) s = .next (sendReply (settle ((recvCobalt s p.val).modMon p
      (fun m => { m with
        budget := budget % 2 ^ 32, limit := limit, thermal := thermal
        forced := if measured then some force else none })) p) p.val 0 []))
  ∧ (∀ (s : State) (p : Pid) (budget limit thermal force rsv : Nat) (measured : Bool), s.nodeLive p.val = true →
    rsv ≠ 0 ∨ (measured = false ∧ force ≠ 0) →
    exec (.powerSet p budget limit thermal measured force rsv) s = .next (sendReply (recvCobalt s p.val) p.val 0x0305 []))
  ∧ (∀ (s : State) (p : Pid) (budget limit thermal force : Nat) (measured : Bool), s.nodeLive p.val = true →
    (measured = false → force = 0) →
    23 < limit ∨ 23 < thermal ∨ 23 < force → exec (.powerSet p budget limit thermal measured force 0) s =
      .next (sendReply (recvCobalt s p.val) p.val 0x0304 []))
  ∧ (∀ (s : State) (p : Pid) (budget limit thermal force : Nat) (measured : Bool), s.nodeLive p.val = true →
    (measured = false → force = 0) →
    limit ≤ 23 → thermal ≤ 23 → force ≤ 23 → powerRefused (recvCobalt s p.val) p = true →
    exec (.powerSet p budget limit thermal measured force 0) s =
      .next (sendReply (recvCobalt s p.val) p.val 0x0401 []))
  ∧ (∀ (s : State) (p : Pid), s.nodeLive p.val = true → powerRefused (recvCobalt s p.val) p = false → ((recvCobalt s p.val).logical? p).isSome = true →
    runs (recvCobalt s p.val) p = true →
    exec (.computeOff p) s = .next (
      let u := domainOff (recvCobalt s p.val) p .offHeat
      sendReply (raiseMon ((u.modMon p (fun m => { m with heatOffs := sat64 m.heatOffs 1 })).modPower
        (fun w => { w with heatOffTotal := sat32 w.heatOffTotal 1 })) p .regionOffHeat (names [(u.mon p).temp])) p.val 0 []))
  ∧ (∀ (s : State) (p : Pid), s.nodeLive p.val = true → cooled (recvCobalt s p.val) p = true →
    exec (.computeOn p) s = .next (sendReply (restoreRegion (recvCobalt s p.val) p) p.val 0 []))
  ∧ (∀ (s : State) (p : Pid), s.nodeLive p.val = true → ((recvCobalt s p.val).mon p).domain = .off → (recvCobalt s p.val).isHole p = false →
    exec (.computeOn p) s = .next (sendReply (domainOn (recvCobalt s p.val) p 23) p.val 0 []))
  ∧ (∀ (s : State) (p : Pid) (first : Nat) (coeffs : List W16), s.nodeLive p.val = true → powerRefused (recvCobalt s p.val) p = false →
    first = 0 ∨ first = 24 →
    exec (.powerCoeff p first coeffs) s = .next (sendReply ((recvCobalt s p.val).modMon p (fun m => { m with
      coeffs := ((coeffs.take 24).zipIdx).foldl (fun t e => Tab.put t (first + e.2) e.1)
        ((recvCobalt s p.val).mon p).coeffs })) p.val 0 []))
  ∧ (∀ (s : State) (p : Pid) (mw : Nat), s.controls = true → (s.mon p).trust.distrusted = true → runs s p = true →
    periodDue s (s.mon p).measuredPeriod 50 = true →
    ∃ l, l ≤ max 23 (s.mon p).level ∧ (92 * (s.mon p).budget < 100 * mw → l ≤ (s.mon p).level) ∧ exec (.measuredPeriod p mw) s =
      .next (climb (settle ({ s with free := s.free + 1 }.modMon p (fun m => { m with
        measuredPeriod := periodNow s 50, forced := some l })) p) p))

/-- A period of 64 µs takes the average of the estimates over the last 1.0 ms, puts the base cap and LIMIT in effect,
shares the pool out as budgets, notes and reports an input limit that begins, and reports a cap that cannot be reached
once. A check window judges the estimator of a running skillet and of the module. Writes of BASE_CAP and of a cap
profile hold 80 to 300 (8.0 to 30.0 kW), and are refused with 0x0303 below and 0x0304 above; MAX_POINT 0 to 8 lowers
LIMIT at once on every skillet. (R423, R424, R425, R429, R445.) -/
def Obligations.ModuleLoopComplete : Prop :=
  (∀ (s : State) (rim vin busbar : Nat), s.controls = true → periodDue s s.power.modulePeriod 64 = true →
    exec (.modulePowerPeriod rim vin busbar) s = .next (
      let totals := (totalEstimate s rim :: s.power.totals).take 16
      let avg := average1ms totals
      let u := s.modPower (fun w => { w with
        modulePeriod := periodNow s 64, baseEff := w.baseCap, rim := rim, totals := totals, average := avg })
      let u := setCap (allPids.foldl (fun t p => settle (t.modMon p (fun m => { m with limit := 15 + t.power.maxPoint })) p) u)
      let pool := poolOf u vin busbar
      let limited := decide (vin * 10 * u.input.iLim < u.power.cap * 100000)
      let v : State := { u with input := { u.input with limited := limited } }
      let v := if limited && !u.input.limited then raiseInput v .inputLimited vin else v
      let v := v.modPower (fun w => { w with
        pool := pool
        budgets := (budgetsOf v pool).foldl (fun x e => vset x e.1 e.2) (Vector.replicate 64 0)
        floorPeriods := sat64 w.floorPeriods (b2n (allPids.any (fun p => runs v p && decide ((v.mon p).budgetLevel < 15)))) })
      if v.power.cap * 100000 < avg && allPids.all (fun p => !runs v p || (v.mon p).level = 0) && !v.power.unreachable then
        raiseMod (v.modPower (fun w => { w with unreachable := true })) .capUnreachable (names [v.power.cap])
      else v))
  ∧ (∀ (s : State) (p : Pid) (e m : Nat), s.controls = true → runs s p = true →
    periodDue s (s.mon p).trust.period 10000 = true →
    exec (.checkWindow (some p) e m) s = .next (
      let j := judgeWindow (s.mon p).trust e m
      let u := (s.modMon p (fun x => { x with
        trust := { j.1 with period := periodNow s 10000 }
        measured := m
        disagreeWindows := sat64 x.disagreeWindows (b2n (decide (12 * m < 100 * (max e m - min e m))))
        forced := if j.1.distrusted then x.forced else none })).modPower
        (fun w => { w with recalibrations := sat32 w.recalibrations (b2n j.2.2) })
      match j.2.1 with
      | none => u
      | some v => raise u 68 v (plocBlock p.val) (names [p.val])))
  ∧ (∀ (s : State) (e m : Nat), s.controls = true → periodDue s s.power.trust.period 10000 = true →
    exec (.checkWindow none e m) s = .next (
      let j := judgeWindow s.power.trust e m
      let u := (s.modPower (fun w => { w with trust := { j.1 with period := periodNow s 10000 }, measured := m })).modPower
        (fun w => { w with recalibrations := sat32 w.recalibrations (b2n j.2.2) })
      match j.2.1 with
      | none => u
      | some v => raiseMod u v (names [])))
  ∧ (∀ (s : State) (r : Req) (x : Session), Passes s r 0x3000 1 x → 80 ≤ reqNat r → reqNat r ≤ 300 →
    exec (.baseCapWrite r) s = .next (storeAnswer ((countFrame s r).modPower (fun w => { w with baseCap := reqNat r })) r 0))
  ∧ (∀ (s : State) (r : Req) (x : Session), Passes s r 0x3000 1 x → reqNat r < 80 →
    exec (.baseCapWrite r) s = .next (storeAnswer { countFrame s r with
      dict := { (countFrame s r).dict with opsRejected := sat64 (countFrame s r).dict.opsRejected 1 } } r 0x0303))
  ∧ (∀ (s : State) (r : Req) (x : Session), Passes s r 0x3000 1 x → 300 < reqNat r →
    exec (.baseCapWrite r) s = .next (storeAnswer { countFrame s r with
      dict := { (countFrame s r).dict with opsRejected := sat64 (countFrame s r).dict.opsRejected 1 } } r 0x0304))
  ∧ (∀ (s : State) (i : Fin 16) (r : Req) (x : Session), Passes s r 0x3001 i.val x → 80 ≤ reqNat r → reqNat r ≤ 300 →
    exec (.capProfileWrite i r) s = .next (storeAnswer ((countFrame s r).modPower (fun w => { w with
      profiles := vset w.profiles i (reqNat r) })) r 0))
  ∧ (∀ (s : State) (r : Req) (x : Session), Passes s r 0x3000 4 x → reqNat r ≤ 8 →
    exec (.maxPointWrite r) s = .next (storeAnswer (allPids.foldl (fun t p => settle (t.modMon p (fun m => { m with
      limit := min m.limit (15 + reqNat r) })) p) ((countFrame s r).modPower (fun w => { w with maxPoint := reqNat r }))) r 0))

/-- At a thermal period the mapped skillets 12 °C above THROTTLE_TEMP go off for heat, then the hottest running one at
or above it is throttled, then every cooled region is restored. At the slower period, where no region has been hot
since the last one, the coolest one with room has THERMAL raised by one, and every tenth period with every stack at 90
°C or less gives 5 % of the cap back. A comparator at 118 °C or more trips its region, which stops, counts and is
reported; below it nothing trips. A region that tripped for the third time, or has not cooled in time, is isolated. A
half of the mesh slows at 105 °C and returns once its sensors have stayed at 95 °C or less for 100 ms. A stack at 95
°C cuts the pool by 5 % of the cap, with one event an episode. (R434, R435, R436, R437, R438, R439.) -/
def Obligations.HeatComplete : Prop :=
  (∀ (s : State) (temps : List Nat), s.controls = true → periodDue s s.power.downPeriod 1000 = true →
    exec (.thermalDownPeriod temps) s = .next (
      let u := readTemps (s.modPower (fun w => { w with
        downPeriod := periodNow s 1000, throttleTemp := w.throttleNext })) temps
      let u := if anyHot u then u.modPower (fun w => { w with hotSeen := true }) else u
      let v := ((budgeted u).filter (fun p => u.power.throttleTemp + 12 ≤ (u.mon p).temp)).foldl heatOff u
      let w := match hottestOf v (allPids.filter (fun p => runs v p && u.power.throttleTemp ≤ (v.mon p).temp)) with
        | some p => throttle v p
        | none => v
      (allPids.filter (cooled w)).foldl restoreRegion w))
  ∧ (∀ (s : State) (temps : List Nat), s.controls = true → periodDue s s.power.upPeriod 10000 = true →
    exec (.thermalUpPeriod temps) s = .next (
      let u := readTemps (s.modPower (fun w => { w with
        upPeriod := periodNow s 10000, throttleTemp := w.throttleNext, upPeriods := w.upPeriods + 1 })) temps
      let u := if allSlices.all (fun sl => (u.slice sl).mc.temp ≤ 90) then u.modPower (fun w => { w with
        poolCut := if w.upPeriods % 10 = 0 then w.poolCut - 5 else w.poolCut, throttleEpisode := false }) else u
      let hot := u.power.hotSeen || anyHot u
      let u := u.modPower (fun w => { w with hotSeen := false })
      if hot then u
      else match coolestOf u (allPids.filter (fun p =>
          runs u p && (u.mon p).thermal < 23 && (u.mon p).temp + 5 ≤ u.power.throttleTemp)) with
        | none => u
        | some p =>
          let v := u.modMon p (fun m => { m with thermal := m.thermal + 1 })
          if (v.mon p).thermal = 23 then
            raiseMon (v.modMon p (fun m => { m with throttled := false })) p .throttleEnd (names [(v.mon p).temp])
          else v))
  ∧ (∀ (s : State) (p : Pid) (tempC : Nat), 118 ≤ tempC → s.life.st ≠ .off → (s.mon p).domain ≠ .isolated →
    (s.mon p).domain ≠ .tripped →
    exec (.regionTrip ⟨p, tempC⟩) s = .next (
      let u := s.modMon p (fun m => { m with temp := min tempC 255 })
      let u := ((domainOff u p .tripped).modMon p (fun m => { m with trips := sat64 m.trips 1 })).modPower
        (fun w => { w with tripsTotal := sat32 w.tripsTotal 1 })
      raiseMon u p .regionTrip (names [(u.mon p).trips])))
  ∧ (∀ (s : State) (p : Pid) (tempC : Nat), tempC < 118 → s.life.st ≠ .off →
    exec (.regionTrip ⟨p, tempC⟩) s = .next (s.modMon p (fun m => { m with temp := min tempC 255 })))
  ∧ (∀ (s : State) (p : Pid), (s.mon p).domain = .tripped → 3 ≤ (s.mon p).trips →
    exec (.heatIsolation p) s = .next (isolateRegion (raiseMon s p .heatIsolation (names [(s.mon p).trips])) p
      Ev.heatIsolation.code))
  ∧ (∀ (s : State) (p : Pid), (s.mon p).domain = .offHeat → (s.mon p).offAt + s.power.restoreLimit ≤ s.time.ticks →
    s.power.throttleTemp < (s.mon p).temp + 10 →
    exec (.heatIsolation p) s = .next (isolateRegion (raiseMon s p .heatIsolation (names [(s.mon p).trips])) p
      Ev.heatIsolation.code))
  ∧ (∀ (s : State) (east : Bool) (tempC : Nat), s.controls = true → 105 ≤ tempC →
    exec (.meshHeatEmergency east tempC) s = .next (setHalf (s.modPower (fun w => { w with
      meshCool := vset w.meshCool (if east then 1 else 0) none })) east true))
  ∧ (∀ (s : State) (east : Bool) (tempC : Nat), s.controls = true → 95 < tempC → tempC < 105 →
    exec (.meshHeatEmergency east tempC) s = .next (s.modPower (fun w => { w with
      meshCool := vset w.meshCool (if east then 1 else 0) none })))
  ∧ (∀ (s : State) (east : Bool) (tempC t : Nat), s.controls = true → tempC ≤ 95 →
    (vget s.power.meshCool (if east then 1 else 0)).getD s.time.ticks = t →
    exec (.meshHeatEmergency east tempC) s = .next (
      let u := s.modPower (fun w => { w with meshCool := vset w.meshCool (if east then 1 else 0) (some t) })
      if t + 100000 ≤ s.time.ticks then setHalf u east false else u))
  ∧ (∀ (s : State) (sl : Slice), s.controls = true → 95 ≤ (s.slice sl).mc.temp → periodDue s s.power.cutPeriod 10000 = true →
    exec .stackThrottle s = .next (
      let u := s.modPower (fun w => { w with
        poolCut := min 100 (w.poolCut + 5), throttleEpisode := true, cutPeriod := periodNow s 10000 })
      if s.power.throttleEpisode then u else raiseMod u .stackThrottle (names [u.power.poolCut])))

/-- A ROLLBACK with a higher number starts the recovery afresh at a module that runs a job; any other is merged and
counted, and changes nothing else. A module outside a job and outside QUARANTINED keeps the newest number it has
heard. A STATE record is kept by shard; one of another plan or job means STATE_LOST in RECOVERING. A RESTORE_REQ of
this recovery is answered with its range, any other is not. A RESTORE of this epoch inside its region is written and
counted; of another epoch it is dropped as stale, in an entry that is not there it is discarded and counted. (R380,
R455, R456, R457, R462, R463.) -/
def Obligations.RollbackFramesComplete : Prop :=
  (∀ (s : State) (port : Slice) (k : Nat) (c : Content), landedRecovery s port k 1 = some c →
    (dropLanded s port k).inJob = true → (dropLanded s port k).recov.n < leNat (c.bytes.take 4) →
    exec (.rollback port k) s = .next (startRecovery (dropLanded s port k) (leNat (c.bytes.take 4))
      (leNat ((c.bytes.drop 6).take 2)) (leNat ((c.bytes.drop 4).take 2) % 1024) 0 0xFF false))
  ∧ (∀ (s : State) (port : Slice) (k : Nat) (c : Content), landedRecovery s port k 1 = some c →
    (dropLanded s port k).inJob = true → leNat (c.bytes.take 4) ≤ (dropLanded s port k).recov.n →
    exec (.rollback port k) s = .next ((dropLanded s port k).modRecov (fun v => { v with merged := sat64 v.merged 1 })))
  ∧ (∀ (s : State) (port : Slice) (k : Nat) (c : Content), landedRecovery s port k 1 = some c →
    (dropLanded s port k).inJob = false → (dropLanded s port k).life.st ≠ .quarantined →
    (∀ h, (dropLanded s port k).recov.heard = some h → h.1 < leNat (c.bytes.take 4)) →
    exec (.rollback port k) s = .next ((dropLanded s port k).modRecov (fun v => { v with
      heard := some (leNat (c.bytes.take 4), leNat ((c.bytes.drop 6).take 2), leNat ((c.bytes.drop 4).take 2) % 1024) })))
  ∧ (∀ (s : State) (port : Slice) (k : Nat) (c : Content) (h : Nat × Nat × Nat), landedRecovery s port k 1 = some c →
    (dropLanded s port k).inJob = false → (dropLanded s port k).life.st ≠ .quarantined →
    (dropLanded s port k).recov.heard = some h → leNat (c.bytes.take 4) ≤ h.1 →
    exec (.rollback port k) s = .next (dropLanded s port k))
  ∧ (∀ (s : State) (port : Slice) (k : Nat) (c : Content) (sameJob : Bool), landedRecovery s port k 2 = some c →
    exec (.state port ⟨k, sameJob⟩) s = .next (
      let flags := leNat ((c.bytes.drop 6).take 2)
      let x : RecState :=
        ⟨leNat (c.bytes.take 4), leNat ((c.bytes.drop 8).take 8), leNat ((c.bytes.drop 16).take 8), bit flags 0, bit flags 1⟩
      let u := keepState (dropLanded s port k) ((dropLanded s port k).torus.shardOf (leNat ((c.bytes.drop 4).take 2))) x
      if sameJob = false ∧ u.life.st = .recovering then stateLost u
      else if u.recov.phase = 4 && x.n = u.recov.n then noteProgress u 5 else u))
  ∧ (∀ (s : State) (port : Slice) (k : Nat) (c : Content), landedRecovery s port k 3 = some c →
    exec (.restoreReq port k) s = .next (
      let u := dropLanded s port k
      let a := leNat ((c.bytes.drop 8).take 8) * 64
      if leNat (c.bytes.take 4) = u.recov.n && u.inJob then
        sendRestore u (u.torus.shardOf (leNat ((c.bytes.drop 4).take 2))) a a (leNat ((c.bytes.drop 16).take 8) * 64)
          (leNat ((c.bytes.drop 6).take 2))
      else u))
  ∧ (∀ (s : State) (port : Slice) (k : Nat) (c : Content), landed s port k = some c → c.ftype = .routed → c.kind = 1 →
    c.repoch ≠ s.red.epoch → exec (.restore port k) s = .next (dropStale s port k))
  ∧ (∀ (s : State) (port : Slice) (k : Nat) (c : Content), landed s port k = some c → c.ftype = .routed → c.kind = 1 →
    c.repoch = s.red.epoch → (dropLanded s port k).regions[c.region]? = none →
    exec (.restore port k) s = .next ((dropLanded s port k).modPort port (fun p => { p with
      framesDiscarded := sat64 p.framesDiscarded 1 })))
  ∧ (∀ (s : State) (port : Slice) (k : Nat) (c : Content) (r : Region), landed s port k = some c → c.ftype = .routed →
    c.kind = 1 → c.repoch = s.red.epoch → (dropLanded s port k).regions[c.region]? = some r → r.kind ≠ 0 →
    r.base * regUnit ≤ c.addr * 64 → c.addr * 64 + 8 * (c.len % 32 + 1) ≤ (r.base + r.size) * regUnit →
    exec (.restore port k) s = .next (
      let n := 8 * (c.len % 32 + 1)
      checkLoop (((List.range ((n + 63) / 64)).foldl
        (fun t i => planWrite t (c.addr * 64 + 64 * i) (((c.bytes.take n).drop (64 * i)).take 64)) (dropLanded s port k)).modRecov
        (fun v => { v with restored := v.restored + n }))))

/-- With every STATE record held the rule is applied: step c where it gives one and no TEACHER copy is lost,
STATE_LOST otherwise. A recovery whose restores are complete, with no bundle down, no region waiting, no loop held and
no evaluation pass at work, resumes with step 6. A spare in READY with its plan that has heard a rollback enters
RECOVERING and says STATE. A shorted region is isolated and reported. ALERT_ACK of 1 clears the CONTAINED alert only.
A window's suppressed records become one record with their count. (R453, R454, R457, R458, R461, R462, R464, R466.) -/
def Obligations.ResumeComplete : Prop :=
  (∀ (s : State) (c : Int), s.life.st = .recovering → s.recov.phase = 4 → stateGathered s = true →
    resumeStep s = some c → teacherLost s = false →
    exec .resumeRule s = .next (applyRule s (c % 2 ^ 64).toNat))
  ∧ (∀ s : State, s.life.st = .recovering → s.recov.phase = 4 → stateGathered s = true → resumeStep s = none →
    exec .resumeRule s = .next (stateLost s))
  ∧ (∀ s : State, s.life.st = .recovering → s.recov.phase = 5 → s.recov.restoring ≤ s.recov.restored →
    s.recov.loopHeld = false → bundleDown s = false → regionWaits s = false → evalBusy s = false →
    exec .rollbackDone s = .next (beginStep6 s))
  ∧ (∀ (s : State) (n event coord : Nat), s.recov.heard = some (n, event, coord) → s.life.st = .ready →
    s.dict.plan.isSome = true → s.commit.loaded = false →
    exec .spareAdopt s = .next (
      let u := ((enterRecovering s n event coord).modRecov (fun v => { v with
        adoptedSelf := true, heard := none, lost := false })).modRed (fun r => { r with epoch := n % 256 })
      noteProgress (sendState { u with commit := { u.commit with loaded := true } }) 5))
  ∧ (∀ (s : State) (p : Pid), s.life.st ≠ .off → vget s.col.isolated p = false →
    exec (.regionShort p) s = .next (raise (isolateRegion s p Ev.regionShort.code) 68 .regionShort (plocBlock p.val)
      (names [p.val])))
  ∧ (∀ (s : State) (r : Req) (x : Session), Passes s r 0x7001 2 x → reqNat r = 1 →
    exec (.alertAck r) s = .next (storeAnswer ((countFrame s r).modRecov (fun v => { v with alert := v.alert &&& 6 })) r 0))
  ∧ (∀ (s : State) (r : Req) (x : Session), Passes s r 0x7001 2 x → 2 ≤ reqNat r →
    exec (.alertAck r) s = .next (storeAnswer { countFrame s r with
      dict := { (countFrame s r).dict with opsRejected := sat64 (countFrame s r).dict.opsRejected 1 } } r 0x0305))
  ∧ (∀ (s : State) (n : Nat) (rest : List Nat), s.life.st ≠ .off → (rollWindow s).recov.suppressedDue = n :: rest →
    exec .eventsSuppressed s = .next (
      let u := passFrac ((rollWindow s).modRecov (fun v => { v with suppressedDue := rest }))
      handleRecord u (mkRecord u 68 Ev.eventsSuppressed.code .notice plocMod n)))

/-- PWR_EN with a pair at 46 to 58 V starts the input from OFF; at the end of the soft start it is ON and, with
RESET_N high, the module boots. An input that is ON opens, everything but the flash, the cartridges, the input's own
state, the waiting commands and the model's counter of free values at its value of reset, as PWR_EN falls or a lockout
comes; the lockout clears to OFF. A pair out of its range longer than ride-through covers is lost, halves I_LIM and is
reported while ON; a shorter dip changes nothing; a pair back in range for 1 s restores it. RESET_N low holds the
module cleared and OFF until its release boots it. A due RESET and a fault of the steward, which the persistent log
takes where the steward can still write it, clear the module and boot it. (R448, R499, R522, R523, R524, R525, R529.)
-/
def Obligations.InputComplete : Prop :=
  (∀ (s : State) (a b : Nat), s.input.pwrEn = false → s.input.st = .off →
    (4600 ≤ a ∧ a ≤ 5800) ∨ (4600 ≤ b ∧ b ≤ 5800) →
    exec (.pwrEnAssert a b) s = .next ((s.modInput (fun x => { x with
      pwrEn := true, pairA := pairRange a, pairB := pairRange b
      iLim := if pairRange a && pairRange b then 580 else 290 })).modInput (fun x => { x with st := .softStart })))
  ∧ (∀ v : Nat, pairRange v = true ↔ 4600 ≤ v ∧ v ≤ 5800)
  ∧ (∀ s : State, s.input.st = .softStart → s.input.pwrEn = true →
    exec .softStartDone s = .next (
      let u := s.modInput (fun x => { x with st := .on })
      if s.input.resetLow then u else boot u .off))
  ∧ (∀ s : State, s.life.st = .stewardBoot → s.sec.halted = false →
    exec .stage2Start s = .next (changeLife s .selfTest))
  ∧ (∀ s : State, s.input.st = .on →
    exec .pwrEnDeassert s = .next (shutDown (s.modInput (fun x => { x with pwrEn := false })) .off))
  ∧ (∀ s : State, s.input.st = .on → exec .inputLockout s = .next (shutDown s .lockout))
  ∧ (∀ (s : State) (i : InputState), shutDown s i = { State.reset with
      pending := s.pending, free := s.free
      col := { journal := s.col.journal, due := s.col.due }
      rim := { repairs := s.rim.repairs.map (fun e => { e with inForce := false }) }
      recov := { plog := s.recov.plog, plogCount := s.recov.plogCount }
      links := { bays := s.links.bays.map Bay.kept }
      input := { s.input with
        limited := false, leak := false, margin := {}, limit := {}, failed := {}, period := none, st := i }
      sec := s.sec.kept })
  ∧ (∀ s : State, s.input.st = .lockout → s.input.pwrEn = false →
    exec .lockoutClear s = .next (s.modInput (fun x => { x with st := .off })))
  ∧ (∀ (s : State) (v us : Nat), s.input.pairB = true → s.input.st = .on → s.powered = true →
    v < 4200 ∨ (v < 4600 ∧ 5000 < us) ∨ 5800 < v →
    exec (.inputPairLost ⟨true, v, us⟩) s = .next (raiseInput ((s.modInput (fun x => { x with pairB := false })).modInput
      (fun x => { x with iLim := 290 })) .inputPairLost v))
  ∧ (∀ (s : State) (v us : Nat), 4200 ≤ v → v < 4600 → us ≤ 5000 → exec (.inputPairLost ⟨true, v, us⟩) s = .next s)
  ∧ (∀ (s : State) (v us : Nat), s.input.pairA = true → s.input.pairB = false → s.input.st = .on → 4600 ≤ v →
    v ≤ 5800 → 1000000 ≤ us →
    exec (.inputPairReturn ⟨true, v, us⟩) s = .next ((s.modInput (fun x => { x with pairB := true })).modInput (fun x => { x with
      iLim := 580 })))
  ∧ (∀ s : State, s.input.pwrEn = true → s.input.st = .on →
    exec .resetN s = .next (s.modInput (fun x => { x with resetLow := true })).cleared)
  ∧ (∀ s : State, s.input.resetLow = true → s.input.st = .on → s.input.pwrEn = true →
    exec .resetNRelease s = .next (boot (s.modInput (fun x => { x with resetLow := false })) .off))
  ∧ (∀ s : State, s.life.resetDue = true → exec .moduleReset s = .next (moduleReset s))
  ∧ (∀ s : State, s.life.st ≠ .off → exec (.stewardFault false) s = .next (moduleReset s))
  ∧ (∀ s : State, s.life.st ≠ .off → exec (.stewardFault true) s = .next (moduleReset (s.modRecov (fun v => { v with
      plog := (v.plog ++ [({ seq := v.plogCount
                             record := mkRecord s 68 Ev.stewardFault.code .fatal (plocBlock 68) 0 } : LogEntry)]).drop
        (v.plog.length + 1 - 16384)
      plogCount := v.plogCount + 1 }))))

/-- With the input ON and the controller running, a reading in a new period of 100 ms is held. Each limit's condition
is judged by it: with flow and temperature inside every bound and no leak, no limit begins, and one that applies ends
after 100 such readings in a row; the tenth reading in a row with the condition makes the limit apply. A leak stays
held whatever a later reading says. (R531, R533, R537.) -/
def Obligations.CoolantComplete : Prop :=
  (∀ (s : State) (x : Sensor), s.input.st = .on → s.controls = true → periodDue s s.input.period 100000 = true →
    x.leak = false → s.input.leak = false → 4000 ≤ x.flow → x.tInlet ≤ 3500 →
    exec (.coolantRead x) s = .next (s.modInput (fun i => { i with
      vinA := x.vinA, vinB := x.vinB, iinA := x.iinA, iinB := x.iinB, pin := x.pin, tInlet := x.tInlet,
      tOutlet := x.tOutlet, flow := x.flow, leak := false, margin := i.margin.read false, limit := i.limit.read false,
      failed := i.failed.read false, period := periodNow s 100000 })))
  ∧ (∀ (s : State) (x : Sensor), s.input.st = .on → s.controls = true → periodDue s s.input.period 100000 = true →
    s.input.leak = true → ∃ t, exec (.coolantRead x) s = .next t ∧ t.input.leak = true ∧ t.input.flow = x.flow
      ∧ t.input.failed = s.input.failed.read true)
  ∧ (∀ c : CoolLimit, c.on = false → c.held < 9 → (c.read true).on = false)
  ∧ (∀ c : CoolLimit, c.held = 9 → (c.read true).on = true)
  ∧ (∀ c : CoolLimit, c.on = true → c.clear < 99 → (c.read false).on = true)
  ∧ (∀ c : CoolLimit, c.clear = 99 → (c.read false).on = false)

/-- A NONCE makes a report due in its session, which the monitor then gives. A chunk is stored at UPDATE_OFFSET, which
advances by 4,096. A verification in a state that allows it is accepted as pending and busy; a second one is refused
with 0x0402. Its end stages a bundle that every check passes, and otherwise UPDATE_STATUS holds the failure and
nothing is staged. A discard empties the chunks. The first owner is enrolled without a signature; a replacement that
its owner has not signed is refused with 0x0501. (R483, R485, R486.) -/
def Obligations.SecurityComplete : Prop :=
  (∀ (s : State) (r : Req) (x : Session), Passes s r 0x8002 1 x →
    exec (.nonce r) s = .next (storeAnswer ((countFrame s r).modSession r (fun y => { y with
      nonce := r.value, reportDue := true, report := none })) r 0))
  ∧ (∀ (s : State) (n : Nat), n ≠ 0 →
    exec (.reportReady n) s = .next (
      let u := passFrac s
      { u with dict := { u.dict with sessions := u.dict.sessions.map (fun x => if x.num = n then giveReport u x else x) } }))
  ∧ (∀ (s : State) (r : Req) (x : Session), Passes s r 0x8004 2 x → x.updateOffset < 2 ^ 30 →
    exec (.updateData r) s = .next (storeAnswer (((countFrame s r).modSec (fun c => { c with
      chunks := Mem.store c.chunks x.updateOffset r.value, length := max c.length (x.updateOffset + 4096) })).modSession r
      (fun y => { y with updateOffset := x.updateOffset + 4096 })) r 0))
  ∧ (∀ (s : State) (r : Req) (x : Session), Passes s r 0x8004 3 x → reqNat r = 1 → kindAllowed (countFrame s r) 1 = true →
    kindAllowed (countFrame s r) 5 = true → s.sec.busy = false →
    exec (.updateVerify r) s = .next (storeAnswer ((countFrame s r).modSec (fun c => { c with
      busy := true, status := 0x0403 })) r 0x0403))
  ∧ (∀ (s : State) (r : Req) (x : Session), Passes s r 0x8004 3 x → reqNat r = 2 → s.sec.busy = false →
    exec (.updateDiscard r) s = .next (storeAnswer ((countFrame s r).modSec (fun c => { c with
      chunks := [], length := 0, status := 0 })) r 0))
  ∧ (∀ (s : State) (r : Req) (x : Session), Passes s r 0x8004 3 x → reqNat r = 2 → s.sec.busy = true →
    exec (.updateDiscard r) s = .next (storeAnswer { countFrame s r with
      dict := { (countFrame s r).dict with opsRejected := sat64 (countFrame s r).dict.opsRejected 1 } } r 0x0402))
  ∧ (∀ s : State, s.sec.busy = true → bundleFault (s.modSec (fun c => { c with busy := false })) s.sec.bundle = none →
    firmwarePart s.sec.bundle = false →
    s.sec.bundle.all (fun im => kindAllowed (s.modSec (fun c => { c with busy := false })) im.kind) = true →
    exec .updateVerifyDone s = .next (stageBundle ((s.modSec (fun c => { c with busy := false })).modSec (fun c => { c with
      status := 0 })) s.sec.bundle))
  ∧ (∀ (s : State) (kind status : Nat), s.sec.busy = true →
    bundleFault (s.modSec (fun c => { c with busy := false })) s.sec.bundle = some (kind, status) →
    exec .updateVerifyDone s = .next ((rejectImage (s.modSec (fun c => { c with busy := false })) kind status).modSec
      (fun c => { c with status := status })))
  ∧ (∀ (s : State) (r : Req) (x : Session), Passes s r 0x8005 1 x → allZero s.sec.roll.owner = true →
    exec (.ownerKey r) s = .next (storeAnswer (raiseMod ((countFrame s r).modSec (fun c => { c with
      roll := { c.roll with owner := Config.sha512 (r.value.take 32) }, ownerKey := r.value.take 32, guardNext := none }))
      .ownerEnrolled 0) r 0))
  ∧ (∀ (s : State) (r : Req) (x : Session), Passes s r 0x8005 1 x → allZero s.sec.roll.owner = false →
    exec (.ownerKey r) s = .next (
      if Config.ed25519 s.sec.ownerKey (r.value.take 32) (sliceBytes r.value 32 64) then
        storeAnswer (raiseMod ((countFrame s r).modSec (fun c => { c with
          roll := { c.roll with owner := Config.sha512 (r.value.take 32) }, ownerKey := r.value.take 32, guardNext := none }))
          .ownerEnrolled 0) r 0
      else storeAnswer { countFrame s r with
        dict := { (countFrame s r).dict with opsRejected := sat64 (countFrame s r).dict.opsRejected 1 } } r 0x0501))

/-- A HELLO that is served while fewer than 16 sessions are open brings one new session with the client's key, not yet
open, under a number that is not zero; with 16 open it is refused with 0x0601. A PROOF opens the session in the class
of its key where the signature verifies and otherwise ends it with a REFUSE. A proof that does not come in time, a
session without a valid frame for 60 s and a CLOSE with a right tag end the session. A subscription is held with its
mask. (R506, R507, R508, R510, R516.) -/
def Obligations.SessionsComplete : Prop :=
  (∀ (s : State) (port : Fin 2) (key eph nonce : List Byte), s.served = true → openCount s.dict < 16 →
    ∃ y : Session, exec (.shupoHello port key eph nonce) s = .next ({ frameIn s with free := s.free + 1 }.modDict
        (fun d => { d with sessions := d.sessions ++ [y] }))
      ∧ y.open_ = false ∧ y.key = key ∧ y.num ≠ 0 ∧ sessionNum s.dict y.num = none)
  ∧ (∀ (s : State) (port : Fin 2) (key eph nonce : List Byte), s.served = true → 16 ≤ openCount s.dict →
    exec (.shupoHello port key eph nonce) s = .next (sendRefuse (frameIn s) 0x0601))
  ∧ (∀ (s : State) (n : Nat) (sig : List Byte) (x : Session), s.served = true → sessionNum s.dict n = some x →
    x.open_ = false → openCount s.dict < 16 →
    exec (.proof n sig) s = .next (
      if Config.ed25519 x.key (x.transcript ++ [1#8]) sig then (frameIn s).modDict (fun d => { d with
        sessions := d.sessions.map (fun y => if y.num = n then { y with open_ := true, cls := keyClass s.guard y.key } else y) })
      else sendRefuse (endSession (frameIn s) n) 0x0501))
  ∧ (∀ (s : State) (n : Nat) (sig : List Byte) (x : Session), s.served = true → sessionNum s.dict n = some x →
    x.open_ = false → 16 ≤ openCount s.dict → Config.ed25519 x.key (x.transcript ++ [1#8]) sig = true →
    exec (.proof n sig) s = .next (sendRefuse (endSession (frameIn s) n) 0x0601))
  ∧ (∀ (s : State) (n : Nat) (x : Session), sessionNum s.dict n = some x → x.open_ = false →
    exec (.proofTimeout n) s = .next (refuse (endSession s n) 0))
  ∧ (∀ (s : State) (n : Nat) (x : Session), s.served = true → sessionNum s.dict n = some x → x.open_ = true →
    exec (.close n true) s = .next (endSession (frameIn s) n) ∧ exec (.close n false) s = .next (frameBad (frameIn s)))
  ∧ (∀ (s : State) (n : Nat) (x : Session), sessionNum s.dict n = some x → x.open_ = true →
    exec (.sessionTimeout n) s = .next (endSession s n))
  ∧ (∀ (s : State) (r : Req) (x : Session), s.served = true → r.via ≠ .chain → s.session r = some x → opDiscarded r x = false →
    (r.seq = x.lastSeq && x.answers.any (fun a => a.1 == r.op)) = false → r.value.length = 9 → beNat (r.value.take 1) < 16 →
    exec (.subscribe r) s = .next (storeAnswer ((countFrame s r).modSession r (fun y => { y with
      subMask := beNat (r.value.take 1)
      subNext := if beNat (r.value.take 1) = 0 then beNat (r.value.drop 1) else max (beNat (r.value.drop 1)) s.recov.logCount
      evSeq := y.evSeq + ((selected s.recov (beNat (r.value.take 1)) (beNat (r.value.drop 1))).length + 63) / 64 })) r 0))

/-- With the bypass open, a broadcast ASSIGN gives a module without an identifier the one that the frame carries and
goes on with the next; a broadcast CLEAR_ADDRESS takes the identifier away; a frame for another module goes on with
HOPS one higher; a frame of a wrong CRC, a reserved type or HOPS 255 is discarded and counted. With the bypass closed
nothing changes. The loss of the input is raised once; the bypass opens once powered. NODE_ID is held where none is,
and refused with 0x0402 otherwise; an IP_CONFIG that passes its checks takes effect when its second has passed. (R502,
R504, R511, R512.) -/
def Obligations.ChainComplete : Prop :=
  (∀ (s : State) (f : ChainFrame), s.dict.chainState ≠ 0 → f.ctype = 1 → f.hops ≠ 255 → f.dest = 0xFFFF →
    s.dict.nodeId = 0xFFFF → f.body.length = 2 → 1 ≤ beNat f.body → beNat f.body ≤ 0xFFFE →
    exec (.assign f) s = .next (
      let u := s.modDict (fun d => { d with chainState := 1, chainFrames := sat64 d.chainFrames 1, nodeId := beNat f.body })
      (addressed (raiseMod u .addressAssigned (names [beNat f.body]))).modDict (fun d => { d with
        chainSent := some { f with
          src := beNat f.body, body := (leBytes 2 (beNat f.body + 1)).reverse, hops := f.hops + 1 } })))
  ∧ (∀ (s : State) (f : ChainFrame), s.dict.chainState ≠ 0 → f.ctype = 2 → f.hops ≠ 255 → f.dest = 0xFFFF →
    exec (.clearAddress f) s = .next (s.modDict (fun d => { d with
      chainState := 1, chainFrames := sat64 d.chainFrames 1, nodeId := 0xFFFF
      chainSent := some { f with hops := f.hops + 1 } })))
  ∧ (∀ (s : State) (f : ChainFrame), s.dict.chainState ≠ 0 → f.ctype = 1 ∨ f.ctype = 2 ∨ f.ctype = 3 → f.hops ≠ 255 →
    f.dest ≠ 0xFFFF → f.dest ≠ s.dict.nodeId →
    exec (.chainFrame f true) s = .next (s.modDict (fun d => { d with
      chainState := 1, chainFrames := sat64 d.chainFrames 1, chainSent := some { f with hops := f.hops + 1 } })))
  ∧ (∀ (s : State) (f : ChainFrame), s.dict.chainState ≠ 0 →
    exec (.chainFrame f false) s = .next (s.modDict (fun d => { d with
      chainState := 1, chainDiscarded := sat64 d.chainDiscarded 1 })))
  ∧ (∀ (s : State) (f : ChainFrame) (ok : Bool), s.dict.chainState = 0 → exec (.chainFrame f ok) s = .next s)
  ∧ (∀ s : State, s.dict.chainState = 1 →
    exec .chainInputLost s = .next (raiseMod (s.modDict (fun d => { d with chainState := 2 })) .chainInputLost 0))
  ∧ (∀ s : State, s.powered = true → s.dict.chainState = 0 →
    exec .chainBypassOpen s = .next (s.modDict (fun d => { d with chainState := 1 })))
  ∧ (∀ (s : State) (r : Req) (x : Session), Passes s r 0x1100 1 x → 1 ≤ reqNat r → reqNat r ≤ 0xFFFE →
    s.dict.nodeId = 0xFFFF →
    exec (.nodeIdWrite r) s = .next (storeAnswer (addressed ((countFrame s r).modDict (fun d => { d with
      nodeId := reqNat r }))) r 0))
  ∧ (∀ (s : State) (r : Req) (x : Session), Passes s r 0x1100 1 x → 1 ≤ reqNat r → reqNat r ≤ 0xFFFE →
    s.dict.nodeId ≠ 0xFFFF →
    exec (.nodeIdWrite r) s = .next (storeAnswer { countFrame s r with
      dict := { (countFrame s r).dict with opsRejected := sat64 (countFrame s r).dict.opsRejected 1 } } r 0x0402))
  ∧ (∀ (s : State) (port : Fin 2) (r : Req) (x : Session), Passes s r 0x1102 port.val x → ipStatus r.value = 0 →
    exec (.ipConfigWrite port r) s = .next (storeAnswer ((countFrame s r).modDict (fun d => { d with
      ipNext := vset d.ipNext port (some r.value) })) r 0))
  ∧ (∀ (s : State) (port : Fin 2) (v : List Byte), vget s.dict.ipNext port = some v →
    exec (.ipConfigApply port) s = .next (s.modDict (fun d => { d with
      ipConfig := vset d.ipConfig port v, ipNext := vset d.ipNext port none })))

/-- With a job loaded START in READY enters RUNNING and begins the first step, and RESUME in PAUSED begins the step
again; PAUSE and STOP in PAUSED end at once, and PAUSE with a step in progress is held; STOP with no pass streaming
before the gate discards the step and pauses. ENTER_SERVICE from READY unloads plan and job and applies what is due.
RESET is accepted as pending. START without a loaded job is refused with 0x0306 and in RUNNING with 0x0401.
LAST_COMMAND and COMMAND_STATUS follow every accepted command. (R26, R35, R36, R461, R499, R500.) -/
def Obligations.LifecycleCommandsComplete : Prop :=
  (∀ (s : State) (r : Req) (x : Session), Passes s r 0x1200 2 x → reqNat r = 1 → commandStatus (countFrame s r) r 1 = 0 →
    exec (.commandStart r) s = .next (storeAnswer (noteCommand (doStart (countFrame s r)) 1 0) r 0))
  ∧ (∀ (s : State) (r : Req) (x : Session), Passes s r 0x1200 2 x → reqNat r = 2 → commandStatus (countFrame s r) r 2 = 0 →
    s.life.st = .paused → s.life.held = none →
    exec (.commandPause r) s = .next (storeAnswer (noteCommand (countFrame s r) 2 0) r 0))
  ∧ (∀ (s : State) (r : Req) (x : Session), Passes s r 0x1200 2 x → reqNat r = 2 → commandStatus (countFrame s r) r 2 = 0 →
    s.life.st = .running → s.run.active = true → s.life.held = none →
    exec (.commandPause r) s = .next (storeAnswer (noteCommand ((countFrame s r).modLife (fun l => { l with held := some 2 }))
      2 0x0403) r 0x0403))
  ∧ (∀ (s : State) (r : Req) (x : Session), Passes s r 0x1200 2 x → reqNat r = 3 → commandStatus (countFrame s r) r 3 = 0 →
    s.life.st = .paused →
    exec (.commandStop r) s = .next (storeAnswer (noteCommand (countFrame s r) 3 0) r 0))
  ∧ (∀ (s : State) (r : Req) (x : Session), Passes s r 0x1200 2 x → reqNat r = 3 → commandStatus (countFrame s r) r 3 = 0 →
    s.life.st = .running → s.run.active = true → s.run.ended = [] → s.run.aRunning = false → passIssuing s = false →
    exec (.commandStop r) s = .next (storeAnswer (noteCommand (stopNow ((countFrame s r).modLife (fun l => { l with
      held := none }))) 3 0) r 0))
  ∧ (∀ (s : State) (r : Req) (x : Session), Passes s r 0x1200 2 x → reqNat r = 4 → commandStatus (countFrame s r) r 4 = 0 →
    exec (.commandResume r) s = .next (storeAnswer (noteCommand (doResume (countFrame s r)) 4 0) r 0))
  ∧ (∀ (s : State) (r : Req) (x : Session), Passes s r 0x1200 2 x → reqNat r = 5 → commandStatus (countFrame s r) r 5 = 0 →
    exec (.enterService r) s = .next (storeAnswer (noteCommand (doService (countFrame s r)) 5 0) r 0))
  ∧ (∀ (s : State) (r : Req) (x : Session), Passes s r 0x1200 2 x → reqNat r = 6 → commandStatus (countFrame s r) r 6 = 0 →
    exec (.commandReset r) s = .next (storeAnswer (noteCommand (doReset (countFrame s r)) 6 0x0403) r 0x0403))
  ∧ (∀ (s : State) (r : Req) (x : Session), Passes s r 0x1200 2 x → reqNat r = 1 →
    commandAllowed (countFrame s r) r 1 = true → s.life.st = .ready → s.commit.loaded = false →
    exec (.commandStart r) s = .next (storeAnswer { countFrame s r with
      dict := { (countFrame s r).dict with opsRejected := sat64 (countFrame s r).dict.opsRejected 1 } } r 0x0306))
  ∧ (∀ (s : State) (r : Req) (x : Session), Passes s r 0x1200 2 x → reqNat r = 1 →
    commandAllowed (countFrame s r) r 1 = true → s.life.st = .running →
    exec (.commandStart r) s = .next (storeAnswer { countFrame s r with
      dict := { (countFrame s r).dict with opsRejected := sat64 (countFrame s r).dict.opsRejected 1 } } r 0x0401))

/-- A chunk of a plan is stored at PLAN_OFFSET, which advances by 4,096. LOAD_PLAN in READY with none loaded takes the
chunks and is pending; its end loads the plan where every check passes and otherwise leaves the first check's status,
with nothing else changed. UNLOAD, LOAD_JOB and the discard act in their states. JOB_ADDRESS inside a job region is
held, and JOB_DATA stores 4,096 bytes there. LOAD_JOB ends once the buddy has acknowledged, or at once on a single
module. (R514, R515, R318.) -/
def Obligations.PlansAndJobsComplete : Prop :=
  (∀ (s : State) (r : Req) (x : Session), Passes s r 0x2100 2 x → x.planOffset < 2 ^ 34 →
    exec (.planData r) s = .next (storeAnswer (((countFrame s r).modDict (fun d => { d with
      planChunks := Mem.store d.planChunks x.planOffset r.value
      planLength := max d.planLength (x.planOffset + 4096) })).modSession r (fun y => { y with
      planOffset := x.planOffset + 4096 })) r 0))
  ∧ (∀ (s : State) (r : Req) (x : Session), Passes s r 0x2100 3 x → reqNat r = 1 → s.life.st = .ready →
    (countFrame s r).dict.plan = none → (countFrame s r).dict.planCommand = 0 →
    exec (.loadPlan r) s = .next (storeAnswer (((countFrame s r).modDict (fun d => { d with
      planCommand := 1, planStatus := 0x0403 })).modDict takeChunks) r 0x0403))
  ∧ (∀ s : State, s.dict.planCommand = 1 → s.life.st = .ready →
    exec .loadPlanDone s = .next (endPlan (if (judgePlan s).2 = 0 then installPlan s (judgePlan s).1 else s) (judgePlan s).2))
  ∧ (∀ s : State, s.dict.planCommand = 1 → s.life.st ≠ .ready → exec .loadPlanDone s = .next (endPlan s 0x0401))
  ∧ (∀ (s : State) (r : Req) (x : Session), Passes s r 0x2100 3 x → reqNat r = 2 → s.life.st = .ready ∨ s.life.st = .paused →
    (countFrame s r).dict.planCommand = 0 →
    exec (.unload r) s = .next (storeAnswer (endPlan (unloadAll (countFrame s r)) 0) r 0))
  ∧ (∀ (s : State) (r : Req) (x : Session), Passes s r 0x2100 3 x → reqNat r = 3 → s.life.st = .ready →
    (countFrame s r).dict.plan.isSome = true → s.commit.loaded = false → (countFrame s r).dict.planCommand = 0 →
    exec (.loadJob r) s = .next (storeAnswer (startJob ((countFrame s r).modDict (fun d => { d with
      planCommand := 3, planStatus := 0x0403 }))) r 0x0403))
  ∧ (∀ (s : State) (r : Req) (x : Session), Passes s r 0x2100 3 x → reqNat r = 4 →
    exec (.planDiscard r) s = .next (storeAnswer (((countFrame s r).modDict (fun d => { d with
      planChunks := [], planLength := 0, planStatus := if d.planCommand = 0 then 0 else d.planStatus })).modSession r
      (fun y => { y with planOffset := 0 })) r 0))
  ∧ (∀ s : State, s.dict.planCommand = 3 → s.commit.loaded = true → s.rim.acked = true ∨ s.modules ≤ 1 →
    exec .loadJobDone s = .next (endPlan s 0))
  ∧ (∀ (s : State) (r : Req) (x : Session), Passes s r 0x2102 1 x → jobOpen (countFrame s r) = true →
    reqNat r % 4096 = 0 → jobInside (countFrame s r) (reqNat r) = true →
    exec (.jobAddressWrite r) s = .next (storeAnswer ((countFrame s r).modSession r (fun y => { y with
      jobAddress := reqNat r })) r 0))
  ∧ (∀ (s : State) (r : Req) (x : Session), Passes s r 0x2102 2 x → jobOpen (countFrame s r) = true →
    x.jobAddress % 4096 = 0 → jobInside (countFrame s r) x.jobAddress = true →
    exec (.jobData r) s = .next (storeAnswer ((((List.range 64).foldl
      (fun t i => planWrite t (x.jobAddress + 64 * i) (sliceBytes r.value (64 * i) 64)) (countFrame s r)).modDict (fun d => { d with
      jobWritten := d.jobWritten + 4096 })).modSession r (fun y => { y with jobAddress := x.jobAddress + 4096 })) r 0))
end

