-- ==== Sys2Proof/Laws/State.lean ====
section
/-! SUPPORT. Laws/State.lean: one lemma for each field of State under each update, all true by definition, and reading one
element of a fixed array after another has been replaced. -/

namespace Sys2Proof.Machine

/-- Reading the element that was replaced. -/
@[simp] theorem vget_vset {α : Type} {n : Nat} (v : Vector α n) (i : Fin n) (a : α) : vget (vset v i a) i = a := by
  simp [vget, vset]

/-- Reading another element than the one replaced. -/
theorem vget_vset_ne {α : Type} {n : Nat} (v : Vector α n) {i j : Fin n} (a : α) (h : i ≠ j) :
    vget (vset v i a) j = vget v j := by
  simp [vget, vset, Vector.getElem_set_ne, Fin.val_ne_of_ne h]

/-- Reading the element that was changed. -/
@[simp] theorem vget_vmod {α : Type} {n : Nat} (v : Vector α n) (i : Fin n) (f : α → α) :
    vget (vmod v i f) i = f (vget v i) := vget_vset v i _

/-- Reading another element than the one changed. -/
theorem vget_vmod_ne {α : Type} {n : Nat} (v : Vector α n) {i j : Fin n} (f : α → α) (h : i ≠ j) :
    vget (vmod v i f) j = vget v j := vget_vset_ne v _ h

/-- A fixed array of one value. -/
@[simp] theorem vget_replicate {α : Type} {n : Nat} (a : α) (i : Fin n) : vget (Vector.replicate n a) i = a := by
  simp [vget]

/-! ### modTime -/

@[simp] theorem State.modTime_pending (s : State) (f : TimeSt → TimeSt) : (s.modTime f).pending = s.pending := rfl
@[simp] theorem State.modTime_free (s : State) (f : TimeSt → TimeSt) : (s.modTime f).free = s.free := rfl
@[simp] theorem State.modTime_time (s : State) (f : TimeSt → TimeSt) : (s.modTime f).time = f s.time := rfl
@[simp] theorem State.modTime_sched (s : State) (f : TimeSt → TimeSt) : (s.modTime f).sched = s.sched := rfl
@[simp] theorem State.modTime_col (s : State) (f : TimeSt → TimeSt) : (s.modTime f).col = s.col := rfl
@[simp] theorem State.modTime_sks (s : State) (f : TimeSt → TimeSt) : (s.modTime f).sks = s.sks := rfl
@[simp] theorem State.modTime_mesh (s : State) (f : TimeSt → TimeSt) : (s.modTime f).mesh = s.mesh := rfl
@[simp] theorem State.modTime_commit (s : State) (f : TimeSt → TimeSt) : (s.modTime f).commit = s.commit := rfl
@[simp] theorem State.modTime_life (s : State) (f : TimeSt → TimeSt) : (s.modTime f).life = s.life := rfl
@[simp] theorem State.modTime_regions (s : State) (f : TimeSt → TimeSt) : (s.modTime f).regions = s.regions := rfl
@[simp] theorem State.modTime_ceLimit (s : State) (f : TimeSt → TimeSt) : (s.modTime f).ceLimit = s.ceLimit := rfl
@[simp] theorem State.modTime_ceLimitNext (s : State) (f : TimeSt → TimeSt) : (s.modTime f).ceLimitNext = s.ceLimitNext := rfl
@[simp] theorem State.modTime_guard (s : State) (f : TimeSt → TimeSt) : (s.modTime f).guard = s.guard := rfl
@[simp] theorem State.modTime_dict (s : State) (f : TimeSt → TimeSt) : (s.modTime f).dict = s.dict := rfl
@[simp] theorem State.modTime_links (s : State) (f : TimeSt → TimeSt) : (s.modTime f).links = s.links := rfl
@[simp] theorem State.modTime_rim (s : State) (f : TimeSt → TimeSt) : (s.modTime f).rim = s.rim := rfl
@[simp] theorem State.modTime_red (s : State) (f : TimeSt → TimeSt) : (s.modTime f).red = s.red := rfl
@[simp] theorem State.modTime_run (s : State) (f : TimeSt → TimeSt) : (s.modTime f).run = s.run := rfl
@[simp] theorem State.modTime_watch (s : State) (f : TimeSt → TimeSt) : (s.modTime f).watch = s.watch := rfl
@[simp] theorem State.modTime_recov (s : State) (f : TimeSt → TimeSt) : (s.modTime f).recov = s.recov := rfl
@[simp] theorem State.modTime_power (s : State) (f : TimeSt → TimeSt) : (s.modTime f).power = s.power := rfl
@[simp] theorem State.modTime_input (s : State) (f : TimeSt → TimeSt) : (s.modTime f).input = s.input := rfl
@[simp] theorem State.modTime_sec (s : State) (f : TimeSt → TimeSt) : (s.modTime f).sec = s.sec := rfl

/-! ### modSched -/

@[simp] theorem State.modSched_pending (s : State) (f : SchedSt → SchedSt) : (s.modSched f).pending = s.pending := rfl
@[simp] theorem State.modSched_free (s : State) (f : SchedSt → SchedSt) : (s.modSched f).free = s.free := rfl
@[simp] theorem State.modSched_time (s : State) (f : SchedSt → SchedSt) : (s.modSched f).time = s.time := rfl
@[simp] theorem State.modSched_sched (s : State) (f : SchedSt → SchedSt) : (s.modSched f).sched = f s.sched := rfl
@[simp] theorem State.modSched_col (s : State) (f : SchedSt → SchedSt) : (s.modSched f).col = s.col := rfl
@[simp] theorem State.modSched_sks (s : State) (f : SchedSt → SchedSt) : (s.modSched f).sks = s.sks := rfl
@[simp] theorem State.modSched_mesh (s : State) (f : SchedSt → SchedSt) : (s.modSched f).mesh = s.mesh := rfl
@[simp] theorem State.modSched_commit (s : State) (f : SchedSt → SchedSt) : (s.modSched f).commit = s.commit := rfl
@[simp] theorem State.modSched_life (s : State) (f : SchedSt → SchedSt) : (s.modSched f).life = s.life := rfl
@[simp] theorem State.modSched_regions (s : State) (f : SchedSt → SchedSt) : (s.modSched f).regions = s.regions := rfl
@[simp] theorem State.modSched_ceLimit (s : State) (f : SchedSt → SchedSt) : (s.modSched f).ceLimit = s.ceLimit := rfl
@[simp] theorem State.modSched_ceLimitNext (s : State) (f : SchedSt → SchedSt) : (s.modSched f).ceLimitNext = s.ceLimitNext := rfl
@[simp] theorem State.modSched_guard (s : State) (f : SchedSt → SchedSt) : (s.modSched f).guard = s.guard := rfl
@[simp] theorem State.modSched_dict (s : State) (f : SchedSt → SchedSt) : (s.modSched f).dict = s.dict := rfl
@[simp] theorem State.modSched_links (s : State) (f : SchedSt → SchedSt) : (s.modSched f).links = s.links := rfl
@[simp] theorem State.modSched_rim (s : State) (f : SchedSt → SchedSt) : (s.modSched f).rim = s.rim := rfl
@[simp] theorem State.modSched_red (s : State) (f : SchedSt → SchedSt) : (s.modSched f).red = s.red := rfl
@[simp] theorem State.modSched_run (s : State) (f : SchedSt → SchedSt) : (s.modSched f).run = s.run := rfl
@[simp] theorem State.modSched_watch (s : State) (f : SchedSt → SchedSt) : (s.modSched f).watch = s.watch := rfl
@[simp] theorem State.modSched_recov (s : State) (f : SchedSt → SchedSt) : (s.modSched f).recov = s.recov := rfl
@[simp] theorem State.modSched_power (s : State) (f : SchedSt → SchedSt) : (s.modSched f).power = s.power := rfl
@[simp] theorem State.modSched_input (s : State) (f : SchedSt → SchedSt) : (s.modSched f).input = s.input := rfl
@[simp] theorem State.modSched_sec (s : State) (f : SchedSt → SchedSt) : (s.modSched f).sec = s.sec := rfl

/-! ### modSk -/

@[simp] theorem State.modSk_pending (s : State) (p : Pid) (f : Skillet → Skillet) : (s.modSk p f).pending = s.pending := rfl
@[simp] theorem State.modSk_free (s : State) (p : Pid) (f : Skillet → Skillet) : (s.modSk p f).free = s.free := rfl
@[simp] theorem State.modSk_time (s : State) (p : Pid) (f : Skillet → Skillet) : (s.modSk p f).time = s.time := rfl
@[simp] theorem State.modSk_sched (s : State) (p : Pid) (f : Skillet → Skillet) : (s.modSk p f).sched = s.sched := rfl
@[simp] theorem State.modSk_col (s : State) (p : Pid) (f : Skillet → Skillet) : (s.modSk p f).col = s.col := rfl
@[simp] theorem State.modSk_sks (s : State) (p : Pid) (f : Skillet → Skillet) : (s.modSk p f).sks = vmod s.sks p f := rfl
@[simp] theorem State.modSk_mesh (s : State) (p : Pid) (f : Skillet → Skillet) : (s.modSk p f).mesh = s.mesh := rfl
@[simp] theorem State.modSk_commit (s : State) (p : Pid) (f : Skillet → Skillet) : (s.modSk p f).commit = s.commit := rfl
@[simp] theorem State.modSk_life (s : State) (p : Pid) (f : Skillet → Skillet) : (s.modSk p f).life = s.life := rfl
@[simp] theorem State.modSk_regions (s : State) (p : Pid) (f : Skillet → Skillet) : (s.modSk p f).regions = s.regions := rfl
@[simp] theorem State.modSk_ceLimit (s : State) (p : Pid) (f : Skillet → Skillet) : (s.modSk p f).ceLimit = s.ceLimit := rfl
@[simp] theorem State.modSk_ceLimitNext (s : State) (p : Pid) (f : Skillet → Skillet) : (s.modSk p f).ceLimitNext = s.ceLimitNext := rfl
@[simp] theorem State.modSk_guard (s : State) (p : Pid) (f : Skillet → Skillet) : (s.modSk p f).guard = s.guard := rfl
@[simp] theorem State.modSk_dict (s : State) (p : Pid) (f : Skillet → Skillet) : (s.modSk p f).dict = s.dict := rfl
@[simp] theorem State.modSk_links (s : State) (p : Pid) (f : Skillet → Skillet) : (s.modSk p f).links = s.links := rfl
@[simp] theorem State.modSk_rim (s : State) (p : Pid) (f : Skillet → Skillet) : (s.modSk p f).rim = s.rim := rfl
@[simp] theorem State.modSk_red (s : State) (p : Pid) (f : Skillet → Skillet) : (s.modSk p f).red = s.red := rfl
@[simp] theorem State.modSk_run (s : State) (p : Pid) (f : Skillet → Skillet) : (s.modSk p f).run = s.run := rfl
@[simp] theorem State.modSk_watch (s : State) (p : Pid) (f : Skillet → Skillet) : (s.modSk p f).watch = s.watch := rfl
@[simp] theorem State.modSk_recov (s : State) (p : Pid) (f : Skillet → Skillet) : (s.modSk p f).recov = s.recov := rfl
@[simp] theorem State.modSk_power (s : State) (p : Pid) (f : Skillet → Skillet) : (s.modSk p f).power = s.power := rfl
@[simp] theorem State.modSk_input (s : State) (p : Pid) (f : Skillet → Skillet) : (s.modSk p f).input = s.input := rfl
@[simp] theorem State.modSk_sec (s : State) (p : Pid) (f : Skillet → Skillet) : (s.modSk p f).sec = s.sec := rfl

/-! ### modPn -/

@[simp] theorem State.modPn_pending (s : State) (p : Pid) (f : Pantry → Pantry) : (s.modPn p f).pending = s.pending := rfl
@[simp] theorem State.modPn_free (s : State) (p : Pid) (f : Pantry → Pantry) : (s.modPn p f).free = s.free := rfl
@[simp] theorem State.modPn_time (s : State) (p : Pid) (f : Pantry → Pantry) : (s.modPn p f).time = s.time := rfl
@[simp] theorem State.modPn_sched (s : State) (p : Pid) (f : Pantry → Pantry) : (s.modPn p f).sched = s.sched := rfl
@[simp] theorem State.modPn_col (s : State) (p : Pid) (f : Pantry → Pantry) : (s.modPn p f).col = s.col := rfl
@[simp] theorem State.modPn_mesh (s : State) (p : Pid) (f : Pantry → Pantry) : (s.modPn p f).mesh = s.mesh := rfl
@[simp] theorem State.modPn_commit (s : State) (p : Pid) (f : Pantry → Pantry) : (s.modPn p f).commit = s.commit := rfl
@[simp] theorem State.modPn_life (s : State) (p : Pid) (f : Pantry → Pantry) : (s.modPn p f).life = s.life := rfl
@[simp] theorem State.modPn_regions (s : State) (p : Pid) (f : Pantry → Pantry) : (s.modPn p f).regions = s.regions := rfl
@[simp] theorem State.modPn_ceLimit (s : State) (p : Pid) (f : Pantry → Pantry) : (s.modPn p f).ceLimit = s.ceLimit := rfl
@[simp] theorem State.modPn_ceLimitNext (s : State) (p : Pid) (f : Pantry → Pantry) : (s.modPn p f).ceLimitNext = s.ceLimitNext := rfl
@[simp] theorem State.modPn_guard (s : State) (p : Pid) (f : Pantry → Pantry) : (s.modPn p f).guard = s.guard := rfl
@[simp] theorem State.modPn_dict (s : State) (p : Pid) (f : Pantry → Pantry) : (s.modPn p f).dict = s.dict := rfl
@[simp] theorem State.modPn_links (s : State) (p : Pid) (f : Pantry → Pantry) : (s.modPn p f).links = s.links := rfl
@[simp] theorem State.modPn_rim (s : State) (p : Pid) (f : Pantry → Pantry) : (s.modPn p f).rim = s.rim := rfl
@[simp] theorem State.modPn_red (s : State) (p : Pid) (f : Pantry → Pantry) : (s.modPn p f).red = s.red := rfl
@[simp] theorem State.modPn_run (s : State) (p : Pid) (f : Pantry → Pantry) : (s.modPn p f).run = s.run := rfl
@[simp] theorem State.modPn_watch (s : State) (p : Pid) (f : Pantry → Pantry) : (s.modPn p f).watch = s.watch := rfl
@[simp] theorem State.modPn_recov (s : State) (p : Pid) (f : Pantry → Pantry) : (s.modPn p f).recov = s.recov := rfl
@[simp] theorem State.modPn_power (s : State) (p : Pid) (f : Pantry → Pantry) : (s.modPn p f).power = s.power := rfl
@[simp] theorem State.modPn_input (s : State) (p : Pid) (f : Pantry → Pantry) : (s.modPn p f).input = s.input := rfl
@[simp] theorem State.modPn_sec (s : State) (p : Pid) (f : Pantry → Pantry) : (s.modPn p f).sec = s.sec := rfl

/-! ### modSq -/

@[simp] theorem State.modSq_pending (s : State) (p : Pid) (f : Seq → Seq) : (s.modSq p f).pending = s.pending := rfl
@[simp] theorem State.modSq_free (s : State) (p : Pid) (f : Seq → Seq) : (s.modSq p f).free = s.free := rfl
@[simp] theorem State.modSq_time (s : State) (p : Pid) (f : Seq → Seq) : (s.modSq p f).time = s.time := rfl
@[simp] theorem State.modSq_sched (s : State) (p : Pid) (f : Seq → Seq) : (s.modSq p f).sched = s.sched := rfl
@[simp] theorem State.modSq_col (s : State) (p : Pid) (f : Seq → Seq) : (s.modSq p f).col = s.col := rfl
@[simp] theorem State.modSq_mesh (s : State) (p : Pid) (f : Seq → Seq) : (s.modSq p f).mesh = s.mesh := rfl
@[simp] theorem State.modSq_commit (s : State) (p : Pid) (f : Seq → Seq) : (s.modSq p f).commit = s.commit := rfl
@[simp] theorem State.modSq_life (s : State) (p : Pid) (f : Seq → Seq) : (s.modSq p f).life = s.life := rfl
@[simp] theorem State.modSq_regions (s : State) (p : Pid) (f : Seq → Seq) : (s.modSq p f).regions = s.regions := rfl
@[simp] theorem State.modSq_ceLimit (s : State) (p : Pid) (f : Seq → Seq) : (s.modSq p f).ceLimit = s.ceLimit := rfl
@[simp] theorem State.modSq_ceLimitNext (s : State) (p : Pid) (f : Seq → Seq) : (s.modSq p f).ceLimitNext = s.ceLimitNext := rfl
@[simp] theorem State.modSq_guard (s : State) (p : Pid) (f : Seq → Seq) : (s.modSq p f).guard = s.guard := rfl
@[simp] theorem State.modSq_dict (s : State) (p : Pid) (f : Seq → Seq) : (s.modSq p f).dict = s.dict := rfl
@[simp] theorem State.modSq_links (s : State) (p : Pid) (f : Seq → Seq) : (s.modSq p f).links = s.links := rfl
@[simp] theorem State.modSq_rim (s : State) (p : Pid) (f : Seq → Seq) : (s.modSq p f).rim = s.rim := rfl
@[simp] theorem State.modSq_red (s : State) (p : Pid) (f : Seq → Seq) : (s.modSq p f).red = s.red := rfl
@[simp] theorem State.modSq_run (s : State) (p : Pid) (f : Seq → Seq) : (s.modSq p f).run = s.run := rfl
@[simp] theorem State.modSq_watch (s : State) (p : Pid) (f : Seq → Seq) : (s.modSq p f).watch = s.watch := rfl
@[simp] theorem State.modSq_recov (s : State) (p : Pid) (f : Seq → Seq) : (s.modSq p f).recov = s.recov := rfl
@[simp] theorem State.modSq_power (s : State) (p : Pid) (f : Seq → Seq) : (s.modSq p f).power = s.power := rfl
@[simp] theorem State.modSq_input (s : State) (p : Pid) (f : Seq → Seq) : (s.modSq p f).input = s.input := rfl
@[simp] theorem State.modSq_sec (s : State) (p : Pid) (f : Seq → Seq) : (s.modSq p f).sec = s.sec := rfl

/-! ### modWh -/

@[simp] theorem State.modWh_pending (s : State) (p : Pid) (f : Whisk → Whisk) : (s.modWh p f).pending = s.pending := rfl
@[simp] theorem State.modWh_free (s : State) (p : Pid) (f : Whisk → Whisk) : (s.modWh p f).free = s.free := rfl
@[simp] theorem State.modWh_time (s : State) (p : Pid) (f : Whisk → Whisk) : (s.modWh p f).time = s.time := rfl
@[simp] theorem State.modWh_sched (s : State) (p : Pid) (f : Whisk → Whisk) : (s.modWh p f).sched = s.sched := rfl
@[simp] theorem State.modWh_col (s : State) (p : Pid) (f : Whisk → Whisk) : (s.modWh p f).col = s.col := rfl
@[simp] theorem State.modWh_mesh (s : State) (p : Pid) (f : Whisk → Whisk) : (s.modWh p f).mesh = s.mesh := rfl
@[simp] theorem State.modWh_commit (s : State) (p : Pid) (f : Whisk → Whisk) : (s.modWh p f).commit = s.commit := rfl
@[simp] theorem State.modWh_life (s : State) (p : Pid) (f : Whisk → Whisk) : (s.modWh p f).life = s.life := rfl
@[simp] theorem State.modWh_regions (s : State) (p : Pid) (f : Whisk → Whisk) : (s.modWh p f).regions = s.regions := rfl
@[simp] theorem State.modWh_ceLimit (s : State) (p : Pid) (f : Whisk → Whisk) : (s.modWh p f).ceLimit = s.ceLimit := rfl
@[simp] theorem State.modWh_ceLimitNext (s : State) (p : Pid) (f : Whisk → Whisk) : (s.modWh p f).ceLimitNext = s.ceLimitNext := rfl
@[simp] theorem State.modWh_guard (s : State) (p : Pid) (f : Whisk → Whisk) : (s.modWh p f).guard = s.guard := rfl
@[simp] theorem State.modWh_dict (s : State) (p : Pid) (f : Whisk → Whisk) : (s.modWh p f).dict = s.dict := rfl
@[simp] theorem State.modWh_links (s : State) (p : Pid) (f : Whisk → Whisk) : (s.modWh p f).links = s.links := rfl
@[simp] theorem State.modWh_rim (s : State) (p : Pid) (f : Whisk → Whisk) : (s.modWh p f).rim = s.rim := rfl
@[simp] theorem State.modWh_red (s : State) (p : Pid) (f : Whisk → Whisk) : (s.modWh p f).red = s.red := rfl
@[simp] theorem State.modWh_run (s : State) (p : Pid) (f : Whisk → Whisk) : (s.modWh p f).run = s.run := rfl
@[simp] theorem State.modWh_watch (s : State) (p : Pid) (f : Whisk → Whisk) : (s.modWh p f).watch = s.watch := rfl
@[simp] theorem State.modWh_recov (s : State) (p : Pid) (f : Whisk → Whisk) : (s.modWh p f).recov = s.recov := rfl
@[simp] theorem State.modWh_power (s : State) (p : Pid) (f : Whisk → Whisk) : (s.modWh p f).power = s.power := rfl
@[simp] theorem State.modWh_input (s : State) (p : Pid) (f : Whisk → Whisk) : (s.modWh p f).input = s.input := rfl
@[simp] theorem State.modWh_sec (s : State) (p : Pid) (f : Whisk → Whisk) : (s.modWh p f).sec = s.sec := rfl

/-! ### modLd -/

@[simp] theorem State.modLd_pending (s : State) (p : Pid) (l : Fin 8) (f : Ladle → Ladle) : (s.modLd p l f).pending = s.pending := rfl
@[simp] theorem State.modLd_free (s : State) (p : Pid) (l : Fin 8) (f : Ladle → Ladle) : (s.modLd p l f).free = s.free := rfl
@[simp] theorem State.modLd_time (s : State) (p : Pid) (l : Fin 8) (f : Ladle → Ladle) : (s.modLd p l f).time = s.time := rfl
@[simp] theorem State.modLd_sched (s : State) (p : Pid) (l : Fin 8) (f : Ladle → Ladle) : (s.modLd p l f).sched = s.sched := rfl
@[simp] theorem State.modLd_col (s : State) (p : Pid) (l : Fin 8) (f : Ladle → Ladle) : (s.modLd p l f).col = s.col := rfl
@[simp] theorem State.modLd_mesh (s : State) (p : Pid) (l : Fin 8) (f : Ladle → Ladle) : (s.modLd p l f).mesh = s.mesh := rfl
@[simp] theorem State.modLd_commit (s : State) (p : Pid) (l : Fin 8) (f : Ladle → Ladle) : (s.modLd p l f).commit = s.commit := rfl
@[simp] theorem State.modLd_life (s : State) (p : Pid) (l : Fin 8) (f : Ladle → Ladle) : (s.modLd p l f).life = s.life := rfl
@[simp] theorem State.modLd_regions (s : State) (p : Pid) (l : Fin 8) (f : Ladle → Ladle) : (s.modLd p l f).regions = s.regions := rfl
@[simp] theorem State.modLd_ceLimit (s : State) (p : Pid) (l : Fin 8) (f : Ladle → Ladle) : (s.modLd p l f).ceLimit = s.ceLimit := rfl
@[simp] theorem State.modLd_ceLimitNext (s : State) (p : Pid) (l : Fin 8) (f : Ladle → Ladle) : (s.modLd p l f).ceLimitNext = s.ceLimitNext := rfl
@[simp] theorem State.modLd_guard (s : State) (p : Pid) (l : Fin 8) (f : Ladle → Ladle) : (s.modLd p l f).guard = s.guard := rfl
@[simp] theorem State.modLd_dict (s : State) (p : Pid) (l : Fin 8) (f : Ladle → Ladle) : (s.modLd p l f).dict = s.dict := rfl
@[simp] theorem State.modLd_links (s : State) (p : Pid) (l : Fin 8) (f : Ladle → Ladle) : (s.modLd p l f).links = s.links := rfl
@[simp] theorem State.modLd_rim (s : State) (p : Pid) (l : Fin 8) (f : Ladle → Ladle) : (s.modLd p l f).rim = s.rim := rfl
@[simp] theorem State.modLd_red (s : State) (p : Pid) (l : Fin 8) (f : Ladle → Ladle) : (s.modLd p l f).red = s.red := rfl
@[simp] theorem State.modLd_run (s : State) (p : Pid) (l : Fin 8) (f : Ladle → Ladle) : (s.modLd p l f).run = s.run := rfl
@[simp] theorem State.modLd_watch (s : State) (p : Pid) (l : Fin 8) (f : Ladle → Ladle) : (s.modLd p l f).watch = s.watch := rfl
@[simp] theorem State.modLd_recov (s : State) (p : Pid) (l : Fin 8) (f : Ladle → Ladle) : (s.modLd p l f).recov = s.recov := rfl
@[simp] theorem State.modLd_power (s : State) (p : Pid) (l : Fin 8) (f : Ladle → Ladle) : (s.modLd p l f).power = s.power := rfl
@[simp] theorem State.modLd_input (s : State) (p : Pid) (l : Fin 8) (f : Ladle → Ladle) : (s.modLd p l f).input = s.input := rfl
@[simp] theorem State.modLd_sec (s : State) (p : Pid) (l : Fin 8) (f : Ladle → Ladle) : (s.modLd p l f).sec = s.sec := rfl

/-! ### modGr -/

@[simp] theorem State.modGr_pending (s : State) (p : Pid) (g : Fin 4) (f : Griddle → Griddle) : (s.modGr p g f).pending = s.pending := rfl
@[simp] theorem State.modGr_free (s : State) (p : Pid) (g : Fin 4) (f : Griddle → Griddle) : (s.modGr p g f).free = s.free := rfl
@[simp] theorem State.modGr_time (s : State) (p : Pid) (g : Fin 4) (f : Griddle → Griddle) : (s.modGr p g f).time = s.time := rfl
@[simp] theorem State.modGr_sched (s : State) (p : Pid) (g : Fin 4) (f : Griddle → Griddle) : (s.modGr p g f).sched = s.sched := rfl
@[simp] theorem State.modGr_col (s : State) (p : Pid) (g : Fin 4) (f : Griddle → Griddle) : (s.modGr p g f).col = s.col := rfl
@[simp] theorem State.modGr_mesh (s : State) (p : Pid) (g : Fin 4) (f : Griddle → Griddle) : (s.modGr p g f).mesh = s.mesh := rfl
@[simp] theorem State.modGr_commit (s : State) (p : Pid) (g : Fin 4) (f : Griddle → Griddle) : (s.modGr p g f).commit = s.commit := rfl
@[simp] theorem State.modGr_life (s : State) (p : Pid) (g : Fin 4) (f : Griddle → Griddle) : (s.modGr p g f).life = s.life := rfl
@[simp] theorem State.modGr_regions (s : State) (p : Pid) (g : Fin 4) (f : Griddle → Griddle) : (s.modGr p g f).regions = s.regions := rfl
@[simp] theorem State.modGr_ceLimit (s : State) (p : Pid) (g : Fin 4) (f : Griddle → Griddle) : (s.modGr p g f).ceLimit = s.ceLimit := rfl
@[simp] theorem State.modGr_ceLimitNext (s : State) (p : Pid) (g : Fin 4) (f : Griddle → Griddle) : (s.modGr p g f).ceLimitNext = s.ceLimitNext := rfl
@[simp] theorem State.modGr_guard (s : State) (p : Pid) (g : Fin 4) (f : Griddle → Griddle) : (s.modGr p g f).guard = s.guard := rfl
@[simp] theorem State.modGr_dict (s : State) (p : Pid) (g : Fin 4) (f : Griddle → Griddle) : (s.modGr p g f).dict = s.dict := rfl
@[simp] theorem State.modGr_links (s : State) (p : Pid) (g : Fin 4) (f : Griddle → Griddle) : (s.modGr p g f).links = s.links := rfl
@[simp] theorem State.modGr_rim (s : State) (p : Pid) (g : Fin 4) (f : Griddle → Griddle) : (s.modGr p g f).rim = s.rim := rfl
@[simp] theorem State.modGr_red (s : State) (p : Pid) (g : Fin 4) (f : Griddle → Griddle) : (s.modGr p g f).red = s.red := rfl
@[simp] theorem State.modGr_run (s : State) (p : Pid) (g : Fin 4) (f : Griddle → Griddle) : (s.modGr p g f).run = s.run := rfl
@[simp] theorem State.modGr_watch (s : State) (p : Pid) (g : Fin 4) (f : Griddle → Griddle) : (s.modGr p g f).watch = s.watch := rfl
@[simp] theorem State.modGr_recov (s : State) (p : Pid) (g : Fin 4) (f : Griddle → Griddle) : (s.modGr p g f).recov = s.recov := rfl
@[simp] theorem State.modGr_power (s : State) (p : Pid) (g : Fin 4) (f : Griddle → Griddle) : (s.modGr p g f).power = s.power := rfl
@[simp] theorem State.modGr_input (s : State) (p : Pid) (g : Fin 4) (f : Griddle → Griddle) : (s.modGr p g f).input = s.input := rfl
@[simp] theorem State.modGr_sec (s : State) (p : Pid) (g : Fin 4) (f : Griddle → Griddle) : (s.modGr p g f).sec = s.sec := rfl

/-! ### modTask -/

@[simp] theorem State.modTask_pending (s : State) (p : Pid) (t : Fin 16) (f : Task → Task) : (s.modTask p t f).pending = s.pending := rfl
@[simp] theorem State.modTask_free (s : State) (p : Pid) (t : Fin 16) (f : Task → Task) : (s.modTask p t f).free = s.free := rfl
@[simp] theorem State.modTask_time (s : State) (p : Pid) (t : Fin 16) (f : Task → Task) : (s.modTask p t f).time = s.time := rfl
@[simp] theorem State.modTask_sched (s : State) (p : Pid) (t : Fin 16) (f : Task → Task) : (s.modTask p t f).sched = s.sched := rfl
@[simp] theorem State.modTask_col (s : State) (p : Pid) (t : Fin 16) (f : Task → Task) : (s.modTask p t f).col = s.col := rfl
@[simp] theorem State.modTask_mesh (s : State) (p : Pid) (t : Fin 16) (f : Task → Task) : (s.modTask p t f).mesh = s.mesh := rfl
@[simp] theorem State.modTask_commit (s : State) (p : Pid) (t : Fin 16) (f : Task → Task) : (s.modTask p t f).commit = s.commit := rfl
@[simp] theorem State.modTask_life (s : State) (p : Pid) (t : Fin 16) (f : Task → Task) : (s.modTask p t f).life = s.life := rfl
@[simp] theorem State.modTask_regions (s : State) (p : Pid) (t : Fin 16) (f : Task → Task) : (s.modTask p t f).regions = s.regions := rfl
@[simp] theorem State.modTask_ceLimit (s : State) (p : Pid) (t : Fin 16) (f : Task → Task) : (s.modTask p t f).ceLimit = s.ceLimit := rfl
@[simp] theorem State.modTask_ceLimitNext (s : State) (p : Pid) (t : Fin 16) (f : Task → Task) : (s.modTask p t f).ceLimitNext = s.ceLimitNext := rfl
@[simp] theorem State.modTask_guard (s : State) (p : Pid) (t : Fin 16) (f : Task → Task) : (s.modTask p t f).guard = s.guard := rfl
@[simp] theorem State.modTask_dict (s : State) (p : Pid) (t : Fin 16) (f : Task → Task) : (s.modTask p t f).dict = s.dict := rfl
@[simp] theorem State.modTask_links (s : State) (p : Pid) (t : Fin 16) (f : Task → Task) : (s.modTask p t f).links = s.links := rfl
@[simp] theorem State.modTask_rim (s : State) (p : Pid) (t : Fin 16) (f : Task → Task) : (s.modTask p t f).rim = s.rim := rfl
@[simp] theorem State.modTask_red (s : State) (p : Pid) (t : Fin 16) (f : Task → Task) : (s.modTask p t f).red = s.red := rfl
@[simp] theorem State.modTask_run (s : State) (p : Pid) (t : Fin 16) (f : Task → Task) : (s.modTask p t f).run = s.run := rfl
@[simp] theorem State.modTask_watch (s : State) (p : Pid) (t : Fin 16) (f : Task → Task) : (s.modTask p t f).watch = s.watch := rfl
@[simp] theorem State.modTask_recov (s : State) (p : Pid) (t : Fin 16) (f : Task → Task) : (s.modTask p t f).recov = s.recov := rfl
@[simp] theorem State.modTask_power (s : State) (p : Pid) (t : Fin 16) (f : Task → Task) : (s.modTask p t f).power = s.power := rfl
@[simp] theorem State.modTask_input (s : State) (p : Pid) (t : Fin 16) (f : Task → Task) : (s.modTask p t f).input = s.input := rfl
@[simp] theorem State.modTask_sec (s : State) (p : Pid) (t : Fin 16) (f : Task → Task) : (s.modTask p t f).sec = s.sec := rfl

/-! ### modRt -/

@[simp] theorem State.modRt_pending (s : State) (n : Fin 68) (f : Router → Router) : (s.modRt n f).pending = s.pending := rfl
@[simp] theorem State.modRt_free (s : State) (n : Fin 68) (f : Router → Router) : (s.modRt n f).free = s.free := rfl
@[simp] theorem State.modRt_time (s : State) (n : Fin 68) (f : Router → Router) : (s.modRt n f).time = s.time := rfl
@[simp] theorem State.modRt_sched (s : State) (n : Fin 68) (f : Router → Router) : (s.modRt n f).sched = s.sched := rfl
@[simp] theorem State.modRt_col (s : State) (n : Fin 68) (f : Router → Router) : (s.modRt n f).col = s.col := rfl
@[simp] theorem State.modRt_sks (s : State) (n : Fin 68) (f : Router → Router) : (s.modRt n f).sks = s.sks := rfl
@[simp] theorem State.modRt_commit (s : State) (n : Fin 68) (f : Router → Router) : (s.modRt n f).commit = s.commit := rfl
@[simp] theorem State.modRt_life (s : State) (n : Fin 68) (f : Router → Router) : (s.modRt n f).life = s.life := rfl
@[simp] theorem State.modRt_regions (s : State) (n : Fin 68) (f : Router → Router) : (s.modRt n f).regions = s.regions := rfl
@[simp] theorem State.modRt_ceLimit (s : State) (n : Fin 68) (f : Router → Router) : (s.modRt n f).ceLimit = s.ceLimit := rfl
@[simp] theorem State.modRt_ceLimitNext (s : State) (n : Fin 68) (f : Router → Router) : (s.modRt n f).ceLimitNext = s.ceLimitNext := rfl
@[simp] theorem State.modRt_guard (s : State) (n : Fin 68) (f : Router → Router) : (s.modRt n f).guard = s.guard := rfl
@[simp] theorem State.modRt_dict (s : State) (n : Fin 68) (f : Router → Router) : (s.modRt n f).dict = s.dict := rfl
@[simp] theorem State.modRt_links (s : State) (n : Fin 68) (f : Router → Router) : (s.modRt n f).links = s.links := rfl
@[simp] theorem State.modRt_rim (s : State) (n : Fin 68) (f : Router → Router) : (s.modRt n f).rim = s.rim := rfl
@[simp] theorem State.modRt_red (s : State) (n : Fin 68) (f : Router → Router) : (s.modRt n f).red = s.red := rfl
@[simp] theorem State.modRt_run (s : State) (n : Fin 68) (f : Router → Router) : (s.modRt n f).run = s.run := rfl
@[simp] theorem State.modRt_watch (s : State) (n : Fin 68) (f : Router → Router) : (s.modRt n f).watch = s.watch := rfl
@[simp] theorem State.modRt_recov (s : State) (n : Fin 68) (f : Router → Router) : (s.modRt n f).recov = s.recov := rfl
@[simp] theorem State.modRt_power (s : State) (n : Fin 68) (f : Router → Router) : (s.modRt n f).power = s.power := rfl
@[simp] theorem State.modRt_input (s : State) (n : Fin 68) (f : Router → Router) : (s.modRt n f).input = s.input := rfl
@[simp] theorem State.modRt_sec (s : State) (n : Fin 68) (f : Router → Router) : (s.modRt n f).sec = s.sec := rfl

/-! ### modPort -/

@[simp] theorem State.modPort_pending (s : State) (n : Slice) (f : Port → Port) : (s.modPort n f).pending = s.pending := rfl
@[simp] theorem State.modPort_free (s : State) (n : Slice) (f : Port → Port) : (s.modPort n f).free = s.free := rfl
@[simp] theorem State.modPort_time (s : State) (n : Slice) (f : Port → Port) : (s.modPort n f).time = s.time := rfl
@[simp] theorem State.modPort_sched (s : State) (n : Slice) (f : Port → Port) : (s.modPort n f).sched = s.sched := rfl
@[simp] theorem State.modPort_col (s : State) (n : Slice) (f : Port → Port) : (s.modPort n f).col = s.col := rfl
@[simp] theorem State.modPort_sks (s : State) (n : Slice) (f : Port → Port) : (s.modPort n f).sks = s.sks := rfl
@[simp] theorem State.modPort_mesh (s : State) (n : Slice) (f : Port → Port) : (s.modPort n f).mesh = s.mesh := rfl
@[simp] theorem State.modPort_commit (s : State) (n : Slice) (f : Port → Port) : (s.modPort n f).commit = s.commit := rfl
@[simp] theorem State.modPort_life (s : State) (n : Slice) (f : Port → Port) : (s.modPort n f).life = s.life := rfl
@[simp] theorem State.modPort_regions (s : State) (n : Slice) (f : Port → Port) : (s.modPort n f).regions = s.regions := rfl
@[simp] theorem State.modPort_ceLimit (s : State) (n : Slice) (f : Port → Port) : (s.modPort n f).ceLimit = s.ceLimit := rfl
@[simp] theorem State.modPort_ceLimitNext (s : State) (n : Slice) (f : Port → Port) : (s.modPort n f).ceLimitNext = s.ceLimitNext := rfl
@[simp] theorem State.modPort_guard (s : State) (n : Slice) (f : Port → Port) : (s.modPort n f).guard = s.guard := rfl
@[simp] theorem State.modPort_dict (s : State) (n : Slice) (f : Port → Port) : (s.modPort n f).dict = s.dict := rfl
@[simp] theorem State.modPort_rim (s : State) (n : Slice) (f : Port → Port) : (s.modPort n f).rim = s.rim := rfl
@[simp] theorem State.modPort_red (s : State) (n : Slice) (f : Port → Port) : (s.modPort n f).red = s.red := rfl
@[simp] theorem State.modPort_run (s : State) (n : Slice) (f : Port → Port) : (s.modPort n f).run = s.run := rfl
@[simp] theorem State.modPort_watch (s : State) (n : Slice) (f : Port → Port) : (s.modPort n f).watch = s.watch := rfl
@[simp] theorem State.modPort_recov (s : State) (n : Slice) (f : Port → Port) : (s.modPort n f).recov = s.recov := rfl
@[simp] theorem State.modPort_power (s : State) (n : Slice) (f : Port → Port) : (s.modPort n f).power = s.power := rfl
@[simp] theorem State.modPort_input (s : State) (n : Slice) (f : Port → Port) : (s.modPort n f).input = s.input := rfl
@[simp] theorem State.modPort_sec (s : State) (n : Slice) (f : Port → Port) : (s.modPort n f).sec = s.sec := rfl

/-! ### modTorus -/

@[simp] theorem State.modTorus_pending (s : State) (f : TorusSt → TorusSt) : (s.modTorus f).pending = s.pending := rfl
@[simp] theorem State.modTorus_free (s : State) (f : TorusSt → TorusSt) : (s.modTorus f).free = s.free := rfl
@[simp] theorem State.modTorus_time (s : State) (f : TorusSt → TorusSt) : (s.modTorus f).time = s.time := rfl
@[simp] theorem State.modTorus_sched (s : State) (f : TorusSt → TorusSt) : (s.modTorus f).sched = s.sched := rfl
@[simp] theorem State.modTorus_col (s : State) (f : TorusSt → TorusSt) : (s.modTorus f).col = s.col := rfl
@[simp] theorem State.modTorus_sks (s : State) (f : TorusSt → TorusSt) : (s.modTorus f).sks = s.sks := rfl
@[simp] theorem State.modTorus_mesh (s : State) (f : TorusSt → TorusSt) : (s.modTorus f).mesh = s.mesh := rfl
@[simp] theorem State.modTorus_commit (s : State) (f : TorusSt → TorusSt) : (s.modTorus f).commit = s.commit := rfl
@[simp] theorem State.modTorus_life (s : State) (f : TorusSt → TorusSt) : (s.modTorus f).life = s.life := rfl
@[simp] theorem State.modTorus_regions (s : State) (f : TorusSt → TorusSt) : (s.modTorus f).regions = s.regions := rfl
@[simp] theorem State.modTorus_ceLimit (s : State) (f : TorusSt → TorusSt) : (s.modTorus f).ceLimit = s.ceLimit := rfl
@[simp] theorem State.modTorus_ceLimitNext (s : State) (f : TorusSt → TorusSt) : (s.modTorus f).ceLimitNext = s.ceLimitNext := rfl
@[simp] theorem State.modTorus_guard (s : State) (f : TorusSt → TorusSt) : (s.modTorus f).guard = s.guard := rfl
@[simp] theorem State.modTorus_dict (s : State) (f : TorusSt → TorusSt) : (s.modTorus f).dict = s.dict := rfl
@[simp] theorem State.modTorus_rim (s : State) (f : TorusSt → TorusSt) : (s.modTorus f).rim = s.rim := rfl
@[simp] theorem State.modTorus_red (s : State) (f : TorusSt → TorusSt) : (s.modTorus f).red = s.red := rfl
@[simp] theorem State.modTorus_run (s : State) (f : TorusSt → TorusSt) : (s.modTorus f).run = s.run := rfl
@[simp] theorem State.modTorus_watch (s : State) (f : TorusSt → TorusSt) : (s.modTorus f).watch = s.watch := rfl
@[simp] theorem State.modTorus_recov (s : State) (f : TorusSt → TorusSt) : (s.modTorus f).recov = s.recov := rfl
@[simp] theorem State.modTorus_power (s : State) (f : TorusSt → TorusSt) : (s.modTorus f).power = s.power := rfl
@[simp] theorem State.modTorus_input (s : State) (f : TorusSt → TorusSt) : (s.modTorus f).input = s.input := rfl
@[simp] theorem State.modTorus_sec (s : State) (f : TorusSt → TorusSt) : (s.modTorus f).sec = s.sec := rfl

/-! ### modBay -/

@[simp] theorem State.modBay_pending (s : State) (b : Fin 16) (f : Bay → Bay) : (s.modBay b f).pending = s.pending := rfl
@[simp] theorem State.modBay_free (s : State) (b : Fin 16) (f : Bay → Bay) : (s.modBay b f).free = s.free := rfl
@[simp] theorem State.modBay_time (s : State) (b : Fin 16) (f : Bay → Bay) : (s.modBay b f).time = s.time := rfl
@[simp] theorem State.modBay_sched (s : State) (b : Fin 16) (f : Bay → Bay) : (s.modBay b f).sched = s.sched := rfl
@[simp] theorem State.modBay_col (s : State) (b : Fin 16) (f : Bay → Bay) : (s.modBay b f).col = s.col := rfl
@[simp] theorem State.modBay_sks (s : State) (b : Fin 16) (f : Bay → Bay) : (s.modBay b f).sks = s.sks := rfl
@[simp] theorem State.modBay_mesh (s : State) (b : Fin 16) (f : Bay → Bay) : (s.modBay b f).mesh = s.mesh := rfl
@[simp] theorem State.modBay_commit (s : State) (b : Fin 16) (f : Bay → Bay) : (s.modBay b f).commit = s.commit := rfl
@[simp] theorem State.modBay_life (s : State) (b : Fin 16) (f : Bay → Bay) : (s.modBay b f).life = s.life := rfl
@[simp] theorem State.modBay_regions (s : State) (b : Fin 16) (f : Bay → Bay) : (s.modBay b f).regions = s.regions := rfl
@[simp] theorem State.modBay_ceLimit (s : State) (b : Fin 16) (f : Bay → Bay) : (s.modBay b f).ceLimit = s.ceLimit := rfl
@[simp] theorem State.modBay_ceLimitNext (s : State) (b : Fin 16) (f : Bay → Bay) : (s.modBay b f).ceLimitNext = s.ceLimitNext := rfl
@[simp] theorem State.modBay_guard (s : State) (b : Fin 16) (f : Bay → Bay) : (s.modBay b f).guard = s.guard := rfl
@[simp] theorem State.modBay_dict (s : State) (b : Fin 16) (f : Bay → Bay) : (s.modBay b f).dict = s.dict := rfl
@[simp] theorem State.modBay_rim (s : State) (b : Fin 16) (f : Bay → Bay) : (s.modBay b f).rim = s.rim := rfl
@[simp] theorem State.modBay_red (s : State) (b : Fin 16) (f : Bay → Bay) : (s.modBay b f).red = s.red := rfl
@[simp] theorem State.modBay_run (s : State) (b : Fin 16) (f : Bay → Bay) : (s.modBay b f).run = s.run := rfl
@[simp] theorem State.modBay_watch (s : State) (b : Fin 16) (f : Bay → Bay) : (s.modBay b f).watch = s.watch := rfl
@[simp] theorem State.modBay_recov (s : State) (b : Fin 16) (f : Bay → Bay) : (s.modBay b f).recov = s.recov := rfl
@[simp] theorem State.modBay_power (s : State) (b : Fin 16) (f : Bay → Bay) : (s.modBay b f).power = s.power := rfl
@[simp] theorem State.modBay_input (s : State) (b : Fin 16) (f : Bay → Bay) : (s.modBay b f).input = s.input := rfl
@[simp] theorem State.modBay_sec (s : State) (b : Fin 16) (f : Bay → Bay) : (s.modBay b f).sec = s.sec := rfl

/-! ### modSlice -/

@[simp] theorem State.modSlice_pending (s : State) (sl : Slice) (f : RimSlice → RimSlice) : (s.modSlice sl f).pending = s.pending := rfl
@[simp] theorem State.modSlice_free (s : State) (sl : Slice) (f : RimSlice → RimSlice) : (s.modSlice sl f).free = s.free := rfl
@[simp] theorem State.modSlice_time (s : State) (sl : Slice) (f : RimSlice → RimSlice) : (s.modSlice sl f).time = s.time := rfl
@[simp] theorem State.modSlice_sched (s : State) (sl : Slice) (f : RimSlice → RimSlice) : (s.modSlice sl f).sched = s.sched := rfl
@[simp] theorem State.modSlice_col (s : State) (sl : Slice) (f : RimSlice → RimSlice) : (s.modSlice sl f).col = s.col := rfl
@[simp] theorem State.modSlice_sks (s : State) (sl : Slice) (f : RimSlice → RimSlice) : (s.modSlice sl f).sks = s.sks := rfl
@[simp] theorem State.modSlice_mesh (s : State) (sl : Slice) (f : RimSlice → RimSlice) : (s.modSlice sl f).mesh = s.mesh := rfl
@[simp] theorem State.modSlice_commit (s : State) (sl : Slice) (f : RimSlice → RimSlice) : (s.modSlice sl f).commit = s.commit := rfl
@[simp] theorem State.modSlice_life (s : State) (sl : Slice) (f : RimSlice → RimSlice) : (s.modSlice sl f).life = s.life := rfl
@[simp] theorem State.modSlice_regions (s : State) (sl : Slice) (f : RimSlice → RimSlice) : (s.modSlice sl f).regions = s.regions := rfl
@[simp] theorem State.modSlice_ceLimit (s : State) (sl : Slice) (f : RimSlice → RimSlice) : (s.modSlice sl f).ceLimit = s.ceLimit := rfl
@[simp] theorem State.modSlice_ceLimitNext (s : State) (sl : Slice) (f : RimSlice → RimSlice) : (s.modSlice sl f).ceLimitNext = s.ceLimitNext := rfl
@[simp] theorem State.modSlice_guard (s : State) (sl : Slice) (f : RimSlice → RimSlice) : (s.modSlice sl f).guard = s.guard := rfl
@[simp] theorem State.modSlice_dict (s : State) (sl : Slice) (f : RimSlice → RimSlice) : (s.modSlice sl f).dict = s.dict := rfl
@[simp] theorem State.modSlice_links (s : State) (sl : Slice) (f : RimSlice → RimSlice) : (s.modSlice sl f).links = s.links := rfl
@[simp] theorem State.modSlice_red (s : State) (sl : Slice) (f : RimSlice → RimSlice) : (s.modSlice sl f).red = s.red := rfl
@[simp] theorem State.modSlice_run (s : State) (sl : Slice) (f : RimSlice → RimSlice) : (s.modSlice sl f).run = s.run := rfl
@[simp] theorem State.modSlice_watch (s : State) (sl : Slice) (f : RimSlice → RimSlice) : (s.modSlice sl f).watch = s.watch := rfl
@[simp] theorem State.modSlice_recov (s : State) (sl : Slice) (f : RimSlice → RimSlice) : (s.modSlice sl f).recov = s.recov := rfl
@[simp] theorem State.modSlice_power (s : State) (sl : Slice) (f : RimSlice → RimSlice) : (s.modSlice sl f).power = s.power := rfl
@[simp] theorem State.modSlice_input (s : State) (sl : Slice) (f : RimSlice → RimSlice) : (s.modSlice sl f).input = s.input := rfl
@[simp] theorem State.modSlice_sec (s : State) (sl : Slice) (f : RimSlice → RimSlice) : (s.modSlice sl f).sec = s.sec := rfl

/-! ### modMc -/

@[simp] theorem State.modMc_pending (s : State) (sl : Slice) (f : Stack → Stack) : (s.modMc sl f).pending = s.pending := rfl
@[simp] theorem State.modMc_free (s : State) (sl : Slice) (f : Stack → Stack) : (s.modMc sl f).free = s.free := rfl
@[simp] theorem State.modMc_time (s : State) (sl : Slice) (f : Stack → Stack) : (s.modMc sl f).time = s.time := rfl
@[simp] theorem State.modMc_sched (s : State) (sl : Slice) (f : Stack → Stack) : (s.modMc sl f).sched = s.sched := rfl
@[simp] theorem State.modMc_col (s : State) (sl : Slice) (f : Stack → Stack) : (s.modMc sl f).col = s.col := rfl
@[simp] theorem State.modMc_sks (s : State) (sl : Slice) (f : Stack → Stack) : (s.modMc sl f).sks = s.sks := rfl
@[simp] theorem State.modMc_mesh (s : State) (sl : Slice) (f : Stack → Stack) : (s.modMc sl f).mesh = s.mesh := rfl
@[simp] theorem State.modMc_commit (s : State) (sl : Slice) (f : Stack → Stack) : (s.modMc sl f).commit = s.commit := rfl
@[simp] theorem State.modMc_life (s : State) (sl : Slice) (f : Stack → Stack) : (s.modMc sl f).life = s.life := rfl
@[simp] theorem State.modMc_regions (s : State) (sl : Slice) (f : Stack → Stack) : (s.modMc sl f).regions = s.regions := rfl
@[simp] theorem State.modMc_ceLimit (s : State) (sl : Slice) (f : Stack → Stack) : (s.modMc sl f).ceLimit = s.ceLimit := rfl
@[simp] theorem State.modMc_ceLimitNext (s : State) (sl : Slice) (f : Stack → Stack) : (s.modMc sl f).ceLimitNext = s.ceLimitNext := rfl
@[simp] theorem State.modMc_guard (s : State) (sl : Slice) (f : Stack → Stack) : (s.modMc sl f).guard = s.guard := rfl
@[simp] theorem State.modMc_dict (s : State) (sl : Slice) (f : Stack → Stack) : (s.modMc sl f).dict = s.dict := rfl
@[simp] theorem State.modMc_links (s : State) (sl : Slice) (f : Stack → Stack) : (s.modMc sl f).links = s.links := rfl
@[simp] theorem State.modMc_red (s : State) (sl : Slice) (f : Stack → Stack) : (s.modMc sl f).red = s.red := rfl
@[simp] theorem State.modMc_run (s : State) (sl : Slice) (f : Stack → Stack) : (s.modMc sl f).run = s.run := rfl
@[simp] theorem State.modMc_watch (s : State) (sl : Slice) (f : Stack → Stack) : (s.modMc sl f).watch = s.watch := rfl
@[simp] theorem State.modMc_recov (s : State) (sl : Slice) (f : Stack → Stack) : (s.modMc sl f).recov = s.recov := rfl
@[simp] theorem State.modMc_power (s : State) (sl : Slice) (f : Stack → Stack) : (s.modMc sl f).power = s.power := rfl
@[simp] theorem State.modMc_input (s : State) (sl : Slice) (f : Stack → Stack) : (s.modMc sl f).input = s.input := rfl
@[simp] theorem State.modMc_sec (s : State) (sl : Slice) (f : Stack → Stack) : (s.modMc sl f).sec = s.sec := rfl

/-! ### modUe -/

@[simp] theorem State.modUe_pending (s : State) (sl : Slice) (f : Ue → Ue) : (s.modUe sl f).pending = s.pending := rfl
@[simp] theorem State.modUe_free (s : State) (sl : Slice) (f : Ue → Ue) : (s.modUe sl f).free = s.free := rfl
@[simp] theorem State.modUe_time (s : State) (sl : Slice) (f : Ue → Ue) : (s.modUe sl f).time = s.time := rfl
@[simp] theorem State.modUe_sched (s : State) (sl : Slice) (f : Ue → Ue) : (s.modUe sl f).sched = s.sched := rfl
@[simp] theorem State.modUe_col (s : State) (sl : Slice) (f : Ue → Ue) : (s.modUe sl f).col = s.col := rfl
@[simp] theorem State.modUe_sks (s : State) (sl : Slice) (f : Ue → Ue) : (s.modUe sl f).sks = s.sks := rfl
@[simp] theorem State.modUe_mesh (s : State) (sl : Slice) (f : Ue → Ue) : (s.modUe sl f).mesh = s.mesh := rfl
@[simp] theorem State.modUe_commit (s : State) (sl : Slice) (f : Ue → Ue) : (s.modUe sl f).commit = s.commit := rfl
@[simp] theorem State.modUe_life (s : State) (sl : Slice) (f : Ue → Ue) : (s.modUe sl f).life = s.life := rfl
@[simp] theorem State.modUe_regions (s : State) (sl : Slice) (f : Ue → Ue) : (s.modUe sl f).regions = s.regions := rfl
@[simp] theorem State.modUe_ceLimit (s : State) (sl : Slice) (f : Ue → Ue) : (s.modUe sl f).ceLimit = s.ceLimit := rfl
@[simp] theorem State.modUe_ceLimitNext (s : State) (sl : Slice) (f : Ue → Ue) : (s.modUe sl f).ceLimitNext = s.ceLimitNext := rfl
@[simp] theorem State.modUe_guard (s : State) (sl : Slice) (f : Ue → Ue) : (s.modUe sl f).guard = s.guard := rfl
@[simp] theorem State.modUe_dict (s : State) (sl : Slice) (f : Ue → Ue) : (s.modUe sl f).dict = s.dict := rfl
@[simp] theorem State.modUe_links (s : State) (sl : Slice) (f : Ue → Ue) : (s.modUe sl f).links = s.links := rfl
@[simp] theorem State.modUe_red (s : State) (sl : Slice) (f : Ue → Ue) : (s.modUe sl f).red = s.red := rfl
@[simp] theorem State.modUe_run (s : State) (sl : Slice) (f : Ue → Ue) : (s.modUe sl f).run = s.run := rfl
@[simp] theorem State.modUe_watch (s : State) (sl : Slice) (f : Ue → Ue) : (s.modUe sl f).watch = s.watch := rfl
@[simp] theorem State.modUe_recov (s : State) (sl : Slice) (f : Ue → Ue) : (s.modUe sl f).recov = s.recov := rfl
@[simp] theorem State.modUe_power (s : State) (sl : Slice) (f : Ue → Ue) : (s.modUe sl f).power = s.power := rfl
@[simp] theorem State.modUe_input (s : State) (sl : Slice) (f : Ue → Ue) : (s.modUe sl f).input = s.input := rfl
@[simp] theorem State.modUe_sec (s : State) (sl : Slice) (f : Ue → Ue) : (s.modUe sl f).sec = s.sec := rfl

/-! ### modRedSl -/

@[simp] theorem State.modRedSl_pending (s : State) (sl : Slice) (f : RedSlice → RedSlice) : (s.modRedSl sl f).pending = s.pending := rfl
@[simp] theorem State.modRedSl_free (s : State) (sl : Slice) (f : RedSlice → RedSlice) : (s.modRedSl sl f).free = s.free := rfl
@[simp] theorem State.modRedSl_time (s : State) (sl : Slice) (f : RedSlice → RedSlice) : (s.modRedSl sl f).time = s.time := rfl
@[simp] theorem State.modRedSl_sched (s : State) (sl : Slice) (f : RedSlice → RedSlice) : (s.modRedSl sl f).sched = s.sched := rfl
@[simp] theorem State.modRedSl_col (s : State) (sl : Slice) (f : RedSlice → RedSlice) : (s.modRedSl sl f).col = s.col := rfl
@[simp] theorem State.modRedSl_sks (s : State) (sl : Slice) (f : RedSlice → RedSlice) : (s.modRedSl sl f).sks = s.sks := rfl
@[simp] theorem State.modRedSl_mesh (s : State) (sl : Slice) (f : RedSlice → RedSlice) : (s.modRedSl sl f).mesh = s.mesh := rfl
@[simp] theorem State.modRedSl_commit (s : State) (sl : Slice) (f : RedSlice → RedSlice) : (s.modRedSl sl f).commit = s.commit := rfl
@[simp] theorem State.modRedSl_life (s : State) (sl : Slice) (f : RedSlice → RedSlice) : (s.modRedSl sl f).life = s.life := rfl
@[simp] theorem State.modRedSl_regions (s : State) (sl : Slice) (f : RedSlice → RedSlice) : (s.modRedSl sl f).regions = s.regions := rfl
@[simp] theorem State.modRedSl_ceLimit (s : State) (sl : Slice) (f : RedSlice → RedSlice) : (s.modRedSl sl f).ceLimit = s.ceLimit := rfl
@[simp] theorem State.modRedSl_ceLimitNext (s : State) (sl : Slice) (f : RedSlice → RedSlice) : (s.modRedSl sl f).ceLimitNext = s.ceLimitNext := rfl
@[simp] theorem State.modRedSl_guard (s : State) (sl : Slice) (f : RedSlice → RedSlice) : (s.modRedSl sl f).guard = s.guard := rfl
@[simp] theorem State.modRedSl_dict (s : State) (sl : Slice) (f : RedSlice → RedSlice) : (s.modRedSl sl f).dict = s.dict := rfl
@[simp] theorem State.modRedSl_links (s : State) (sl : Slice) (f : RedSlice → RedSlice) : (s.modRedSl sl f).links = s.links := rfl
@[simp] theorem State.modRedSl_red (s : State) (sl : Slice) (f : RedSlice → RedSlice) : (s.modRedSl sl f).red = s.red := rfl
@[simp] theorem State.modRedSl_run (s : State) (sl : Slice) (f : RedSlice → RedSlice) : (s.modRedSl sl f).run = s.run := rfl
@[simp] theorem State.modRedSl_watch (s : State) (sl : Slice) (f : RedSlice → RedSlice) : (s.modRedSl sl f).watch = s.watch := rfl
@[simp] theorem State.modRedSl_recov (s : State) (sl : Slice) (f : RedSlice → RedSlice) : (s.modRedSl sl f).recov = s.recov := rfl
@[simp] theorem State.modRedSl_power (s : State) (sl : Slice) (f : RedSlice → RedSlice) : (s.modRedSl sl f).power = s.power := rfl
@[simp] theorem State.modRedSl_input (s : State) (sl : Slice) (f : RedSlice → RedSlice) : (s.modRedSl sl f).input = s.input := rfl
@[simp] theorem State.modRedSl_sec (s : State) (sl : Slice) (f : RedSlice → RedSlice) : (s.modRedSl sl f).sec = s.sec := rfl

/-! ### modBuffer -/

@[simp] theorem State.modBuffer_pending (s : State) (i : Fin 4) (f : RimBuffer → RimBuffer) : (s.modBuffer i f).pending = s.pending := rfl
@[simp] theorem State.modBuffer_free (s : State) (i : Fin 4) (f : RimBuffer → RimBuffer) : (s.modBuffer i f).free = s.free := rfl
@[simp] theorem State.modBuffer_time (s : State) (i : Fin 4) (f : RimBuffer → RimBuffer) : (s.modBuffer i f).time = s.time := rfl
@[simp] theorem State.modBuffer_sched (s : State) (i : Fin 4) (f : RimBuffer → RimBuffer) : (s.modBuffer i f).sched = s.sched := rfl
@[simp] theorem State.modBuffer_col (s : State) (i : Fin 4) (f : RimBuffer → RimBuffer) : (s.modBuffer i f).col = s.col := rfl
@[simp] theorem State.modBuffer_sks (s : State) (i : Fin 4) (f : RimBuffer → RimBuffer) : (s.modBuffer i f).sks = s.sks := rfl
@[simp] theorem State.modBuffer_mesh (s : State) (i : Fin 4) (f : RimBuffer → RimBuffer) : (s.modBuffer i f).mesh = s.mesh := rfl
@[simp] theorem State.modBuffer_commit (s : State) (i : Fin 4) (f : RimBuffer → RimBuffer) : (s.modBuffer i f).commit = s.commit := rfl
@[simp] theorem State.modBuffer_life (s : State) (i : Fin 4) (f : RimBuffer → RimBuffer) : (s.modBuffer i f).life = s.life := rfl
@[simp] theorem State.modBuffer_regions (s : State) (i : Fin 4) (f : RimBuffer → RimBuffer) : (s.modBuffer i f).regions = s.regions := rfl
@[simp] theorem State.modBuffer_ceLimit (s : State) (i : Fin 4) (f : RimBuffer → RimBuffer) : (s.modBuffer i f).ceLimit = s.ceLimit := rfl
@[simp] theorem State.modBuffer_ceLimitNext (s : State) (i : Fin 4) (f : RimBuffer → RimBuffer) : (s.modBuffer i f).ceLimitNext = s.ceLimitNext := rfl
@[simp] theorem State.modBuffer_guard (s : State) (i : Fin 4) (f : RimBuffer → RimBuffer) : (s.modBuffer i f).guard = s.guard := rfl
@[simp] theorem State.modBuffer_dict (s : State) (i : Fin 4) (f : RimBuffer → RimBuffer) : (s.modBuffer i f).dict = s.dict := rfl
@[simp] theorem State.modBuffer_links (s : State) (i : Fin 4) (f : RimBuffer → RimBuffer) : (s.modBuffer i f).links = s.links := rfl
@[simp] theorem State.modBuffer_red (s : State) (i : Fin 4) (f : RimBuffer → RimBuffer) : (s.modBuffer i f).red = s.red := rfl
@[simp] theorem State.modBuffer_run (s : State) (i : Fin 4) (f : RimBuffer → RimBuffer) : (s.modBuffer i f).run = s.run := rfl
@[simp] theorem State.modBuffer_watch (s : State) (i : Fin 4) (f : RimBuffer → RimBuffer) : (s.modBuffer i f).watch = s.watch := rfl
@[simp] theorem State.modBuffer_recov (s : State) (i : Fin 4) (f : RimBuffer → RimBuffer) : (s.modBuffer i f).recov = s.recov := rfl
@[simp] theorem State.modBuffer_power (s : State) (i : Fin 4) (f : RimBuffer → RimBuffer) : (s.modBuffer i f).power = s.power := rfl
@[simp] theorem State.modBuffer_input (s : State) (i : Fin 4) (f : RimBuffer → RimBuffer) : (s.modBuffer i f).input = s.input := rfl
@[simp] theorem State.modBuffer_sec (s : State) (i : Fin 4) (f : RimBuffer → RimBuffer) : (s.modBuffer i f).sec = s.sec := rfl

/-! ### modRed -/

@[simp] theorem State.modRed_pending (s : State) (f : RedSt → RedSt) : (s.modRed f).pending = s.pending := rfl
@[simp] theorem State.modRed_free (s : State) (f : RedSt → RedSt) : (s.modRed f).free = s.free := rfl
@[simp] theorem State.modRed_time (s : State) (f : RedSt → RedSt) : (s.modRed f).time = s.time := rfl
@[simp] theorem State.modRed_sched (s : State) (f : RedSt → RedSt) : (s.modRed f).sched = s.sched := rfl
@[simp] theorem State.modRed_col (s : State) (f : RedSt → RedSt) : (s.modRed f).col = s.col := rfl
@[simp] theorem State.modRed_sks (s : State) (f : RedSt → RedSt) : (s.modRed f).sks = s.sks := rfl
@[simp] theorem State.modRed_mesh (s : State) (f : RedSt → RedSt) : (s.modRed f).mesh = s.mesh := rfl
@[simp] theorem State.modRed_commit (s : State) (f : RedSt → RedSt) : (s.modRed f).commit = s.commit := rfl
@[simp] theorem State.modRed_life (s : State) (f : RedSt → RedSt) : (s.modRed f).life = s.life := rfl
@[simp] theorem State.modRed_regions (s : State) (f : RedSt → RedSt) : (s.modRed f).regions = s.regions := rfl
@[simp] theorem State.modRed_ceLimit (s : State) (f : RedSt → RedSt) : (s.modRed f).ceLimit = s.ceLimit := rfl
@[simp] theorem State.modRed_ceLimitNext (s : State) (f : RedSt → RedSt) : (s.modRed f).ceLimitNext = s.ceLimitNext := rfl
@[simp] theorem State.modRed_guard (s : State) (f : RedSt → RedSt) : (s.modRed f).guard = s.guard := rfl
@[simp] theorem State.modRed_dict (s : State) (f : RedSt → RedSt) : (s.modRed f).dict = s.dict := rfl
@[simp] theorem State.modRed_links (s : State) (f : RedSt → RedSt) : (s.modRed f).links = s.links := rfl
@[simp] theorem State.modRed_rim (s : State) (f : RedSt → RedSt) : (s.modRed f).rim = s.rim := rfl
@[simp] theorem State.modRed_red (s : State) (f : RedSt → RedSt) : (s.modRed f).red = f s.red := rfl
@[simp] theorem State.modRed_run (s : State) (f : RedSt → RedSt) : (s.modRed f).run = s.run := rfl
@[simp] theorem State.modRed_watch (s : State) (f : RedSt → RedSt) : (s.modRed f).watch = s.watch := rfl
@[simp] theorem State.modRed_recov (s : State) (f : RedSt → RedSt) : (s.modRed f).recov = s.recov := rfl
@[simp] theorem State.modRed_power (s : State) (f : RedSt → RedSt) : (s.modRed f).power = s.power := rfl
@[simp] theorem State.modRed_input (s : State) (f : RedSt → RedSt) : (s.modRed f).input = s.input := rfl
@[simp] theorem State.modRed_sec (s : State) (f : RedSt → RedSt) : (s.modRed f).sec = s.sec := rfl

/-! ### modRun -/

@[simp] theorem State.modRun_pending (s : State) (f : StepSt → StepSt) : (s.modRun f).pending = s.pending := rfl
@[simp] theorem State.modRun_free (s : State) (f : StepSt → StepSt) : (s.modRun f).free = s.free := rfl
@[simp] theorem State.modRun_time (s : State) (f : StepSt → StepSt) : (s.modRun f).time = s.time := rfl
@[simp] theorem State.modRun_sched (s : State) (f : StepSt → StepSt) : (s.modRun f).sched = s.sched := rfl
@[simp] theorem State.modRun_col (s : State) (f : StepSt → StepSt) : (s.modRun f).col = s.col := rfl
@[simp] theorem State.modRun_sks (s : State) (f : StepSt → StepSt) : (s.modRun f).sks = s.sks := rfl
@[simp] theorem State.modRun_mesh (s : State) (f : StepSt → StepSt) : (s.modRun f).mesh = s.mesh := rfl
@[simp] theorem State.modRun_commit (s : State) (f : StepSt → StepSt) : (s.modRun f).commit = s.commit := rfl
@[simp] theorem State.modRun_life (s : State) (f : StepSt → StepSt) : (s.modRun f).life = s.life := rfl
@[simp] theorem State.modRun_regions (s : State) (f : StepSt → StepSt) : (s.modRun f).regions = s.regions := rfl
@[simp] theorem State.modRun_ceLimit (s : State) (f : StepSt → StepSt) : (s.modRun f).ceLimit = s.ceLimit := rfl
@[simp] theorem State.modRun_ceLimitNext (s : State) (f : StepSt → StepSt) : (s.modRun f).ceLimitNext = s.ceLimitNext := rfl
@[simp] theorem State.modRun_guard (s : State) (f : StepSt → StepSt) : (s.modRun f).guard = s.guard := rfl
@[simp] theorem State.modRun_dict (s : State) (f : StepSt → StepSt) : (s.modRun f).dict = s.dict := rfl
@[simp] theorem State.modRun_links (s : State) (f : StepSt → StepSt) : (s.modRun f).links = s.links := rfl
@[simp] theorem State.modRun_rim (s : State) (f : StepSt → StepSt) : (s.modRun f).rim = s.rim := rfl
@[simp] theorem State.modRun_red (s : State) (f : StepSt → StepSt) : (s.modRun f).red = s.red := rfl
@[simp] theorem State.modRun_run (s : State) (f : StepSt → StepSt) : (s.modRun f).run = f s.run := rfl
@[simp] theorem State.modRun_watch (s : State) (f : StepSt → StepSt) : (s.modRun f).watch = s.watch := rfl
@[simp] theorem State.modRun_recov (s : State) (f : StepSt → StepSt) : (s.modRun f).recov = s.recov := rfl
@[simp] theorem State.modRun_power (s : State) (f : StepSt → StepSt) : (s.modRun f).power = s.power := rfl
@[simp] theorem State.modRun_input (s : State) (f : StepSt → StepSt) : (s.modRun f).input = s.input := rfl
@[simp] theorem State.modRun_sec (s : State) (f : StepSt → StepSt) : (s.modRun f).sec = s.sec := rfl

/-! ### modWatch -/

@[simp] theorem State.modWatch_pending (s : State) (f : WatchSt → WatchSt) : (s.modWatch f).pending = s.pending := rfl
@[simp] theorem State.modWatch_free (s : State) (f : WatchSt → WatchSt) : (s.modWatch f).free = s.free := rfl
@[simp] theorem State.modWatch_time (s : State) (f : WatchSt → WatchSt) : (s.modWatch f).time = s.time := rfl
@[simp] theorem State.modWatch_sched (s : State) (f : WatchSt → WatchSt) : (s.modWatch f).sched = s.sched := rfl
@[simp] theorem State.modWatch_col (s : State) (f : WatchSt → WatchSt) : (s.modWatch f).col = s.col := rfl
@[simp] theorem State.modWatch_sks (s : State) (f : WatchSt → WatchSt) : (s.modWatch f).sks = s.sks := rfl
@[simp] theorem State.modWatch_mesh (s : State) (f : WatchSt → WatchSt) : (s.modWatch f).mesh = s.mesh := rfl
@[simp] theorem State.modWatch_commit (s : State) (f : WatchSt → WatchSt) : (s.modWatch f).commit = s.commit := rfl
@[simp] theorem State.modWatch_life (s : State) (f : WatchSt → WatchSt) : (s.modWatch f).life = s.life := rfl
@[simp] theorem State.modWatch_regions (s : State) (f : WatchSt → WatchSt) : (s.modWatch f).regions = s.regions := rfl
@[simp] theorem State.modWatch_ceLimit (s : State) (f : WatchSt → WatchSt) : (s.modWatch f).ceLimit = s.ceLimit := rfl
@[simp] theorem State.modWatch_ceLimitNext (s : State) (f : WatchSt → WatchSt) : (s.modWatch f).ceLimitNext = s.ceLimitNext := rfl
@[simp] theorem State.modWatch_guard (s : State) (f : WatchSt → WatchSt) : (s.modWatch f).guard = s.guard := rfl
@[simp] theorem State.modWatch_dict (s : State) (f : WatchSt → WatchSt) : (s.modWatch f).dict = s.dict := rfl
@[simp] theorem State.modWatch_links (s : State) (f : WatchSt → WatchSt) : (s.modWatch f).links = s.links := rfl
@[simp] theorem State.modWatch_rim (s : State) (f : WatchSt → WatchSt) : (s.modWatch f).rim = s.rim := rfl
@[simp] theorem State.modWatch_red (s : State) (f : WatchSt → WatchSt) : (s.modWatch f).red = s.red := rfl
@[simp] theorem State.modWatch_run (s : State) (f : WatchSt → WatchSt) : (s.modWatch f).run = s.run := rfl
@[simp] theorem State.modWatch_watch (s : State) (f : WatchSt → WatchSt) : (s.modWatch f).watch = f s.watch := rfl
@[simp] theorem State.modWatch_recov (s : State) (f : WatchSt → WatchSt) : (s.modWatch f).recov = s.recov := rfl
@[simp] theorem State.modWatch_power (s : State) (f : WatchSt → WatchSt) : (s.modWatch f).power = s.power := rfl
@[simp] theorem State.modWatch_input (s : State) (f : WatchSt → WatchSt) : (s.modWatch f).input = s.input := rfl
@[simp] theorem State.modWatch_sec (s : State) (f : WatchSt → WatchSt) : (s.modWatch f).sec = s.sec := rfl

/-! ### modRecov -/

@[simp] theorem State.modRecov_pending (s : State) (f : RecoverSt → RecoverSt) : (s.modRecov f).pending = s.pending := rfl
@[simp] theorem State.modRecov_free (s : State) (f : RecoverSt → RecoverSt) : (s.modRecov f).free = s.free := rfl
@[simp] theorem State.modRecov_time (s : State) (f : RecoverSt → RecoverSt) : (s.modRecov f).time = s.time := rfl
@[simp] theorem State.modRecov_sched (s : State) (f : RecoverSt → RecoverSt) : (s.modRecov f).sched = s.sched := rfl
@[simp] theorem State.modRecov_col (s : State) (f : RecoverSt → RecoverSt) : (s.modRecov f).col = s.col := rfl
@[simp] theorem State.modRecov_sks (s : State) (f : RecoverSt → RecoverSt) : (s.modRecov f).sks = s.sks := rfl
@[simp] theorem State.modRecov_mesh (s : State) (f : RecoverSt → RecoverSt) : (s.modRecov f).mesh = s.mesh := rfl
@[simp] theorem State.modRecov_commit (s : State) (f : RecoverSt → RecoverSt) : (s.modRecov f).commit = s.commit := rfl
@[simp] theorem State.modRecov_life (s : State) (f : RecoverSt → RecoverSt) : (s.modRecov f).life = s.life := rfl
@[simp] theorem State.modRecov_regions (s : State) (f : RecoverSt → RecoverSt) : (s.modRecov f).regions = s.regions := rfl
@[simp] theorem State.modRecov_ceLimit (s : State) (f : RecoverSt → RecoverSt) : (s.modRecov f).ceLimit = s.ceLimit := rfl
@[simp] theorem State.modRecov_ceLimitNext (s : State) (f : RecoverSt → RecoverSt) : (s.modRecov f).ceLimitNext = s.ceLimitNext := rfl
@[simp] theorem State.modRecov_guard (s : State) (f : RecoverSt → RecoverSt) : (s.modRecov f).guard = s.guard := rfl
@[simp] theorem State.modRecov_dict (s : State) (f : RecoverSt → RecoverSt) : (s.modRecov f).dict = s.dict := rfl
@[simp] theorem State.modRecov_links (s : State) (f : RecoverSt → RecoverSt) : (s.modRecov f).links = s.links := rfl
@[simp] theorem State.modRecov_rim (s : State) (f : RecoverSt → RecoverSt) : (s.modRecov f).rim = s.rim := rfl
@[simp] theorem State.modRecov_red (s : State) (f : RecoverSt → RecoverSt) : (s.modRecov f).red = s.red := rfl
@[simp] theorem State.modRecov_run (s : State) (f : RecoverSt → RecoverSt) : (s.modRecov f).run = s.run := rfl
@[simp] theorem State.modRecov_watch (s : State) (f : RecoverSt → RecoverSt) : (s.modRecov f).watch = s.watch := rfl
@[simp] theorem State.modRecov_recov (s : State) (f : RecoverSt → RecoverSt) : (s.modRecov f).recov = f s.recov := rfl
@[simp] theorem State.modRecov_power (s : State) (f : RecoverSt → RecoverSt) : (s.modRecov f).power = s.power := rfl
@[simp] theorem State.modRecov_input (s : State) (f : RecoverSt → RecoverSt) : (s.modRecov f).input = s.input := rfl
@[simp] theorem State.modRecov_sec (s : State) (f : RecoverSt → RecoverSt) : (s.modRecov f).sec = s.sec := rfl

/-! ### modPower -/

@[simp] theorem State.modPower_pending (s : State) (f : PowerSt → PowerSt) : (s.modPower f).pending = s.pending := rfl
@[simp] theorem State.modPower_free (s : State) (f : PowerSt → PowerSt) : (s.modPower f).free = s.free := rfl
@[simp] theorem State.modPower_time (s : State) (f : PowerSt → PowerSt) : (s.modPower f).time = s.time := rfl
@[simp] theorem State.modPower_sched (s : State) (f : PowerSt → PowerSt) : (s.modPower f).sched = s.sched := rfl
@[simp] theorem State.modPower_col (s : State) (f : PowerSt → PowerSt) : (s.modPower f).col = s.col := rfl
@[simp] theorem State.modPower_sks (s : State) (f : PowerSt → PowerSt) : (s.modPower f).sks = s.sks := rfl
@[simp] theorem State.modPower_mesh (s : State) (f : PowerSt → PowerSt) : (s.modPower f).mesh = s.mesh := rfl
@[simp] theorem State.modPower_commit (s : State) (f : PowerSt → PowerSt) : (s.modPower f).commit = s.commit := rfl
@[simp] theorem State.modPower_life (s : State) (f : PowerSt → PowerSt) : (s.modPower f).life = s.life := rfl
@[simp] theorem State.modPower_regions (s : State) (f : PowerSt → PowerSt) : (s.modPower f).regions = s.regions := rfl
@[simp] theorem State.modPower_ceLimit (s : State) (f : PowerSt → PowerSt) : (s.modPower f).ceLimit = s.ceLimit := rfl
@[simp] theorem State.modPower_ceLimitNext (s : State) (f : PowerSt → PowerSt) : (s.modPower f).ceLimitNext = s.ceLimitNext := rfl
@[simp] theorem State.modPower_guard (s : State) (f : PowerSt → PowerSt) : (s.modPower f).guard = s.guard := rfl
@[simp] theorem State.modPower_dict (s : State) (f : PowerSt → PowerSt) : (s.modPower f).dict = s.dict := rfl
@[simp] theorem State.modPower_links (s : State) (f : PowerSt → PowerSt) : (s.modPower f).links = s.links := rfl
@[simp] theorem State.modPower_rim (s : State) (f : PowerSt → PowerSt) : (s.modPower f).rim = s.rim := rfl
@[simp] theorem State.modPower_red (s : State) (f : PowerSt → PowerSt) : (s.modPower f).red = s.red := rfl
@[simp] theorem State.modPower_run (s : State) (f : PowerSt → PowerSt) : (s.modPower f).run = s.run := rfl
@[simp] theorem State.modPower_watch (s : State) (f : PowerSt → PowerSt) : (s.modPower f).watch = s.watch := rfl
@[simp] theorem State.modPower_recov (s : State) (f : PowerSt → PowerSt) : (s.modPower f).recov = s.recov := rfl
@[simp] theorem State.modPower_power (s : State) (f : PowerSt → PowerSt) : (s.modPower f).power = f s.power := rfl
@[simp] theorem State.modPower_input (s : State) (f : PowerSt → PowerSt) : (s.modPower f).input = s.input := rfl
@[simp] theorem State.modPower_sec (s : State) (f : PowerSt → PowerSt) : (s.modPower f).sec = s.sec := rfl

/-! ### modMon -/

@[simp] theorem State.modMon_pending (s : State) (p : Pid) (f : Mon → Mon) : (s.modMon p f).pending = s.pending := rfl
@[simp] theorem State.modMon_free (s : State) (p : Pid) (f : Mon → Mon) : (s.modMon p f).free = s.free := rfl
@[simp] theorem State.modMon_time (s : State) (p : Pid) (f : Mon → Mon) : (s.modMon p f).time = s.time := rfl
@[simp] theorem State.modMon_sched (s : State) (p : Pid) (f : Mon → Mon) : (s.modMon p f).sched = s.sched := rfl
@[simp] theorem State.modMon_col (s : State) (p : Pid) (f : Mon → Mon) : (s.modMon p f).col = s.col := rfl
@[simp] theorem State.modMon_sks (s : State) (p : Pid) (f : Mon → Mon) : (s.modMon p f).sks = s.sks := rfl
@[simp] theorem State.modMon_mesh (s : State) (p : Pid) (f : Mon → Mon) : (s.modMon p f).mesh = s.mesh := rfl
@[simp] theorem State.modMon_commit (s : State) (p : Pid) (f : Mon → Mon) : (s.modMon p f).commit = s.commit := rfl
@[simp] theorem State.modMon_life (s : State) (p : Pid) (f : Mon → Mon) : (s.modMon p f).life = s.life := rfl
@[simp] theorem State.modMon_regions (s : State) (p : Pid) (f : Mon → Mon) : (s.modMon p f).regions = s.regions := rfl
@[simp] theorem State.modMon_ceLimit (s : State) (p : Pid) (f : Mon → Mon) : (s.modMon p f).ceLimit = s.ceLimit := rfl
@[simp] theorem State.modMon_ceLimitNext (s : State) (p : Pid) (f : Mon → Mon) : (s.modMon p f).ceLimitNext = s.ceLimitNext := rfl
@[simp] theorem State.modMon_guard (s : State) (p : Pid) (f : Mon → Mon) : (s.modMon p f).guard = s.guard := rfl
@[simp] theorem State.modMon_dict (s : State) (p : Pid) (f : Mon → Mon) : (s.modMon p f).dict = s.dict := rfl
@[simp] theorem State.modMon_links (s : State) (p : Pid) (f : Mon → Mon) : (s.modMon p f).links = s.links := rfl
@[simp] theorem State.modMon_rim (s : State) (p : Pid) (f : Mon → Mon) : (s.modMon p f).rim = s.rim := rfl
@[simp] theorem State.modMon_red (s : State) (p : Pid) (f : Mon → Mon) : (s.modMon p f).red = s.red := rfl
@[simp] theorem State.modMon_run (s : State) (p : Pid) (f : Mon → Mon) : (s.modMon p f).run = s.run := rfl
@[simp] theorem State.modMon_watch (s : State) (p : Pid) (f : Mon → Mon) : (s.modMon p f).watch = s.watch := rfl
@[simp] theorem State.modMon_recov (s : State) (p : Pid) (f : Mon → Mon) : (s.modMon p f).recov = s.recov := rfl
@[simp] theorem State.modMon_input (s : State) (p : Pid) (f : Mon → Mon) : (s.modMon p f).input = s.input := rfl
@[simp] theorem State.modMon_sec (s : State) (p : Pid) (f : Mon → Mon) : (s.modMon p f).sec = s.sec := rfl

/-! ### modSec -/

@[simp] theorem State.modSec_pending (s : State) (f : SecSt → SecSt) : (s.modSec f).pending = s.pending := rfl
@[simp] theorem State.modSec_free (s : State) (f : SecSt → SecSt) : (s.modSec f).free = s.free := rfl
@[simp] theorem State.modSec_time (s : State) (f : SecSt → SecSt) : (s.modSec f).time = s.time := rfl
@[simp] theorem State.modSec_sched (s : State) (f : SecSt → SecSt) : (s.modSec f).sched = s.sched := rfl
@[simp] theorem State.modSec_col (s : State) (f : SecSt → SecSt) : (s.modSec f).col = s.col := rfl
@[simp] theorem State.modSec_sks (s : State) (f : SecSt → SecSt) : (s.modSec f).sks = s.sks := rfl
@[simp] theorem State.modSec_mesh (s : State) (f : SecSt → SecSt) : (s.modSec f).mesh = s.mesh := rfl
@[simp] theorem State.modSec_commit (s : State) (f : SecSt → SecSt) : (s.modSec f).commit = s.commit := rfl
@[simp] theorem State.modSec_life (s : State) (f : SecSt → SecSt) : (s.modSec f).life = s.life := rfl
@[simp] theorem State.modSec_regions (s : State) (f : SecSt → SecSt) : (s.modSec f).regions = s.regions := rfl
@[simp] theorem State.modSec_ceLimit (s : State) (f : SecSt → SecSt) : (s.modSec f).ceLimit = s.ceLimit := rfl
@[simp] theorem State.modSec_ceLimitNext (s : State) (f : SecSt → SecSt) : (s.modSec f).ceLimitNext = s.ceLimitNext := rfl
@[simp] theorem State.modSec_guard (s : State) (f : SecSt → SecSt) : (s.modSec f).guard = s.guard := rfl
@[simp] theorem State.modSec_dict (s : State) (f : SecSt → SecSt) : (s.modSec f).dict = s.dict := rfl
@[simp] theorem State.modSec_links (s : State) (f : SecSt → SecSt) : (s.modSec f).links = s.links := rfl
@[simp] theorem State.modSec_rim (s : State) (f : SecSt → SecSt) : (s.modSec f).rim = s.rim := rfl
@[simp] theorem State.modSec_red (s : State) (f : SecSt → SecSt) : (s.modSec f).red = s.red := rfl
@[simp] theorem State.modSec_run (s : State) (f : SecSt → SecSt) : (s.modSec f).run = s.run := rfl
@[simp] theorem State.modSec_watch (s : State) (f : SecSt → SecSt) : (s.modSec f).watch = s.watch := rfl
@[simp] theorem State.modSec_recov (s : State) (f : SecSt → SecSt) : (s.modSec f).recov = s.recov := rfl
@[simp] theorem State.modSec_power (s : State) (f : SecSt → SecSt) : (s.modSec f).power = s.power := rfl
@[simp] theorem State.modSec_input (s : State) (f : SecSt → SecSt) : (s.modSec f).input = s.input := rfl
@[simp] theorem State.modSec_sec (s : State) (f : SecSt → SecSt) : (s.modSec f).sec = f s.sec := rfl

/-! ### modDict -/

@[simp] theorem State.modDict_pending (s : State) (f : DictSt → DictSt) : (s.modDict f).pending = s.pending := rfl
@[simp] theorem State.modDict_free (s : State) (f : DictSt → DictSt) : (s.modDict f).free = s.free := rfl
@[simp] theorem State.modDict_time (s : State) (f : DictSt → DictSt) : (s.modDict f).time = s.time := rfl
@[simp] theorem State.modDict_sched (s : State) (f : DictSt → DictSt) : (s.modDict f).sched = s.sched := rfl
@[simp] theorem State.modDict_col (s : State) (f : DictSt → DictSt) : (s.modDict f).col = s.col := rfl
@[simp] theorem State.modDict_sks (s : State) (f : DictSt → DictSt) : (s.modDict f).sks = s.sks := rfl
@[simp] theorem State.modDict_mesh (s : State) (f : DictSt → DictSt) : (s.modDict f).mesh = s.mesh := rfl
@[simp] theorem State.modDict_commit (s : State) (f : DictSt → DictSt) : (s.modDict f).commit = s.commit := rfl
@[simp] theorem State.modDict_life (s : State) (f : DictSt → DictSt) : (s.modDict f).life = s.life := rfl
@[simp] theorem State.modDict_regions (s : State) (f : DictSt → DictSt) : (s.modDict f).regions = s.regions := rfl
@[simp] theorem State.modDict_ceLimit (s : State) (f : DictSt → DictSt) : (s.modDict f).ceLimit = s.ceLimit := rfl
@[simp] theorem State.modDict_ceLimitNext (s : State) (f : DictSt → DictSt) : (s.modDict f).ceLimitNext = s.ceLimitNext := rfl
@[simp] theorem State.modDict_guard (s : State) (f : DictSt → DictSt) : (s.modDict f).guard = s.guard := rfl
@[simp] theorem State.modDict_dict (s : State) (f : DictSt → DictSt) : (s.modDict f).dict = f s.dict := rfl
@[simp] theorem State.modDict_links (s : State) (f : DictSt → DictSt) : (s.modDict f).links = s.links := rfl
@[simp] theorem State.modDict_rim (s : State) (f : DictSt → DictSt) : (s.modDict f).rim = s.rim := rfl
@[simp] theorem State.modDict_red (s : State) (f : DictSt → DictSt) : (s.modDict f).red = s.red := rfl
@[simp] theorem State.modDict_run (s : State) (f : DictSt → DictSt) : (s.modDict f).run = s.run := rfl
@[simp] theorem State.modDict_watch (s : State) (f : DictSt → DictSt) : (s.modDict f).watch = s.watch := rfl
@[simp] theorem State.modDict_recov (s : State) (f : DictSt → DictSt) : (s.modDict f).recov = s.recov := rfl
@[simp] theorem State.modDict_power (s : State) (f : DictSt → DictSt) : (s.modDict f).power = s.power := rfl
@[simp] theorem State.modDict_input (s : State) (f : DictSt → DictSt) : (s.modDict f).input = s.input := rfl
@[simp] theorem State.modDict_sec (s : State) (f : DictSt → DictSt) : (s.modDict f).sec = s.sec := rfl

/-! ### modLife -/

@[simp] theorem State.modLife_pending (s : State) (f : LifeSt → LifeSt) : (s.modLife f).pending = s.pending := rfl
@[simp] theorem State.modLife_free (s : State) (f : LifeSt → LifeSt) : (s.modLife f).free = s.free := rfl
@[simp] theorem State.modLife_time (s : State) (f : LifeSt → LifeSt) : (s.modLife f).time = s.time := rfl
@[simp] theorem State.modLife_sched (s : State) (f : LifeSt → LifeSt) : (s.modLife f).sched = s.sched := rfl
@[simp] theorem State.modLife_col (s : State) (f : LifeSt → LifeSt) : (s.modLife f).col = s.col := rfl
@[simp] theorem State.modLife_sks (s : State) (f : LifeSt → LifeSt) : (s.modLife f).sks = s.sks := rfl
@[simp] theorem State.modLife_mesh (s : State) (f : LifeSt → LifeSt) : (s.modLife f).mesh = s.mesh := rfl
@[simp] theorem State.modLife_commit (s : State) (f : LifeSt → LifeSt) : (s.modLife f).commit = s.commit := rfl
@[simp] theorem State.modLife_life (s : State) (f : LifeSt → LifeSt) : (s.modLife f).life = f s.life := rfl
@[simp] theorem State.modLife_regions (s : State) (f : LifeSt → LifeSt) : (s.modLife f).regions = s.regions := rfl
@[simp] theorem State.modLife_ceLimit (s : State) (f : LifeSt → LifeSt) : (s.modLife f).ceLimit = s.ceLimit := rfl
@[simp] theorem State.modLife_ceLimitNext (s : State) (f : LifeSt → LifeSt) : (s.modLife f).ceLimitNext = s.ceLimitNext := rfl
@[simp] theorem State.modLife_guard (s : State) (f : LifeSt → LifeSt) : (s.modLife f).guard = s.guard := rfl
@[simp] theorem State.modLife_dict (s : State) (f : LifeSt → LifeSt) : (s.modLife f).dict = s.dict := rfl
@[simp] theorem State.modLife_links (s : State) (f : LifeSt → LifeSt) : (s.modLife f).links = s.links := rfl
@[simp] theorem State.modLife_rim (s : State) (f : LifeSt → LifeSt) : (s.modLife f).rim = s.rim := rfl
@[simp] theorem State.modLife_red (s : State) (f : LifeSt → LifeSt) : (s.modLife f).red = s.red := rfl
@[simp] theorem State.modLife_run (s : State) (f : LifeSt → LifeSt) : (s.modLife f).run = s.run := rfl
@[simp] theorem State.modLife_watch (s : State) (f : LifeSt → LifeSt) : (s.modLife f).watch = s.watch := rfl
@[simp] theorem State.modLife_recov (s : State) (f : LifeSt → LifeSt) : (s.modLife f).recov = s.recov := rfl
@[simp] theorem State.modLife_power (s : State) (f : LifeSt → LifeSt) : (s.modLife f).power = s.power := rfl
@[simp] theorem State.modLife_input (s : State) (f : LifeSt → LifeSt) : (s.modLife f).input = s.input := rfl
@[simp] theorem State.modLife_sec (s : State) (f : LifeSt → LifeSt) : (s.modLife f).sec = s.sec := rfl

/-! ### modInput -/

@[simp] theorem State.modInput_pending (s : State) (f : InputSt → InputSt) : (s.modInput f).pending = s.pending := rfl
@[simp] theorem State.modInput_free (s : State) (f : InputSt → InputSt) : (s.modInput f).free = s.free := rfl
@[simp] theorem State.modInput_time (s : State) (f : InputSt → InputSt) : (s.modInput f).time = s.time := rfl
@[simp] theorem State.modInput_sched (s : State) (f : InputSt → InputSt) : (s.modInput f).sched = s.sched := rfl
@[simp] theorem State.modInput_col (s : State) (f : InputSt → InputSt) : (s.modInput f).col = s.col := rfl
@[simp] theorem State.modInput_sks (s : State) (f : InputSt → InputSt) : (s.modInput f).sks = s.sks := rfl
@[simp] theorem State.modInput_mesh (s : State) (f : InputSt → InputSt) : (s.modInput f).mesh = s.mesh := rfl
@[simp] theorem State.modInput_commit (s : State) (f : InputSt → InputSt) : (s.modInput f).commit = s.commit := rfl
@[simp] theorem State.modInput_life (s : State) (f : InputSt → InputSt) : (s.modInput f).life = s.life := rfl
@[simp] theorem State.modInput_regions (s : State) (f : InputSt → InputSt) : (s.modInput f).regions = s.regions := rfl
@[simp] theorem State.modInput_ceLimit (s : State) (f : InputSt → InputSt) : (s.modInput f).ceLimit = s.ceLimit := rfl
@[simp] theorem State.modInput_ceLimitNext (s : State) (f : InputSt → InputSt) : (s.modInput f).ceLimitNext = s.ceLimitNext := rfl
@[simp] theorem State.modInput_guard (s : State) (f : InputSt → InputSt) : (s.modInput f).guard = s.guard := rfl
@[simp] theorem State.modInput_dict (s : State) (f : InputSt → InputSt) : (s.modInput f).dict = s.dict := rfl
@[simp] theorem State.modInput_links (s : State) (f : InputSt → InputSt) : (s.modInput f).links = s.links := rfl
@[simp] theorem State.modInput_rim (s : State) (f : InputSt → InputSt) : (s.modInput f).rim = s.rim := rfl
@[simp] theorem State.modInput_red (s : State) (f : InputSt → InputSt) : (s.modInput f).red = s.red := rfl
@[simp] theorem State.modInput_run (s : State) (f : InputSt → InputSt) : (s.modInput f).run = s.run := rfl
@[simp] theorem State.modInput_watch (s : State) (f : InputSt → InputSt) : (s.modInput f).watch = s.watch := rfl
@[simp] theorem State.modInput_recov (s : State) (f : InputSt → InputSt) : (s.modInput f).recov = s.recov := rfl
@[simp] theorem State.modInput_power (s : State) (f : InputSt → InputSt) : (s.modInput f).power = s.power := rfl
@[simp] theorem State.modInput_input (s : State) (f : InputSt → InputSt) : (s.modInput f).input = f s.input := rfl
@[simp] theorem State.modInput_sec (s : State) (f : InputSt → InputSt) : (s.modInput f).sec = s.sec := rfl

/-! ### Free values -/

@[simp] theorem draw_pending (s : State) : (draw s).2.pending = s.pending := rfl
@[simp] theorem draw_free (s : State) : (draw s).2.free = s.free + 1 := rfl
@[simp] theorem draw_time (s : State) : (draw s).2.time = s.time := rfl
@[simp] theorem draw_sched (s : State) : (draw s).2.sched = s.sched := rfl
@[simp] theorem draw_col (s : State) : (draw s).2.col = s.col := rfl
@[simp] theorem draw_sks (s : State) : (draw s).2.sks = s.sks := rfl
@[simp] theorem draw_mesh (s : State) : (draw s).2.mesh = s.mesh := rfl
@[simp] theorem draw_commit (s : State) : (draw s).2.commit = s.commit := rfl
@[simp] theorem draw_life (s : State) : (draw s).2.life = s.life := rfl
@[simp] theorem draw_regions (s : State) : (draw s).2.regions = s.regions := rfl
@[simp] theorem draw_ceLimit (s : State) : (draw s).2.ceLimit = s.ceLimit := rfl
@[simp] theorem draw_ceLimitNext (s : State) : (draw s).2.ceLimitNext = s.ceLimitNext := rfl
@[simp] theorem draw_guard (s : State) : (draw s).2.guard = s.guard := rfl
@[simp] theorem draw_dict (s : State) : (draw s).2.dict = s.dict := rfl
@[simp] theorem draw_links (s : State) : (draw s).2.links = s.links := rfl
@[simp] theorem draw_rim (s : State) : (draw s).2.rim = s.rim := rfl
@[simp] theorem draw_red (s : State) : (draw s).2.red = s.red := rfl
@[simp] theorem draw_run (s : State) : (draw s).2.run = s.run := rfl
@[simp] theorem draw_watch (s : State) : (draw s).2.watch = s.watch := rfl
@[simp] theorem draw_recov (s : State) : (draw s).2.recov = s.recov := rfl
@[simp] theorem draw_power (s : State) : (draw s).2.power = s.power := rfl
@[simp] theorem draw_input (s : State) : (draw s).2.input = s.input := rfl
@[simp] theorem draw_sec (s : State) : (draw s).2.sec = s.sec := rfl

/-! ### Reading a unit after it was changed -/

@[simp] theorem State.sk_modSk (s : State) (p : Pid) (f : Skillet → Skillet) : (s.modSk p f).sk p = f (s.sk p) := by
  simp [State.sk, State.modSk]

@[simp] theorem State.pn_modPn (s : State) (p : Pid) (f : Pantry → Pantry) : (s.modPn p f).pn p = f (s.pn p) := by
  simp [State.pn, State.modPn, State.sk, State.modSk]

@[simp] theorem State.sq_modSq (s : State) (p : Pid) (f : Seq → Seq) : (s.modSq p f).sq p = f (s.sq p) := by
  simp [State.sq, State.modSq, State.sk, State.modSk]

@[simp] theorem State.wh_modWh (s : State) (p : Pid) (f : Whisk → Whisk) : (s.modWh p f).wh p = f (s.wh p) := by
  simp [State.wh, State.modWh, State.sk, State.modSk]

@[simp] theorem State.ld_modLd (s : State) (p : Pid) (l : Fin 8) (f : Ladle → Ladle) : (s.modLd p l f).ld p l = f (s.ld p l) := by
  simp [State.ld, State.modLd, State.sk, State.modSk]

@[simp] theorem State.gr_modGr (s : State) (p : Pid) (g : Fin 4) (f : Griddle → Griddle) : (s.modGr p g f).gr p g = f (s.gr p g) := by
  simp [State.gr, State.modGr, State.sk, State.modSk]

@[simp] theorem State.task_modTask (s : State) (p : Pid) (t : Fin 16) (f : Task → Task) : (s.modTask p t f).task p t = f (s.task p t) := by
  simp [State.task, State.modTask, State.sq, State.modSq, State.sk, State.modSk]

@[simp] theorem State.rt_modRt (s : State) (n : Fin 68) (f : Router → Router) : (s.modRt n f).rt n = f (s.rt n) := by
  simp [State.rt, State.modRt]

@[simp] theorem State.port_modPort (s : State) (n : Slice) (f : Port → Port) : (s.modPort n f).port n = f (s.port n) := by
  simp [State.port, State.modPort]

@[simp] theorem State.bay_modBay (s : State) (b : Fin 16) (f : Bay → Bay) : (s.modBay b f).bay b = f (s.bay b) := by
  simp [State.bay, State.modBay]

@[simp] theorem State.slice_modSlice (s : State) (sl : Slice) (f : RimSlice → RimSlice) : (s.modSlice sl f).slice sl = f (s.slice sl) := by
  simp [State.slice, State.modSlice]

@[simp] theorem State.mon_modMon (s : State) (p : Pid) (f : Mon → Mon) : (s.modMon p f).mon p = f (s.mon p) := by
  simp [State.mon, State.modMon, State.modPower]

@[simp] theorem State.torus_modTorus (s : State) (f : TorusSt → TorusSt) : (s.modTorus f).torus = f s.torus := rfl

end Sys2Proof.Machine
end

