-- ==== Sys2Proof/Laws/Dict.lean ====
section
/-! SUPPORT. Laws/Dict.lean: what a WRITE operation of the dictionary can do (17 R495-R497, R508): counting a frame leaves
all else, and a write that passes the common checks comes down to its entry's own check and effect. -/

namespace Sys2Proof.Machine

@[simp] theorem countFrame_pending (s : State) (r : Req) : (countFrame s r).pending = s.pending := by
  unfold countFrame; split <;> rfl
@[simp] theorem countFrame_free (s : State) (r : Req) : (countFrame s r).free = s.free := by
  unfold countFrame; split <;> rfl
@[simp] theorem countFrame_time (s : State) (r : Req) : (countFrame s r).time = s.time := by
  unfold countFrame; split <;> rfl
@[simp] theorem countFrame_sched (s : State) (r : Req) : (countFrame s r).sched = s.sched := by
  unfold countFrame; split <;> rfl
@[simp] theorem countFrame_col (s : State) (r : Req) : (countFrame s r).col = s.col := by
  unfold countFrame; split <;> rfl
@[simp] theorem countFrame_sks (s : State) (r : Req) : (countFrame s r).sks = s.sks := by
  unfold countFrame; split <;> rfl
@[simp] theorem countFrame_mesh (s : State) (r : Req) : (countFrame s r).mesh = s.mesh := by
  unfold countFrame; split <;> rfl
@[simp] theorem countFrame_commit (s : State) (r : Req) : (countFrame s r).commit = s.commit := by
  unfold countFrame; split <;> rfl
@[simp] theorem countFrame_life (s : State) (r : Req) : (countFrame s r).life = s.life := by
  unfold countFrame; split <;> rfl
@[simp] theorem countFrame_regions (s : State) (r : Req) : (countFrame s r).regions = s.regions := by
  unfold countFrame; split <;> rfl
@[simp] theorem countFrame_ceLimit (s : State) (r : Req) : (countFrame s r).ceLimit = s.ceLimit := by
  unfold countFrame; split <;> rfl
@[simp] theorem countFrame_ceLimitNext (s : State) (r : Req) : (countFrame s r).ceLimitNext = s.ceLimitNext := by
  unfold countFrame; split <;> rfl
@[simp] theorem countFrame_guard (s : State) (r : Req) : (countFrame s r).guard = s.guard := by
  unfold countFrame; split <;> rfl
@[simp] theorem countFrame_links (s : State) (r : Req) : (countFrame s r).links = s.links := by
  unfold countFrame; split <;> rfl
@[simp] theorem countFrame_rim (s : State) (r : Req) : (countFrame s r).rim = s.rim := by
  unfold countFrame; split <;> rfl
@[simp] theorem countFrame_red (s : State) (r : Req) : (countFrame s r).red = s.red := by
  unfold countFrame; split <;> rfl
@[simp] theorem countFrame_run (s : State) (r : Req) : (countFrame s r).run = s.run := by
  unfold countFrame; split <;> rfl
@[simp] theorem countFrame_watch (s : State) (r : Req) : (countFrame s r).watch = s.watch := by
  unfold countFrame; split <;> rfl
@[simp] theorem countFrame_recov (s : State) (r : Req) : (countFrame s r).recov = s.recov := by
  unfold countFrame; split <;> rfl
@[simp] theorem countFrame_power (s : State) (r : Req) : (countFrame s r).power = s.power := by
  unfold countFrame; split <;> rfl
@[simp] theorem countFrame_input (s : State) (r : Req) : (countFrame s r).input = s.input := by
  unfold countFrame; split <;> rfl
@[simp] theorem countFrame_sec (s : State) (r : Req) : (countFrame s r).sec = s.sec := by
  unfold countFrame; split <;> rfl

@[simp] theorem countFrame_session (s : State) (r : Req) : (countFrame s r).session r = s.session r := by
  unfold countFrame; split <;> rfl

@[simp] theorem countFrame_writeChecks (s : State) (r : Req) (x : Session) (index sub : Nat) :
    writeChecks (countFrame s r) r x index sub = writeChecks s r x index sub := by
  unfold countFrame; split <;> rfl

/-- What a write leaves that passes every common check: the status and the state that its entry answers, OPS_REJECTED
counted where it is neither accepted nor pending, and the answer stored with its request. -/
theorem serveWrite_passes {s : State} {r : Req} {index sub : Nat} {x : Session} (h : Passes s r index sub x)
    (ap : Req → State → Nat × State) :
    serveWrite s r index sub ap =
      (let c := countFrame s r
       let y := ap r c
       storeAnswer (if y.1 = 0 || y.1 = stPending then y.2
         else { c with dict := { c.dict with opsRejected := sat64 c.dict.opsRejected 1 } }) r y.1) := by
  unfold serveWrite serveOp
  simp [h.reaches, h.session, h.kept, h.checks, h.fresh, h.header]

/-- What an accepted write leaves. -/
theorem serveWrite_accepted {s s' : State} {r : Req} {index sub : Nat} {x : Session} (h : Passes s r index sub x)
    {ap : Req → State → Nat × State} (ha : ap r (countFrame s r) = (0, s')) :
    serveWrite s r index sub ap = storeAnswer s' r 0 := by
  simp [serveWrite_passes h, ha]

/-- What a write leaves that goes on as pending. -/
theorem serveWrite_pending {s s' : State} {r : Req} {index sub : Nat} {x : Session} (h : Passes s r index sub x)
    {ap : Req → State → Nat × State} (ha : ap r (countFrame s r) = (stPending, s')) :
    serveWrite s r index sub ap = storeAnswer s' r stPending := by
  simp [serveWrite_passes h, ha]

end Sys2Proof.Machine

namespace Sys2Proof

open Sys2Proof.Machine

/-- A write passes where each check does. -/
theorem Passes.of_checks {s : State} {r : Req} {index sub : Nat} {x : Session}
    (h : (servedWrite s r index && decide (s.session r = some x) && !opDiscarded r x
      && !(r.seq = x.lastSeq && x.answers.any (fun a => a.1 == r.op)) && decide (headerStatus r = 0)
      && decide (writeChecks s r x index sub = 0)) = true) :
    Passes s r index sub x := by
  simp only [Bool.and_eq_true, Bool.not_eq_true', decide_eq_true_eq] at h
  obtain ⟨⟨⟨⟨⟨a, b⟩, c⟩, d⟩, f⟩, e⟩ := h
  exact ⟨⟨a, b, c, by simpa using d, f⟩, e⟩

end Sys2Proof
end

