-- ==== Sys2Proof/Laws/FrameBase.lean ====
section
/-! SUPPORT. Laws/FrameBase.lean: what every operation leaves alone: the queue of waiting commands, and the bounds of the
commit record (01 R20). `Stays a t` says it of a state t reached from a; the lemmas say how it passes through updates,
pairs, options, folds and outcomes. -/

namespace Sys2Proof.Machine

/-- The state t has the queue of a, and its commit record is legal where that of a is. -/
def Stays (a t : State) : Prop := t.pending = a.pending ∧ (CommitLegal a → CommitLegal t)

/-- The state of an outcome is kept; a fault or a refusal has none. -/
def StaysOut (a : State) : Out → Prop
  | .next t => Stays a t
  | _ => True

/-- An optional state is kept where there is one. -/
def StaysOpt (a : State) : Option State → Prop
  | some t => Stays a t
  | none => True

/-- The state of an optional pair is kept where there is one. -/
def StaysOptSnd (a : State) {α : Type} : Option (α × State) → Prop
  | some x => Stays a x.2
  | none => True

theorem Stays.refl (a : State) : Stays a a := ⟨rfl, id⟩

theorem Stays.trans {a s t : State} (h : Stays a s) (k : Stays s t) : Stays a t := ⟨k.1.trans h.1, fun l => k.2 (h.2 l)⟩

theorem staysOut_next {a t : State} (h : Stays a t) : StaysOut a (.next t) := h

theorem staysOpt_some {a t : State} (h : Stays a t) : StaysOpt a (some t) := h

theorem staysOpt_none {a : State} : StaysOpt a none := trivial

theorem staysOptSnd_some {a : State} {α : Type} {x : α × State} (h : Stays a x.2) : StaysOptSnd a (some x) := h

theorem staysOptSnd_none {a : State} {α : Type} : StaysOptSnd a (none : Option (α × State)) := trivial

theorem Stays.ofPair {α : Type} {a t : State} {e : α × State} {x : α} (he : e = (x, t)) (h : Stays a e.2) : Stays a t := by
  subst he; exact h

theorem Stays.ofPair2 {α β : Type} {a t : State} {e : α × β × State} {x : α} {y : β} (he : e = (x, y, t))
    (h : Stays a e.2.2) : Stays a t := by
  subst he; exact h

theorem Stays.ofPair3 {α β γ : Type} {a t : State} {e : α × β × γ × State} {x : α} {y : β} {z : γ} (he : e = (x, y, z, t))
    (h : Stays a e.2.2.2) : Stays a t := by
  subst he; exact h

theorem Stays.ofOpt {a t : State} {e : Option State} (he : e = some t) (h : StaysOpt a e) : Stays a t := by
  subst he; exact h

theorem Stays.ofOptSnd {α : Type} {a : State} {e : Option (α × State)} {x : α × State} (he : e = some x)
    (h : StaysOptSnd a e) : Stays a x.2 := by
  subst he; exact h

theorem Stays.cut {P : Prop} {a t : State} (h : Stays a t) (k : Stays a t → P) : P := k h

/-- A fold keeps what each of its steps keeps. -/
theorem Stays.foldl {α : Type} {a b : State} {g : State → α → State} {l : List α} (h : ∀ t x, Stays a t → Stays a (g t x))
    (hb : Stays a b) : Stays a (l.foldl g b) := by
  induction l generalizing b with
  | nil => exact hb
  | cons x l ih => exact ih (h b x hb)

/-- A fold over a pair keeps what each of its steps keeps. -/
theorem Stays.foldlSnd {α β : Type} {a : State} {b : β × State} {g : β × State → α → β × State} {l : List α}
    (h : ∀ y t x, Stays a t → Stays a (g (y, t) x).2) (hb : Stays a b.2) : Stays a (l.foldl g b).2 := by
  induction l generalizing b with
  | nil => exact hb
  | cons x l ih => exact ih (h b.1 b.2 x hb)

/-- An update of other fields keeps what its base keeps. -/
theorem stays_upd {a t : State} {x1 x2 x3 x4 x5 x6 x8 x9 x10 x11 x12 x13 x14 x15 x16 x17 x18 x19 x20 x21 x22} :
    Stays a (State.mk t.pending x1 x2 x3 x4 x5 x6 t.commit x8 x9 x10 x11 x12 x13 x14 x15 x16 x17 x18 x19 x20 x21 x22) ↔ Stays a t := Iff.rfl

/-- An update of the commit record that keeps it legal. -/
theorem stays_commit {a t : State} {c : Commit} (h : Stays a t)
    (k : t.commit.ptr ≤ 1 ∧ t.commit.step < 2 ^ 64 → c.ptr ≤ 1 ∧ c.step < 2 ^ 64) : Stays a { t with commit := c } :=
  ⟨h.1, fun l => k (h.2 l)⟩

theorem draw_stays {a s : State} (h : Stays a s) : Stays a (draw s).2 := h

theorem modTime_stays {a s : State} (f : TimeSt → TimeSt) (h : Stays a s) : Stays a (s.modTime f) := h
theorem modSched_stays {a s : State} (f : SchedSt → SchedSt) (h : Stays a s) : Stays a (s.modSched f) := h
theorem modSk_stays {a s : State} (p : Pid) (f : Skillet → Skillet) (h : Stays a s) : Stays a (s.modSk p f) := h
theorem modPn_stays {a s : State} (p : Pid) (f : Pantry → Pantry) (h : Stays a s) : Stays a (s.modPn p f) := h
theorem modSq_stays {a s : State} (p : Pid) (f : Seq → Seq) (h : Stays a s) : Stays a (s.modSq p f) := h
theorem modWh_stays {a s : State} (p : Pid) (f : Whisk → Whisk) (h : Stays a s) : Stays a (s.modWh p f) := h
theorem modLd_stays {a s : State} (p : Pid) (l : Fin 8) (f : Ladle → Ladle) (h : Stays a s) : Stays a (s.modLd p l f) := h
theorem modGr_stays {a s : State} (p : Pid) (g : Fin 4) (f : Griddle → Griddle) (h : Stays a s) : Stays a (s.modGr p g f) := h
theorem modTask_stays {a s : State} (p : Pid) (n : Fin 16) (f : Task → Task) (h : Stays a s) : Stays a (s.modTask p n f) := h
theorem modRt_stays {a s : State} (n : Fin 68) (f : Router → Router) (h : Stays a s) : Stays a (s.modRt n f) := h
theorem modPort_stays {a s : State} (n : Slice) (f : Port → Port) (h : Stays a s) : Stays a (s.modPort n f) := h
theorem modTorus_stays {a s : State} (f : TorusSt → TorusSt) (h : Stays a s) : Stays a (s.modTorus f) := h
theorem modBay_stays {a s : State} (b : Fin 16) (f : Bay → Bay) (h : Stays a s) : Stays a (s.modBay b f) := h
theorem modSlice_stays {a s : State} (sl : Slice) (f : RimSlice → RimSlice) (h : Stays a s) : Stays a (s.modSlice sl f) := h
theorem modMc_stays {a s : State} (sl : Slice) (f : Stack → Stack) (h : Stays a s) : Stays a (s.modMc sl f) := h
theorem modUe_stays {a s : State} (sl : Slice) (f : Ue → Ue) (h : Stays a s) : Stays a (s.modUe sl f) := h
theorem modRedSl_stays {a s : State} (sl : Slice) (f : RedSlice → RedSlice) (h : Stays a s) : Stays a (s.modRedSl sl f) := h
theorem modBuffer_stays {a s : State} (i : Fin 4) (f : RimBuffer → RimBuffer) (h : Stays a s) : Stays a (s.modBuffer i f) := h
theorem modRed_stays {a s : State} (f : RedSt → RedSt) (h : Stays a s) : Stays a (s.modRed f) := h
theorem modRun_stays {a s : State} (f : StepSt → StepSt) (h : Stays a s) : Stays a (s.modRun f) := h
theorem modWatch_stays {a s : State} (f : WatchSt → WatchSt) (h : Stays a s) : Stays a (s.modWatch f) := h
theorem modRecov_stays {a s : State} (f : RecoverSt → RecoverSt) (h : Stays a s) : Stays a (s.modRecov f) := h
theorem modPower_stays {a s : State} (f : PowerSt → PowerSt) (h : Stays a s) : Stays a (s.modPower f) := h
theorem modMon_stays {a s : State} (p : Pid) (f : Mon → Mon) (h : Stays a s) : Stays a (s.modMon p f) := h
theorem modSec_stays {a s : State} (f : SecSt → SecSt) (h : Stays a s) : Stays a (s.modSec f) := h
theorem modDict_stays {a s : State} (f : DictSt → DictSt) (h : Stays a s) : Stays a (s.modDict f) := h
theorem modLife_stays {a s : State} (f : LifeSt → LifeSt) (h : Stays a s) : Stays a (s.modLife f) := h
theorem modInput_stays {a s : State} (f : InputSt → InputSt) (h : Stays a s) : Stays a (s.modInput f) := h

end Sys2Proof.Machine
end

