-- ==== Sys2Proof/Laws/FrameOps.lean ====
section
/-! SUPPORT. Laws/FrameOps.lean: the operations of Machine/Ops.lean leave the queue of waiting commands alone and keep the commit
record legal. -/

namespace Sys2Proof.Machine

theorem passFrac_stays {a s : State}  (h : Stays a s) :
    Stays a (passFrac s) := h

theorem State.atFrac_stays {a s : State} (frac : Nat) (h : Stays a s) :
    Stays a (s.atFrac frac) := h

theorem countSent_stays {a s : State} (node : Nat) (h : Stays a s) :
    Stays a (countSent s node) := by
  unfold countSent
  repeat' first
    | with_reducible assumption
    | with_reducible apply modRt_stays
    | split

theorem recvCobalt_stays {a s : State} (node : Nat) (h : Stays a s) :
    Stays a (recvCobalt s node) := by
  unfold recvCobalt
  repeat' first
    | with_reducible assumption
    | with_reducible apply modRt_stays
    | split

theorem sendCobalt_stays {a s : State} (kind : CobaltKind) (src dest arg : Nat) (beats : List Nat) (rec : Option EventRec) (h : Stays a s) :
    Stays a (sendCobalt s kind src dest arg beats rec) := by
  unfold sendCobalt
  repeat' first
    | with_reducible assumption
    | with_reducible apply countSent_stays
    | split
    | simp only [stays_upd]

theorem sendReply_stays {a s : State} (node status : Nat) (value : List Nat) (h : Stays a s) :
    Stays a (sendReply s node status value) := by
  unfold sendReply
  repeat' first
    | with_reducible assumption
    | with_reducible apply sendCobalt_stays

theorem raiseAs_stays {a s : State} (node ev : Nat) (cls : EvClass) (ploc data : Nat) (h : Stays a s) :
    Stays a (raiseAs s node ev cls ploc data) := by
  unfold raiseAs
  repeat' first
    | with_reducible assumption
    | with_reducible apply passFrac_stays
    | with_reducible apply sendCobalt_stays

theorem raise_stays {a s : State} (node : Nat) (ev : Ev) (ploc data : Nat) (h : Stays a s) :
    Stays a (raise s node ev ploc data) := by
  unfold raise
  repeat' first
    | with_reducible assumption
    | with_reducible apply raiseAs_stays

theorem raiseMod_stays {a s : State} (ev : Ev) (data : Nat) (h : Stays a s) :
    Stays a (raiseMod s ev data) := by
  unfold raiseMod
  repeat' first
    | with_reducible assumption
    | with_reducible apply raise_stays

theorem raiseSk_stays {a s : State} (p : Pid) (unit : Nat) (ev : Ev) (data : Nat) (h : Stays a s) :
    Stays a (raiseSk s p unit ev data) := by
  unfold raiseSk
  repeat' first
    | with_reducible assumption
    | with_reducible apply raise_stays

end Sys2Proof.Machine
end

