-- ==== Sys2Proof/Laws/FrameColOps.lean ====
section
/-! SUPPORT. Laws/FrameColOps.lean: the operations of Machine/ColOps.lean leave the queue of waiting commands alone and keep the commit
record legal. -/

namespace Sys2Proof.Machine

theorem refuseBridge_stays {a s : State} (p : Pid) (h : Stays a s) :
    Stays a (refuseBridge s p) := by
  unfold refuseBridge
  repeat' first
    | with_reducible assumption
    | with_reducible apply raiseMod_stays
    | split
    | simp only [stays_upd]

theorem storeImage_stays {a s : State} (p : Pid) (x : PlanImage) (h : Stays a s) :
    Stays a (storeImage s p x) := by
  unfold storeImage
  repeat' first
    | with_reducible assumption
    | with_reducible apply modPn_stays
    | with_reducible apply refuseBridge_stays
    | split

theorem loadImages_stays {a s : State} (images : List PlanImage) (slice : Nat) (p : Pid) (h : Stays a s) :
    Stays a (loadImages s images slice p) := by
  unfold loadImages
  repeat' first
    | with_reducible assumption
    | with_reducible apply storeImage_stays
    | with_reducible refine Stays.foldl (fun _ _ _ => ?_) ?_
    | with_reducible refine Stays.foldlSnd (fun _ _ _ _ => ?_) ?_
    | split

theorem reload_stays {a s : State} (p : Pid) (h : Stays a s) :
    Stays a (reload s p) := by
  unfold reload
  repeat' first
    | with_reducible assumption
    | with_reducible apply loadImages_stays
    | split

theorem domainOff_stays {a s : State} (p : Pid) (d : Domain) (h : Stays a s) :
    Stays a (domainOff s p d) := h

theorem domainOn_stays {a s : State} (p : Pid) (thermal : Nat) (h : Stays a s) :
    Stays a (domainOn s p thermal) := by
  unfold domainOn
  repeat' first
    | with_reducible assumption
    | with_reducible apply modMon_stays
    | with_reducible apply modSk_stays
    | with_reducible apply reload_stays

theorem raiseEffect_stays {a s : State} (r : ColRec) (h : Stays a s) :
    Stays a (raiseEffect s r) := by
  unfold raiseEffect
  repeat' first
    | with_reducible assumption
    | with_reducible apply raise_stays
    | split

theorem sparesLow_stays {a s : State} (before : Nat) (h : Stays a s) :
    Stays a (sparesLow s before) := by
  unfold sparesLow
  repeat' first
    | with_reducible assumption
    | with_reducible apply raiseMod_stays
    | (extract_lets +onlyGivenNames t;
        clear_value t)
    | split

theorem effectOn_stays {a s : State} (r : ColRec) (h : Stays a s) :
    Stays a (effectOn s r) := by
  unfold effectOn
  repeat' first
    | with_reducible assumption
    | with_reducible apply domainOff_stays
    | with_reducible apply domainOn_stays
    | with_reducible apply modSk_stays
    | with_reducible apply reload_stays
    | split

theorem takeEffect_stays {a s : State} (r : ColRec) (h : Stays a s) :
    Stays a (takeEffect s r) := by
  unfold takeEffect
  repeat' first
    | with_reducible assumption
    | with_reducible apply effectOn_stays
    | with_reducible apply raiseEffect_stays
    | with_reducible apply sparesLow_stays
    | simp only [stays_upd]

theorem journalAdd_stays {a s : State} (r : ColRec) (h : Stays a s) :
    Stays a (journalAdd s r) := h

theorem adoptCheck_stays {a s : State} (fails : Option (List (Pid × Nat))) (q : Pid) (h : Stays a s) :
    Stays a (adoptCheck fails q s).2 := by
  unfold adoptCheck
  repeat' first
    | with_reducible assumption
    | with_reducible apply draw_stays
    | split

theorem relocateOne_stays {a s : State} (fuel : Nat) (fails : Option (List (Pid × Nat))) (origin cause : Nat) (l : Fin 56)
    (h : Stays a s) : Stays a (relocateOne fuel fails origin cause l s) := by
  induction fuel generalizing s with
  | zero => exact h
  | succ fuel ih =>
    unfold relocateOne
    extract_lets p
    split
    · exact h
    · split
      · exact h
      · split
        · rename_i hq
          exact takeEffect_stays _ (journalAdd_stays _ (Stays.ofPair hq (adoptCheck_stays fails _ h)))
        · rename_i hq
          exact ih (takeEffect_stays _ (journalAdd_stays _ (Stays.ofPair hq (adoptCheck_stays fails _ h))))

theorem relocateAll_stays {a s : State} (fails : Option (List (Pid × Nat))) (origin cause : Nat) (h : Stays a s) :
    Stays a (relocateAll s fails origin cause) := by
  unfold relocateAll
  repeat' first
    | with_reducible assumption
    | with_reducible apply raiseMod_stays
    | with_reducible apply relocateOne_stays
    | with_reducible refine Stays.foldl (fun _ _ _ => ?_) ?_
    | with_reducible refine Stays.foldlSnd (fun _ _ _ _ => ?_) ?_
    | (extract_lets +onlyGivenNames t; first
        | (refine Stays.cut (a := a) (t := t) ?_ (fun ht => ?_); on_goal 2 => clear_value t; on_goal 1 => (unfold t; clear t))
        | (have _ : Option State := t; unfold t; clear t))
    | split

theorem appendRecord_stays {a₀ s : State} (kind origin : Nat) (p : Pid) (a b cause : Nat) (h : Stays a₀ s) :
    Stays a₀ (appendRecord s kind origin p a b cause) := by
  unfold appendRecord
  repeat' first
    | with_reducible assumption
    | with_reducible apply journalAdd_stays
    | with_reducible apply relocateAll_stays
    | with_reducible apply takeEffect_stays
    | split
    | (lift_lets; intro t;
        clear_value t)
    | intro _
    | simp only [stays_upd]

theorem suspectColumn_stays {a s : State} (p : Pid) (g : Fin 4) (col : Nat) (h : Stays a s) :
    Stays a (suspectColumn s p g col) := by
  unfold suspectColumn
  repeat' first
    | with_reducible assumption
    | with_reducible apply appendRecord_stays
    | with_reducible apply raiseSk_stays
    | (extract_lets +onlyGivenNames t; first
        | (refine Stays.cut (a := a) (t := t) ?_ (fun ht => ?_); on_goal 2 => clear_value t; on_goal 1 => (unfold t; clear t))
        | (have _ : Option State := t; unfold t; clear t)
        | clear_value t)
    | split

theorem retireBank_stays {a s : State} (p : Pid) (bank : Nat) (h : Stays a s) :
    Stays a (retireBank s p bank) := by
  unfold retireBank
  repeat' first
    | with_reducible assumption
    | with_reducible apply appendRecord_stays
    | with_reducible apply modPn_stays
    | with_reducible apply raiseSk_stays
    | (extract_lets +onlyGivenNames t; first
        | (refine Stays.cut (a := a) (t := t) ?_ (fun ht => ?_); on_goal 2 => clear_value t; on_goal 1 => (unfold t; clear t))
        | (have _ : Option State := t; unfold t; clear t)
        | clear_value t)
    | split

theorem applyDue_stays {a s : State} (fails : Option (List (Pid × Nat))) (origin cause : Nat) (h : Stays a s) :
    Stays a (applyDue s fails origin cause) := by
  unfold applyDue
  repeat' first
    | with_reducible assumption
    | with_reducible apply relocateAll_stays
    | with_reducible apply takeEffect_stays
    | with_reducible refine Stays.foldl (fun _ _ _ => ?_) ?_
    | with_reducible refine Stays.foldlSnd (fun _ _ _ _ => ?_) ?_
    | split
    | (lift_lets; intro t;
        clear_value t)
    | intro _
    | simp only [stays_upd]

end Sys2Proof.Machine
end

