-- ==== Sys2Proof/Laws/FrameDict.lean ====
section
/-! SUPPORT. Laws/FrameDict.lean: the operations of Machine/Dict.lean leave the queue of waiting commands alone and keep the commit
record legal. -/

namespace Sys2Proof.Machine

theorem accept_stays {a s s' : State} (st : Nat) (h : Stays a s) (k : Stays a s') : Stays a (accept st s s').2 := by
  unfold accept
  split
  · exact k
  · exact h

theorem State.setSession_stays {a s : State} (r : Req) (x : Session) (h : Stays a s) :
    Stays a (s.setSession r x) := by
  unfold State.setSession
  repeat' first
    | with_reducible assumption
    | split
    | simp only [stays_upd]

theorem State.modSession_stays {a s : State} (r : Req) (f : Session → Session) (h : Stays a s) :
    Stays a (s.modSession r f) := by
  unfold State.modSession
  repeat' first
    | with_reducible assumption
    | with_reducible apply State.setSession_stays
    | split

theorem discardFrame_stays {a s : State} (r : Req) (h : Stays a s) :
    Stays a (discardFrame s r) := by
  unfold discardFrame
  repeat' first
    | with_reducible assumption
    | split
    | simp only [stays_upd]

theorem countFrame_stays {a s : State} (r : Req) (h : Stays a s) :
    Stays a (countFrame s r) := by
  unfold countFrame
  repeat' first
    | with_reducible assumption
    | split
    | simp only [stays_upd]

theorem storeAnswer_stays {a s : State} (r : Req) (st : Nat) (h : Stays a s) :
    Stays a (storeAnswer s r st) := by
  unfold storeAnswer
  repeat' first
    | with_reducible assumption
    | with_reducible apply State.modSession_stays

theorem serveOp_stays {a s : State} (r : Req) (ap : Session → State → Nat × State) (h : Stays a s)
    (k : ∀ x t, Stays a t → Stays a (ap x t).2) : Stays a (serveOp s r ap) := by
  unfold serveOp
  extract_lets s1
  have h1 : Stays a s1 := countFrame_stays r h
  split
  · exact discardFrame_stays r h1
  · rename_i x _
    split
    · exact discardFrame_stays r h1
    · split
      · exact h1
      · split
        rename_i st s' hq
        have h2 : Stays a s' := by
          revert hq
          split
          · intro hq; exact Stays.ofPair hq (k x s1 h1)
          · intro hq; exact Stays.ofPair hq h1
        refine storeAnswer_stays r _ ?_
        split
        · exact h2
        · exact h1

theorem serveWrite_stays {a s : State} (r : Req) (index sub : Nat) (ap : Req → State → Nat × State) (h : Stays a s)
    (k : ∀ t, Stays a t → Stays a (ap r t).2) : Stays a (serveWrite s r index sub ap) := by
  unfold serveWrite
  split
  · exact h
  · refine serveOp_stays r _ h (fun x t ht => ?_)
    split
    · exact k t ht
    · exact ht

end Sys2Proof.Machine
end

