-- ==== Sys2Proof/Laws/FramePantryOps.lean ====
section
/-! SUPPORT. Laws/FramePantryOps.lean: the operations of Machine/PantryOps.lean leave the queue of waiting commands alone and keep the commit
record legal. -/

namespace Sys2Proof.Machine

theorem countAccess_stays {a₀ s : State} (p : Pid) (m a len rmw : Nat) (h : Stays a₀ s) :
    Stays a₀ (countAccess s p m a len rmw) := h

theorem countGranted_stays {a₀ s : State} (p : Pid) (m a len : Nat) (write : Bool) (served : List Nat) (h : Stays a₀ s) :
    Stays a₀ (countGranted s p m a len write served) := by
  unfold countGranted
  repeat' first
    | with_reducible assumption
    | with_reducible apply countAccess_stays
    | with_reducible refine Stays.foldl (fun _ _ _ => ?_) ?_
    | with_reducible refine Stays.foldlSnd (fun _ _ _ _ => ?_) ?_
    | split

theorem strike_stays {a s : State} (p : Pid) (errs : List (Nat × Bool)) (h : Stays a s) :
    Stays a (strike s p errs) := by
  unfold strike
  repeat' first
    | with_reducible assumption
    | with_reducible apply modPn_stays
    | split

theorem noteError_stays {a s : State} (p : Pid) (g : Nat) (double : Bool) (h : Stays a s) :
    Stays a (noteError s p g double) := by
  unfold noteError
  repeat' first
    | with_reducible assumption
    | with_reducible apply modPn_stays
    | with_reducible apply retireBank_stays
    | split

theorem meetErrors_stays {a s : State} (p : Pid) (live : Nat → Bool) (h : Stays a s) :
    Stays a (meetErrors s p live) := by
  unfold meetErrors
  repeat' first
    | with_reducible assumption
    | with_reducible apply modPn_stays
    | with_reducible apply noteError_stays
    | with_reducible refine Stays.foldl (fun _ _ _ => ?_) ?_
    | with_reducible refine Stays.foldlSnd (fun _ _ _ _ => ?_) ?_
    | split
    | simp only [stays_upd]

theorem readRange_stays {a₀ s : State} (p : Pid) (m a len : Nat) (h : Stays a₀ s) :
    Stays a₀ (readRange s p m a len).2 := by
  unfold readRange
  repeat' first
    | with_reducible assumption
    | with_reducible apply countGranted_stays
    | with_reducible apply meetErrors_stays
    | with_reducible apply modPn_stays
    | with_reducible apply raiseSk_stays
    | with_reducible refine Stays.foldl (fun _ _ _ => ?_) ?_

theorem writeShelf_stays {a₀ s : State} (p : Pid) (a : Nat) (bs : List Byte) (n : Nat) (h : Stays a₀ s) :
    Stays a₀ (writeShelf s p a bs n).2 := by
  unfold writeShelf
  repeat' first
    | with_reducible assumption
    | with_reducible apply modPn_stays
    | with_reducible apply raiseSk_stays
    | split
    | simp only [stays_upd]

theorem writeRange_stays {a₀ s : State} (p : Pid) (m a : Nat) (bs : List Byte) (h : Stays a₀ s) :
    Stays a₀ (writeRange s p m a bs).2 := by
  unfold writeRange
  repeat' first
    | with_reducible assumption
    | with_reducible apply countGranted_stays
    | with_reducible apply writeShelf_stays
    | with_reducible refine Stays.foldl (fun _ _ _ => ?_) ?_
    | with_reducible refine Stays.foldlSnd (fun _ _ _ _ => ?_) ?_

theorem poisonRange_stays {a s : State} (p : Pid) (gs : List Nat) (h : Stays a s) :
    Stays a (poisonRange s p gs) := h

theorem slotOrderFault_stays {a s : State} (p : Pid) (n : Nat) (h : Stays a s) :
    Stays a (slotOrderFault s p n) := by
  unfold slotOrderFault
  repeat' first
    | with_reducible assumption
    | with_reducible apply modPn_stays
    | with_reducible apply raiseSk_stays

theorem slotCompletion_stays {a s : State} (p : Pid) (n : Nat) (h : Stays a s) :
    Stays a (slotCompletion s p n) := by
  unfold slotCompletion
  repeat' first
    | with_reducible assumption
    | with_reducible apply modPn_stays
    | with_reducible apply slotOrderFault_stays
    | split
    | simp only [stays_upd]

theorem slotRelease_stays {a s : State} (p : Pid) (n : Nat) (h : Stays a s) :
    Stays a (slotRelease s p n) := by
  unfold slotRelease
  repeat' first
    | with_reducible assumption
    | with_reducible apply modPn_stays
    | with_reducible apply slotOrderFault_stays
    | split
    | simp only [stays_upd]

theorem slotProduce_stays {a s : State} (p : Pid) (n : Nat) (h : Stays a s) :
    Stays a (slotProduce s p n) := by
  unfold slotProduce
  repeat' first
    | with_reducible assumption
    | with_reducible apply modPn_stays
    | split
    | simp only [stays_upd]

theorem produceWrite_stays {a₀ s : State} (p : Pid) (m a : Nat) (bs : List Byte) (chk : Bool) (n : Nat) (h : Stays a₀ s) :
    Stays a₀ (produceWrite s p m a bs chk n).2 := by
  unfold produceWrite
  repeat' first
    | with_reducible assumption
    | with_reducible apply slotProduce_stays
    | with_reducible apply writeRange_stays
    | split

end Sys2Proof.Machine
end

