-- ==== Sys2Proof/Laws/FrameSeqOps.lean ====
section
/-! SUPPORT. Laws/FrameSeqOps.lean: the operations of Machine/SeqOps.lean leave the queue of waiting commands alone and keep the commit
record legal. -/

namespace Sys2Proof.Machine

theorem selectNext_stays {a s : State} (p : Pid) (h : Stays a s) :
    Stays a (selectNext s p) := by
  unfold selectNext
  repeat' first
    | with_reducible assumption
    | with_reducible apply modSq_stays
    | with_reducible apply modTask_stays
    | split

theorem kick_stays {a s : State} (p : Pid) (h : Stays a s) :
    Stays a (kick s p) := by
  unfold kick
  repeat' first
    | with_reducible assumption
    | with_reducible apply draw_stays
    | with_reducible apply modSq_stays
    | with_reducible apply selectNext_stays
    | split

theorem leaveRunning_stays {a s : State} (p : Pid) (t : Fin 16) (st : TaskState) (h : Stays a s) :
    Stays a (leaveRunning s p t st) := by
  unfold leaveRunning
  repeat' first
    | with_reducible assumption
    | with_reducible apply modSq_stays
    | with_reducible apply modTask_stays
    | with_reducible apply selectNext_stays
    | split
    | simp only [stays_upd]

theorem taskFault_stays {a s : State} (p : Pid) (t : Fin 16) (cause : Nat) (h : Stays a s) :
    Stays a (taskFault s p t cause) := by
  unfold taskFault
  repeat' first
    | with_reducible assumption
    | with_reducible apply leaveRunning_stays
    | with_reducible apply modTask_stays
    | with_reducible apply raiseSk_stays

theorem overflow_stays {a s : State} (p : Pid) (which : List Nat) (h : Stays a s) :
    Stays a (overflow s p which) := by
  unfold overflow
  repeat' first
    | with_reducible assumption
    | with_reducible apply modSq_stays
    | with_reducible apply raiseSk_stays

theorem serveCC_stays {a s : State} (p : Pid) (t : Fin 16) (c : Fin 8) (h : Stays a s) :
    Stays a (serveCC s p t c) := by
  unfold serveCC
  repeat' first
    | with_reducible assumption
    | with_reducible apply modTask_stays
    | split
    | simp only [stays_upd]

theorem serveSG_stays {a s : State} (p : Pid) (g : Fin 64) (t : Fin 16) (h : Stays a s) :
    Stays a (serveSG s p g t) := by
  unfold serveSG
  repeat' first
    | with_reducible assumption
    | with_reducible apply modSq_stays
    | with_reducible apply modTask_stays
    | split
    | simp only [stays_upd]

theorem bumpCC_stays {a s : State} (p : Pid) (t : Fin 16) (c : Fin 8) (h : Stays a s) :
    Stays a (bumpCC s p t c) := by
  unfold bumpCC
  repeat' first
    | with_reducible assumption
    | with_reducible apply modTask_stays
    | with_reducible apply overflow_stays
    | with_reducible apply serveCC_stays
    | split

theorem bumpSG_stays {a s : State} (p : Pid) (g : Nat) (h : Stays a s) :
    Stays a (bumpSG s p g) := by
  unfold bumpSG
  repeat' first
    | with_reducible assumption
    | with_reducible apply modSq_stays
    | with_reducible apply overflow_stays
    | with_reducible apply serveSG_stays
    | with_reducible refine Stays.foldl (fun _ _ _ => ?_) ?_
    | with_reducible refine Stays.foldlSnd (fun _ _ _ _ => ?_) ?_
    | split

theorem failTask_stays {a s : State} (p : Pid) (t : Fin 16) (soft : Bool) (status : Nat) (h : Stays a s) :
    Stays a (failTask s p t soft status) := by
  unfold failTask
  repeat' first
    | with_reducible assumption
    | with_reducible apply modSq_stays
    | with_reducible apply modTask_stays
    | with_reducible apply taskFault_stays
    | split

theorem postCompletion_stays {a s : State} (p : Pid) (i : Issuer) (status : Nat) (h : Stays a s) :
    Stays a (postCompletion s p i status) := by
  unfold postCompletion
  repeat' first
    | with_reducible assumption
    | with_reducible apply bumpCC_stays
    | with_reducible apply failTask_stays
    | split
    | (lift_lets; intro t;
        clear_value t)

theorem advance_stays {a s : State} (p : Pid) (t : Fin 16) (h : Stays a s) :
    Stays a (advance s p t) := h

theorem jumpTo_stays {a s : State} (p : Pid) (t : Fin 16) (pc : Nat) (h : Stays a s) :
    Stays a (jumpTo s p t pc) := h

theorem waitTask_stays {a s : State} (p : Pid) (t : Fin 16) (kind w : Nat) (h : Stays a s) :
    Stays a (waitTask s p t kind w) := by
  unfold waitTask
  repeat' first
    | with_reducible assumption
    | with_reducible apply leaveRunning_stays
    | with_reducible apply modTask_stays

theorem rejectWord_stays {a s : State} (p : Pid) (t : Fin 16) (soft : Bool) (status : Nat) (h : Stays a s) :
    Stays a (rejectWord s p t soft status) := by
  unfold rejectWord
  repeat' first
    | with_reducible assumption
    | with_reducible apply advance_stays
    | with_reducible apply failTask_stays
    | split

theorem issueWord_stays {a s : State} (p : Pid) (op : WordOp) (act : State → Fin 16 → Nat → State) (h : Stays a s)
    (k : ∀ t n w, Stays a t → Stays a (act t n w)) : Stays a (issueWord s p op act) := by
  unfold issueWord
  split
  · exact h
  · split
    · exact h
    · extract_lets x w
      split
      · exact taskFault_stays p _ 3 h
      · split <;> split
        all_goals first | exact h | skip
        all_goals
          split
          rename_i hq
          have h1 := Stays.ofPair hq (readRange_stays p _ _ _ h)
          split
          · exact taskFault_stays p _ 2 h1
          · extract_lets s1
            have h2 : Stays a s1 := by
              unfold s1
              split
              · exact modSq_stays p _ h1
              · exact h1
            clear_value s1
            split
            · exact rejectWord_stays p _ _ _ h2
            · split
              · exact k _ _ _ h2
              · exact rejectWord_stays p _ _ _ h2

theorem finishWord_stays {a s : State} (p : Pid) (t : Fin 16) (w status : Nat) (h : Stays a s) :
    Stays a (finishWord s p t w status) := by
  unfold finishWord
  repeat' first
    | with_reducible assumption
    | with_reducible apply advance_stays
    | with_reducible apply rejectWord_stays
    | split

end Sys2Proof.Machine
end

