-- ==== Sys2Proof/Laws/FrameMeshOps.lean ====
section
/-! SUPPORT. Laws/FrameMeshOps.lean: the operations of Machine/MeshOps.lean leave the queue of waiting commands alone and keep the commit
record legal. -/

namespace Sys2Proof.Machine

theorem State.setOutQ_stays {a s : State} (node out : Nat) (q : List QFlit) (h : Stays a s) :
    Stays a (s.setOutQ node out q) := h

theorem State.setSlackQ_stays {a s : State} (node out : Nat) (q : List QFlit) (h : Stays a s) :
    Stays a (s.setSlackQ node out q) := h

theorem takeAck_stays {a s : State} (origin : Nat) (merge : Bool) (unit tag from_ status : Nat) (h : Stays a s) :
    Stays a (takeAck s origin merge unit tag from_ status) := by
  unfold takeAck
  repeat' first
    | with_reducible assumption
    | with_reducible apply draw_stays
    | with_reducible apply modGr_stays
    | with_reducible apply modLd_stays
    | with_reducible apply modRt_stays
    | split
    | simp only [stays_upd]

theorem ackNow_stays {a s : State} (f : Flit) (at_ status : Nat) (h : Stays a s) :
    Stays a (ackNow s f at_ status) := by
  unfold ackNow
  repeat' first
    | with_reducible assumption
    | with_reducible apply takeAck_stays
    | with_reducible refine Stays.foldl (fun _ _ _ => ?_) ?_
    | with_reducible refine Stays.foldlSnd (fun _ _ _ _ => ?_) ?_
    | split

theorem countDiscard_stays {a s : State} (node : Fin 68) (n : Nat) (h : Stays a s) :
    Stays a (countDiscard s node n) := h

theorem holdDiscard_stays {a s : State} (node : Fin 68) (f : Flit) (h : Stays a s) :
    Stays a (holdDiscard s node f) := by
  unfold holdDiscard
  repeat' first
    | with_reducible assumption
    | with_reducible apply ackNow_stays
    | with_reducible apply countDiscard_stays
    | with_reducible refine Stays.foldl (fun _ _ _ => ?_) ?_

theorem pushOut_stays {a s : State} (node : Fin 68) (out inp : Nat) (f : Flit) (h : Stays a s) :
    Stays a (pushOut s node out inp f) := by
  unfold pushOut
  repeat' first
    | with_reducible assumption
    | with_reducible apply State.setOutQ_stays
    | with_reducible apply modRt_stays
    | (extract_lets +onlyGivenNames t; first
        | (refine Stays.cut (a := a) (t := t) ?_ (fun ht => ?_); on_goal 2 => clear_value t; on_goal 1 => (unfold t; clear t))
        | (refine Stays.cut (a := a) (t := t.2) ?_ (fun ht => ?_); on_goal 2 => clear_value t; on_goal 1 => (unfold t; clear t))
        | (refine Stays.cut (a := a) (t := t.2.2) ?_ (fun ht => ?_); on_goal 2 => clear_value t; on_goal 1 => (unfold t; clear t))
        | (have _ : Option State := t; unfold t; clear t)
        | (have _ : Option (_ × State) := t; unfold t; clear t)
        | (have _ := fun x => t x; unfold t; clear t)
        | clear_value t)
    | split

theorem pushBranch_stays {a s : State} (node : Fin 68) (inp : Nat) (f : Flit) (many : Bool) (b : Nat × Nat × Nat) (h : Stays a s) :
    Stays a (pushBranch s node inp f many b) := by
  unfold pushBranch
  repeat' first
    | with_reducible assumption
    | with_reducible apply State.setSlackQ_stays
    | with_reducible apply pushOut_stays
    | split
    | simp only [stays_upd]

theorem pushPath_stays {a s : State} (node : Fin 68) (out inp : Nat) (f : Flit) (h : Stays a s) :
    Stays a (pushPath s node out inp f) := by
  unfold pushPath
  repeat' first
    | with_reducible assumption
    | with_reducible apply State.setOutQ_stays
    | with_reducible apply pushOut_stays
    | split

theorem enterNode_stays {a s : State} (node : Fin 68) (inp : Nat) (f : Flit) (h : Stays a s) :
    Stays a (enterNode s node inp f) := by
  unfold enterNode
  repeat' first
    | with_reducible assumption
    | with_reducible apply State.setSlackQ_stays
    | with_reducible apply holdDiscard_stays
    | with_reducible apply pushBranch_stays
    | with_reducible apply pushPath_stays
    | with_reducible refine Stays.foldl (fun _ _ _ => ?_) ?_
    | with_reducible refine Stays.foldlSnd (fun _ _ _ _ => ?_) ?_
    | split
    | simp only [stays_upd]

theorem takeCredit_stays {a s : State} (f : Flit) (h : Stays a s) :
    Stays a (takeCredit s f) := by
  unfold takeCredit
  repeat' first
    | with_reducible assumption
    | split
    | simp only [stays_upd]

theorem giveCredit_stays {a s : State} (f : Flit) (h : Stays a s) :
    Stays a (giveCredit s f) := by
  unfold giveCredit
  repeat' first
    | with_reducible assumption
    | split
    | simp only [stays_upd]

theorem inject_stays {a s : State} (f : Flit) (h : Stays a s) :
    Stays a (inject s f) := by
  unfold inject
  repeat' first
    | with_reducible assumption
    | with_reducible apply State.setOutQ_stays
    | with_reducible apply enterNode_stays
    | with_reducible apply holdDiscard_stays
    | with_reducible apply takeCredit_stays
    | split
    | simp only [stays_upd]

theorem sendAcks_stays {a s : State} (at_ : Nat) (f : Flit) (status : Nat) (h : Stays a s) :
    Stays a (sendAcks s at_ f status) := by
  unfold sendAcks
  repeat' first
    | with_reducible assumption
    | with_reducible apply inject_stays
    | with_reducible refine Stays.foldl (fun _ _ _ => ?_) ?_
    | with_reducible refine Stays.foldlSnd (fun _ _ _ _ => ?_) ?_
    | split

theorem sendPortion_stays {a s : State} (p : Pid) (l : Fin 8) (x : Portion) (h : Stays a s) :
    Stays a (sendPortion s p l x) := by
  unfold sendPortion
  repeat' first
    | with_reducible assumption
    | with_reducible apply inject_stays
    | with_reducible apply modLd_stays
    | with_reducible refine Stays.foldl (fun _ _ _ => ?_) ?_

theorem sendReady_stays {a s : State} (fuel : Nat) (p : Pid) (l : Fin 8) (h : Stays a s) :
    Stays a (sendReady fuel s p l) := by
  induction fuel generalizing s with
  | zero => exact h
  | succ fuel ih =>
    unfold sendReady
    split
    · exact h
    · split
      · exact ih (sendPortion_stays p l _ h)
      · exact h

theorem takeData_stays {a s : State} (p : Pid) (f : Flit) (h : Stays a s) :
    Stays a (takeData s p f) := by
  unfold takeData
  repeat' first
    | with_reducible assumption
    | with_reducible apply modLd_stays
    | with_reducible apply sendReady_stays

theorem takeDone_stays {a s : State} (p : Pid) (f : Flit) (h : Stays a s) :
    Stays a (takeDone s p f) := by
  unfold takeDone
  repeat' first
    | with_reducible assumption
    | with_reducible apply modLd_stays
    | with_reducible apply sendReady_stays

theorem deliver_stays {a s : State} (node : Fin 68) (port : Nat) (f : Flit) (h : Stays a s) :
    Stays a (deliver s node port f) := by
  unfold deliver
  repeat' first
    | with_reducible assumption
    | with_reducible apply ackNow_stays
    | with_reducible apply countDiscard_stays
    | with_reducible apply modRt_stays
    | with_reducible apply takeAck_stays
    | with_reducible apply takeData_stays
    | with_reducible apply takeDone_stays
    | split
    | simp only [stays_upd]

end Sys2Proof.Machine
end

