-- ==== Sys2Proof/Laws/FrameOperands.lean ====
section
/-! SUPPORT. Laws/FrameOperands.lean: the operations of Machine/Operands.lean leave the queue of waiting commands alone and keep the commit
record legal. -/

namespace Sys2Proof.Machine

theorem tapValues_stays {a s : State} (p : Pid) (w : Nat) (xs : List Num) (h : Stays a s) :
    Stays a (tapValues s p w xs) := by
  unfold tapValues
  repeat' first
    | with_reducible assumption
    | with_reducible apply modSk_stays
    | with_reducible apply raiseSk_stays
    | with_reducible refine Stays.foldl (fun _ _ _ => ?_) ?_
    | with_reducible refine Stays.foldlSnd (fun _ _ _ _ => ?_) ?_
    | split
    | simp only [stays_upd]

end Sys2Proof.Machine
end

