-- ==== Sys2Proof/Laws/FrameGriddle.lean ====
section
/-! SUPPORT. Laws/FrameGriddle.lean: the operations of Machine/Griddle.lean leave the queue of waiting commands alone and keep the commit
record legal. -/

namespace Sys2Proof.Machine

theorem rejectPass_stays {a s : State} (p : Pid) (g : Fin 4) (st addr : Nat) (h : Stays a s) :
    Stays a (rejectPass s p g st addr) := by
  unfold rejectPass
  repeat' first
    | with_reducible assumption
    | with_reducible apply modGr_stays
    | with_reducible apply raiseSk_stays

theorem flushDone_stays {a s : State} (p : Pid) (g : Fin 4) (h : Stays a s) :
    Stays a (flushDone s p g) := by
  unfold flushDone
  repeat' first
    | with_reducible assumption
    | with_reducible apply modGr_stays
    | with_reducible apply postCompletion_stays
    | with_reducible refine Stays.foldl (fun _ _ _ => ?_) ?_
    | with_reducible refine Stays.foldlSnd (fun _ _ _ _ => ?_) ?_
    | split
    | simp only [stays_upd]

theorem doFlush_stays {a s : State} (p : Pid) (g : Fin 4) (h : Stays a s) :
    Stays a (doFlush s p g) := by
  unfold doFlush
  repeat' first
    | with_reducible assumption
    | with_reducible apply flushDone_stays
    | with_reducible apply modGr_stays

theorem readRows_stays {a s : State} (p : Pid) (m base stride rows len : Nat) (h : Stays a s) :
    Stays a (readRows s p m base stride rows len).2.2 := by
  unfold readRows
  generalize hb : (([], false, s) : List (List Byte) × Bool × State) = b
  have hs : Stays a b.2.2 := by subst hb; exact h
  clear hb
  generalize List.range rows = l
  induction l generalizing b with
  | nil => exact hs
  | cons i l ih => exact ih _ (readRange_stays p m (base + i * stride) len hs)

theorem readScales_stays {a s : State} (p : Pid) (m code base rows b : Nat) (h : Stays a s) :
    Stays a (readScales s p m code base rows b).2.2 := by
  unfold readScales
  repeat' first
    | with_reducible assumption
    | with_reducible apply readRows_stays
    | split

theorem readTile_stays {a s : State} (p : Pid) (g : Fin 4) (d : PassDesc) (h : Stays a s) :
    Stays a (readTile s p g d).2.2 := by
  unfold readTile
  repeat' first
    | with_reducible assumption
    | with_reducible apply readRows_stays
    | with_reducible apply readScales_stays

theorem releaseOperand_stays {a s : State} (p : Pid) (o : Operand) (h : Stays a s) :
    Stays a (releaseOperand s p o) := by
  unfold releaseOperand
  repeat' first
    | with_reducible assumption
    | with_reducible apply slotRelease_stays
    | split

theorem initRows_stays {a s : State} (p : Pid) (g : Fin 4) (d : PassDesc) (h : Stays a s) :
    Stays a (initRows s p g d).2.2 := by
  unfold initRows
  repeat' first
    | with_reducible assumption
    | with_reducible apply readRows_stays
    | split

theorem emitEnter_stays {a s : State} (p : Pid) (o : Operand) (h : Stays a s) :
    Stays a (emitEnter s p o) := by
  unfold emitEnter
  repeat' first
    | with_reducible assumption
    | with_reducible apply modPn_stays
    | with_reducible apply slotProduce_stays
    | split

theorem releaseHeld_stays {a s : State} (p : Pid) (qs : List Pass) (h : Stays a s) :
    Stays a (releaseHeld s p qs) := by
  unfold releaseHeld
  repeat' first
    | with_reducible assumption
    | with_reducible apply releaseOperand_stays
    | with_reducible refine Stays.foldl (fun _ _ _ => ?_) ?_

theorem passDone_stays {a s : State} (p : Pid) (g : Fin 4) (q : Pass) (h : Stays a s) :
    Stays a (passDone s p g q) := by
  unfold passDone
  repeat' first
    | with_reducible assumption
    | with_reducible apply flushDone_stays
    | with_reducible apply modGr_stays
    | with_reducible apply postCompletion_stays
    | split

theorem chainDone_stays {a s : State} (p : Pid) (g : Fin 4) (w : Win) (q : Pass) (h : Stays a s) :
    Stays a (chainDone s p g w q) := by
  unfold chainDone
  repeat' first
    | with_reducible assumption
    | with_reducible apply modGr_stays
    | with_reducible apply passDone_stays
    | with_reducible apply raiseSk_stays
    | with_reducible apply releaseHeld_stays
    | with_reducible apply slotCompletion_stays
    | with_reducible refine Stays.foldl (fun _ _ _ => ?_) ?_
    | with_reducible refine Stays.foldlSnd (fun _ _ _ _ => ?_) ?_
    | split

theorem emptyPass_stays {a s : State} (p : Pid) (g : Fin 4) (q : Pass) (h : Stays a s) :
    Stays a (emptyPass s p g q) := by
  unfold emptyPass
  repeat' first
    | with_reducible assumption
    | with_reducible apply chainDone_stays
    | with_reducible apply modGr_stays
    | with_reducible apply passDone_stays
    | with_reducible apply releaseOperand_stays
    | with_reducible refine Stays.foldl (fun _ _ _ => ?_) ?_
    | with_reducible refine Stays.foldlSnd (fun _ _ _ _ => ?_) ?_
    | (extract_lets +onlyGivenNames t; first
        | (refine Stays.cut (a := a) (t := t) ?_ (fun ht => ?_); on_goal 2 => clear_value t; on_goal 1 => (unfold t; clear t))
        | (have _ : Option State := t; unfold t; clear t)
        | clear_value t)
    | split

theorem passBoundary_stays {a s : State} (p : Pid) (g : Fin 4) (skipped : Nat) (h : Stays a s) :
    StaysOpt a (passBoundary s p g skipped) := by
  unfold passBoundary
  split
  · exact staysOpt_none
  · split
    · exact staysOpt_none
    · extract_lets d s1 s2 s3 s4
      have h1 : Stays a s1 := modGr_stays p g _ h
      have h2 : Stays a s2 := releaseOperand_stays p _ h1
      have h3 : Stays a s3 := by
        unfold s3
        split
        · exact h1
        · split
          · exact releaseOperand_stays p _ h2
          · exact h2
      clear_value s3
      apply staysOpt_some
      split
      · exact doFlush_stays p g h3
      · exact h3

theorem drainEnd_stays {a s : State} (p : Pid) (g : Fin 4) (h : Stays a s) :
    Stays a (drainEnd s p g) := by
  unfold drainEnd
  repeat' first
    | with_reducible assumption
    | with_reducible apply modGr_stays
    | with_reducible apply passDone_stays
    | split

theorem emitPantry_stays {a s : State} (p : Pid) (g : Fin 4) (rows : List (Nat × List Byte)) (h : Stays a s) :
    Stays a (emitPantry s p g rows).2 := by
  unfold emitPantry
  repeat' first
    | with_reducible assumption
    | with_reducible apply writeRange_stays
    | with_reducible refine Stays.foldl (fun _ _ _ => ?_) ?_
    | with_reducible refine Stays.foldlSnd (fun _ _ _ _ => ?_) ?_

theorem emitMerge_stays {a s : State} (p : Pid) (g : Fin 4) (d : PassDesc) (rows : List (Nat × List Byte)) (h : Stays a s) :
    Stays a (emitMerge s p g d rows) := by
  unfold emitMerge
  repeat' first
    | with_reducible assumption
    | with_reducible apply inject_stays
    | with_reducible refine Stays.foldl (fun _ _ _ => ?_) ?_
    | with_reducible refine Stays.foldlSnd (fun _ _ _ _ => ?_) ?_
    | split

theorem emitRim_stays {a s : State} (p : Pid) (d : PassDesc) (vals : List (List W32)) (h : Stays a s) :
    Stays a (emitRim s p d vals) := by
  unfold emitRim
  repeat' first
    | with_reducible assumption
    | with_reducible apply inject_stays
    | with_reducible refine Stays.foldl (fun _ _ _ => ?_) ?_

theorem emitPart_stays {a s : State} (p : Pid) (g : Fin 4) (d : PassDesc) (w : Win) (n : Nat) (h : Stays a s) :
    Stays a (emitPart s p g d w n).2 := by
  unfold emitPart
  repeat' first
    | with_reducible assumption
    | with_reducible apply emitMerge_stays
    | with_reducible apply emitPantry_stays
    | with_reducible apply emitRim_stays
    | split

theorem emitAll_stays {a s : State} (p : Pid) (g : Fin 4) (d : PassDesc) (w : Win) (h : Stays a s) :
    Stays a (emitAll s p g d w).2 := by
  unfold emitAll
  repeat' first
    | with_reducible assumption
    | with_reducible apply emitMerge_stays
    | with_reducible apply emitPantry_stays
    | with_reducible apply emitRim_stays
    | (split <;> try (rename_i hq; first
        | refine Stays.cut (Stays.ofPair (a := a) hq ?_) (fun _ => ?_)
        | refine Stays.cut (Stays.ofPair2 (a := a) hq ?_) (fun _ => ?_)
        | refine Stays.cut (Stays.ofPair3 (a := a) hq ?_) (fun _ => ?_)
        | refine Stays.cut (Stays.ofOpt (a := a) hq ?_) (fun _ => ?_)
        | refine Stays.cut (Stays.ofOptSnd (a := a) hq ?_) (fun _ => ?_)))

theorem emitEnd_stays {a s : State} (p : Pid) (g : Fin 4) (h : Stays a s) :
    Stays a (emitEnd s p g) := by
  unfold emitEnd
  repeat' first
    | with_reducible assumption
    | with_reducible apply chainDone_stays
    | with_reducible apply emitAll_stays
    | with_reducible apply modGr_stays
    | with_reducible apply tapValues_stays
    | split
    | simp only [stays_upd]

theorem passFault_stays {a s : State} (p : Pid) (g : Fin 4) (cause col : Nat) (h : Stays a s) :
    Stays a (passFault s p g cause col) := by
  unfold passFault
  repeat' first
    | with_reducible assumption
    | with_reducible apply modGr_stays
    | with_reducible apply raiseSk_stays

theorem noteColumn_stays {a s : State} (p : Pid) (g : Fin 4) (cause col : Nat) (h : Stays a s) :
    Stays a (noteColumn s p g cause col) := by
  unfold noteColumn
  repeat' first
    | with_reducible assumption
    | with_reducible apply modGr_stays
    | with_reducible apply suspectColumn_stays
    | split
    | simp only [stays_upd]

theorem emitBefore_stays {a s : State} (p : Pid) (g : Fin 4) (w : Option Win) (chain : List Pass) (h : Stays a s) :
    Stays a (emitBefore s p g w chain).2 := by
  unfold emitBefore
  repeat' first
    | with_reducible assumption
    | with_reducible apply draw_stays
    | with_reducible apply emitPart_stays
    | split

theorem voidChain_stays {a s : State} (p : Pid) (g : Fin 4) (w : Option Win) (chain : List Pass) (h : Stays a s) :
    Stays a (voidChain s p g w chain) := by
  unfold voidChain
  repeat' first
    | with_reducible assumption
    | with_reducible apply modGr_stays
    | with_reducible apply modPn_stays
    | with_reducible refine Stays.foldl (fun _ _ _ => ?_) ?_
    | with_reducible refine Stays.foldlSnd (fun _ _ _ _ => ?_) ?_
    | split

theorem retryChain_stays {a s : State} (p : Pid) (g : Fin 4) (w : Option Win) (chain : List Pass) (met : Pass) (h : Stays a s) :
    Stays a (retryChain s p g w chain met) := h

theorem griddleFault_stays {a s : State} (p : Pid) (g : Fin 4) (cause : Nat) (col : Fin 256) (h : Stays a s) :
    Stays a (griddleFault p g cause col s) := by
  unfold griddleFault
  repeat' first
    | with_reducible assumption
    | with_reducible apply doFlush_stays
    | with_reducible apply emitBefore_stays
    | with_reducible apply modGr_stays
    | with_reducible apply noteColumn_stays
    | with_reducible apply passFault_stays
    | with_reducible apply retryChain_stays
    | with_reducible apply voidChain_stays
    | split
    | simp only [stays_upd]

end Sys2Proof.Machine
end

