-- ==== Sys2Proof/Laws/FrameLadle.lean ====
section
/-! SUPPORT. Laws/FrameLadle.lean: the operations of Machine/Ladle.lean leave the queue of waiting commands alone and keep the commit
record legal. -/

namespace Sys2Proof.Machine

theorem readList_stays {a s : State} (p : Pid) (l : Fin 8) (addr : Nat) (h : Stays a s) :
    Stays a (readList s p l addr).2 := by
  unfold readList
  repeat' first
    | with_reducible assumption
    | with_reducible apply readRange_stays
    | split

theorem walkChain_stays {a s : State} (fuel : Nat) (p : Pid) (l : Fin 8) (chain : List Nat) (addr : Nat) (h : Stays a s) :
    Stays a (walkChain fuel s p l chain addr).2.2.2 := by
  induction fuel generalizing s chain addr with
  | zero => exact h
  | succ fuel ih =>
    unfold walkChain
    split
    rename_i hq
    have h1 := Stays.ofPair hq (readList_stays p l addr h)
    split
    · extract_lets c x
      split
      · exact h1
      · split
        · exact h1
        · exact ih _ _ h1
    · exact h1

theorem startStream_stays {a s : State} (p : Pid) (l : Fin 8) (addr : Nat) (i : Issuer) (h : Stays a s) :
    Stays a (startStream s p l addr i) := h

theorem rejectArm_stays {a s : State} (p : Pid) (l : Fin 8) (st : Nat) (event : Bool) (addr : Nat) (h : Stays a s) :
    Stays a (rejectArm s p l st event addr) := by
  unfold rejectArm
  repeat' first
    | with_reducible assumption
    | with_reducible apply modLd_stays
    | with_reducible apply raiseSk_stays
    | split

theorem discardPending_stays {a s : State} (p : Pid) (l : Fin 8) (h : Stays a s) :
    Stays a (discardPending s p l) := by
  unfold discardPending
  repeat' first
    | with_reducible assumption
    | with_reducible apply modLd_stays
    | with_reducible apply raiseSk_stays
    | split

theorem dropWaiting_stays {a s : State} (p : Pid) (l : Fin 8) (h : Stays a s) :
    Stays a (dropWaiting s p l) := h

theorem sendCancels_stays {a s : State} (p : Pid) (l : Fin 8) (xs : List Portion) (h : Stays a s) :
    Stays a (sendCancels s p l xs) := by
  unfold sendCancels
  repeat' first
    | with_reducible assumption
    | with_reducible apply inject_stays
    | with_reducible refine Stays.foldl (fun _ _ _ => ?_) ?_

theorem stopLadle_stays {a s : State} (p : Pid) (l : Fin 8) (h : Stays a s) :
    Stays a (stopLadle s p l) := by
  unfold stopLadle
  repeat' first
    | with_reducible assumption
    | with_reducible apply discardPending_stays
    | with_reducible apply dropWaiting_stays
    | with_reducible apply modLd_stays
    | with_reducible apply sendCancels_stays

theorem faultLadle_stays {a s : State} (p : Pid) (l : Fin 8) (cause : Nat) (at_ : Nat × Nat) (h : Stays a s) :
    Stays a (faultLadle s p l cause at_) := by
  unfold faultLadle
  repeat' first
    | with_reducible assumption
    | with_reducible apply discardPending_stays
    | with_reducible apply modLd_stays
    | with_reducible apply raiseSk_stays

theorem nextList_stays {a s : State} (p : Pid) (l : Fin 8) (h : ListHead) (h₀ : Stays a s) :
    Stays a (nextList s p l h) := h₀

theorem nextBlock_stays {a s : State} (p : Pid) (l : Fin 8) (h : ListHead) (h₀ : Stays a s) :
    Stays a (nextBlock s p l h) := by
  unfold nextBlock
  repeat' first
    | with_reducible assumption
    | with_reducible apply modLd_stays
    | with_reducible apply nextList_stays
    | split
    | simp only [stays_upd]

theorem finishStream_stays {a s : State} (p : Pid) (l : Fin 8) (h : Stays a s) :
    Stays a (finishStream s p l) := by
  unfold finishStream
  repeat' first
    | with_reducible assumption
    | with_reducible apply modLd_stays
    | with_reducible apply postCompletion_stays
    | with_reducible apply startStream_stays
    | split
    | simp only [stays_upd]

theorem emptyBlock_stays {a s : State} (p : Pid) (l : Fin 8) (h : ListHead) (b : Block) (h₀ : Stays a s) :
    Stays a (emptyBlock s p l h b) := by
  unfold emptyBlock
  repeat' first
    | with_reducible assumption
    | with_reducible apply inject_stays
    | with_reducible apply modLd_stays
    | with_reducible apply slotCompletion_stays
    | with_reducible apply slotRelease_stays
    | with_reducible refine Stays.foldl (fun _ _ _ => ?_) ?_
    | with_reducible refine Stays.foldlSnd (fun _ _ _ _ => ?_) ?_
    | split

theorem loadList_stays {a s : State} (p : Pid) (l : Fin 8) (h : Stays a s) :
    Stays a (loadList s p l) := by
  unfold loadList
  repeat' first
    | with_reducible assumption
    | with_reducible apply modLd_stays
    | with_reducible apply readList_stays
    | split
    | simp only [stays_upd]

theorem readSource_stays {a s : State} (p : Pid) (l : Fin 8) (h : ListHead) (b : Block) (tag src len : Nat) (h₀ : Stays a s) :
    Stays a (readSource s p l h b tag src len) := by
  unfold readSource
  repeat' first
    | with_reducible assumption
    | with_reducible apply inject_stays
    | with_reducible apply modLd_stays
    | with_reducible apply raiseSk_stays
    | with_reducible apply readRange_stays
    | with_reducible refine Stays.foldl (fun _ _ _ => ?_) ?_
    | with_reducible refine Stays.foldlSnd (fun _ _ _ _ => ?_) ?_
    | (split <;> try (rename_i hq; first
        | refine Stays.cut (Stays.ofPair (a := a) hq ?_) (fun _ => ?_)
        | refine Stays.cut (Stays.ofPair2 (a := a) hq ?_) (fun _ => ?_)
        | refine Stays.cut (Stays.ofPair3 (a := a) hq ?_) (fun _ => ?_)
        | refine Stays.cut (Stays.ofOpt (a := a) hq ?_) (fun _ => ?_)
        | refine Stays.cut (Stays.ofOptSnd (a := a) hq ?_) (fun _ => ?_)))
    | simp only [stays_upd]

theorem writeMemory_stays {a s : State} (p : Pid) (l : Fin 8) (h : ListHead) (b : Block) (tag dst len : Nat) (h₀ : Stays a s) :
    Stays a (writeMemory s p l h b tag dst len) := by
  unfold writeMemory
  repeat' first
    | with_reducible assumption
    | with_reducible apply inject_stays
    | with_reducible apply modLd_stays
    | with_reducible refine Stays.foldl (fun _ _ _ => ?_) ?_
    | with_reducible refine Stays.foldlSnd (fun _ _ _ _ => ?_) ?_
    | split

theorem noteLatency_stays {a s : State} (p : Pid) (l : Fin 8) (x : Portion) (cycles : Nat) (h : Stays a s) :
    Stays a (noteLatency s p l x cycles) := by
  unfold noteLatency
  extract_lets d late s1
  have h1 : Stays a s1 := modLd_stays p l _ h
  split
  · exact raiseSk_stays p _ _ _ h1
  · exact h1

theorem finishBlock_stays {a s : State} (p : Pid) (l : Fin 8) (serial : Nat) (h : Stays a s) :
    Stays a (finishBlock s p l serial) := by
  unfold finishBlock
  repeat' first
    | with_reducible assumption
    | with_reducible apply modLd_stays
    | with_reducible apply slotCompletion_stays
    | split
    | simp only [stays_upd]

theorem writeLocal_stays {a s : State} (p : Pid) (l : Fin 8) (x : Portion) (h : Stays a s) :
    Stays a (writeLocal s p l x).2 := by
  unfold writeLocal
  repeat' first
    | with_reducible assumption
    | with_reducible apply poisonRange_stays
    | with_reducible apply produceWrite_stays

end Sys2Proof.Machine
end

