-- ==== Sys2Proof/Laws/FrameLinkOps.lean ====
section
/-! SUPPORT. Laws/FrameLinkOps.lean: the operations of Machine/LinkOps.lean leave the queue of waiting commands alone and keep the commit
record legal. -/

namespace Sys2Proof.Machine

theorem raisePort_stays {a s : State} (n : Slice) (ev : Ev) (data : Nat) (h : Stays a s) :
    Stays a (raisePort s n ev data) := by
  unfold raisePort
  repeat' first
    | with_reducible assumption
    | with_reducible apply raise_stays

theorem pump_stays {a s : State} (n : Slice) (h : Stays a s) :
    Stays a (pump s n) := by
  unfold pump
  repeat' first
    | with_reducible assumption
    | with_reducible apply draw_stays
    | with_reducible apply modPort_stays
    | (split <;> try (rename_i hq; first
        | refine Stays.cut (Stays.ofPair (a := a) hq ?_) (fun _ => ?_)
        | refine Stays.cut (Stays.ofPair2 (a := a) hq ?_) (fun _ => ?_)
        | refine Stays.cut (Stays.ofPair3 (a := a) hq ?_) (fun _ => ?_)
        | refine Stays.cut (Stays.ofOpt (a := a) hq ?_) (fun _ => ?_)
        | refine Stays.cut (Stays.ofOptSnd (a := a) hq ?_) (fun _ => ?_)))

theorem sendFrame_stays {a s : State} (n : Slice) (c : Content) (h : Stays a s) :
    Stays a (sendFrame s n c) := by
  unfold sendFrame
  repeat' first
    | with_reducible assumption
    | with_reducible apply modPort_stays
    | with_reducible apply pump_stays
    | split

theorem sendBundle_stays {a s : State} (b : Bundle) (pos : Nat) (c : Content) (h : Stays a s) :
    Stays a (sendBundle s b pos c) := by
  unfold sendBundle
  repeat' first
    | with_reducible assumption
    | with_reducible apply sendFrame_stays
    | split

theorem sendNeighbour_stays {a s : State} (n : Slice) (ntype : Nat) (bytes : List Byte) (h : Stays a s) :
    Stays a (sendNeighbour s n ntype bytes) := by
  unfold sendNeighbour
  repeat' first
    | with_reducible assumption
    | with_reducible apply sendFrame_stays

theorem freePlace_stays {a s : State} (n : Slice) (c : LClass) (h : Stays a s) :
    Stays a (freePlace s n c) := h

theorem dropLanded_stays {a s : State} (n : Slice) (k : Nat) (h : Stays a s) :
    Stays a (dropLanded s n k) := by
  unfold dropLanded
  repeat' first
    | with_reducible assumption
    | with_reducible apply freePlace_stays
    | with_reducible apply modPort_stays
    | split

theorem resend_stays {a s : State} (n : Slice) (waiting : List Content) (h : Stays a s) :
    Stays a (resend s n waiting) := by
  unfold resend
  repeat' first
    | with_reducible assumption
    | with_reducible apply sendBundle_stays
    | with_reducible refine Stays.foldl (fun _ _ _ => ?_) ?_
    | with_reducible refine Stays.foldlSnd (fun _ _ _ _ => ?_) ?_
    | split

theorem bundleCheck_stays {a s : State} (n : Slice) (was : Bool) (h : Stays a s) :
    Stays a (bundleCheck s n was) := by
  unfold bundleCheck
  repeat' first
    | with_reducible assumption
    | with_reducible apply raisePort_stays
    | split

theorem retirePort_stays {a s : State} (n : Slice) (h : Stays a s) :
    Stays a (retirePort s n) := by
  unfold retirePort
  repeat' first
    | with_reducible assumption
    | with_reducible apply State.cleared_stays
    | with_reducible apply modPort_stays
    | with_reducible apply raisePort_stays

theorem failPort_stays {a s : State} (n : Slice) (h : Stays a s) :
    Stays a (failPort s n) := by
  unfold failPort
  repeat' first
    | with_reducible assumption
    | with_reducible apply State.cleared_stays
    | with_reducible apply bundleCheck_stays
    | with_reducible apply modPort_stays
    | with_reducible apply raiseAs_stays
    | with_reducible apply resend_stays
    | with_reducible apply retirePort_stays
    | split
    | simp only [stays_upd]

end Sys2Proof.Machine
end

