-- ==== Sys2Proof/Laws/FrameLife.lean ====
section
/-! SUPPORT. Laws/FrameLife.lean: the operations of Machine/Life.lean leave the queue of waiting commands alone and keep the commit
record legal. -/

namespace Sys2Proof.Machine

theorem changeLife_stays {a s : State} (l : Life) (h : Stays a s) :
    Stays a (changeLife s l) := by
  unfold changeLife
  repeat' first
    | with_reducible assumption
    | with_reducible apply raiseMod_stays
    | split
    | simp only [stays_upd]

theorem lockedReady_stays {a s : State}  (h : Stays a s) :
    Stays a (lockedReady s) := by
  unfold lockedReady
  repeat' first
    | with_reducible assumption
    | with_reducible apply changeLife_stays
    | split

theorem setLife_stays {a s : State} (l : Life) (h : Stays a s) :
    Stays a (setLife s l) := by
  unfold setLife
  repeat' first
    | with_reducible assumption
    | with_reducible apply changeLife_stays
    | with_reducible apply lockedReady_stays
    | split

theorem endCommand_stays {a s : State} (status : Nat) (h : Stays a s) :
    Stays a (endCommand s status) := h

end Sys2Proof.Machine
end

