-- ==== Sys2Proof/Laws/FrameMesh.lean ====
section
/-! SUPPORT. Laws/FrameMesh.lean: the operations of Machine/Mesh.lean leave the queue of waiting commands alone and keep the commit
record legal. -/

namespace Sys2Proof.Machine

theorem raiseRt_stays {a s : State} (node : Fin 68) (ev : Ev) (data : Nat) (h : Stays a s) :
    Stays a (raiseRt s node ev data) := by
  unfold raiseRt
  repeat' first
    | with_reducible assumption
    | with_reducible apply raise_stays

theorem markDown_stays {a s : State} (node : Fin 68) (out : Nat) (h : Stays a s) :
    Stays a (markDown s node out) := by
  unfold markDown
  repeat' first
    | with_reducible assumption
    | with_reducible apply modRt_stays
    | split
    | simp only [stays_upd]

theorem noteRetry_stays {a s : State} (node : Fin 68) (out n : Nat) (h : Stays a s) :
    Stays a (noteRetry s node out n) := by
  unfold noteRetry
  repeat' first
    | with_reducible assumption
    | with_reducible apply modRt_stays
    | with_reducible apply raiseRt_stays
    | (extract_lets +onlyGivenNames t; first
        | (refine Stays.cut (a := a) (t := t) ?_ (fun ht => ?_); on_goal 2 => clear_value t; on_goal 1 => (unfold t; clear t))
        | (have _ : Option State := t; unfold t; clear t)
        | clear_value t)
    | split

theorem failLink_stays {a s : State} (node : Fin 68) (out : Nat) (h : Stays a s) :
    Stays a (failLink s node out) := by
  unfold failLink
  repeat' first
    | with_reducible assumption
    | with_reducible apply markDown_stays
    | with_reducible apply noteRetry_stays
    | with_reducible apply raiseRt_stays

theorem noteSlackFull_stays {a s : State} (node : Fin 68) (h : Stays a s) :
    Stays a (noteSlackFull s node) := h

theorem noteSeamFull_stays {a s : State} (node : Fin 68) (h : Stays a s) :
    Stays a (noteSeamFull s node) := h

theorem hopInject_stays {a s : State} (node : Fin 68) (x : QFlit) (rest : List QFlit) (h : Stays a s) :
    Stays a (hopInject s node x rest) := by
  unfold hopInject
  repeat' first
    | with_reducible assumption
    | with_reducible apply State.setOutQ_stays
    | with_reducible apply enterNode_stays
    | with_reducible apply noteSlackFull_stays
    | with_reducible apply takeCredit_stays
    | split

theorem hopLocal_stays {a s : State} (node : Fin 68) (out : Nat) (x : QFlit) (rest : List QFlit) (h : Stays a s) :
    Stays a (hopLocal s node out x rest) := by
  unfold hopLocal
  repeat' first
    | with_reducible assumption
    | with_reducible apply State.setOutQ_stays
    | with_reducible apply deliver_stays
    | with_reducible apply modRt_stays
    | split

theorem hopSeam_stays {a s : State} (node : Fin 68) (out : Nat) (x : QFlit) (rest : List QFlit) (h : Stays a s) :
    Stays a (hopSeam s node out x rest) := by
  unfold hopSeam
  repeat' first
    | with_reducible assumption
    | with_reducible apply State.setOutQ_stays
    | with_reducible apply modRt_stays
    | with_reducible apply noteSeamFull_stays
    | split

theorem noteSeamWait_stays {a s : State} (node : Fin 68) (inp : Nat) (f : Flit) (h : Stays a s) :
    Stays a (noteSeamWait s node inp f) := by
  unfold noteSeamWait
  repeat' first
    | with_reducible assumption
    | with_reducible apply noteSeamFull_stays
    | split

theorem hopLink_stays {a s : State} (node : Fin 68) (out fails : Nat) (x : QFlit) (rest : List QFlit) (h : Stays a s) :
    Stays a (hopLink s node out fails x rest) := by
  unfold hopLink
  repeat' first
    | with_reducible assumption
    | with_reducible apply State.setOutQ_stays
    | with_reducible apply enterNode_stays
    | with_reducible apply failLink_stays
    | with_reducible apply modRt_stays
    | with_reducible apply noteRetry_stays
    | with_reducible apply noteSeamWait_stays
    | with_reducible apply noteSlackFull_stays
    | split
    | simp only [stays_upd]

theorem hopStrip_stays {a s : State} (node : Fin 68) (out : Nat) (x : QFlit) (rest : List QFlit) (h : Stays a s) :
    Stays a (hopStrip s node out x rest) := by
  unfold hopStrip
  repeat' first
    | with_reducible assumption
    | with_reducible apply State.setOutQ_stays
    | with_reducible apply pushOut_stays

theorem cobaltHop_stays {a s : State} (node : Fin 68) (dir fails : Nat) (h : Stays a s) :
    Stays a (cobaltHop s node dir fails) := by
  unfold cobaltHop
  repeat' first
    | with_reducible assumption
    | with_reducible apply modRt_stays
    | with_reducible apply noteRetry_stays
    | with_reducible apply raiseRt_stays
    | split

theorem releaseBranch_stays {a s : State} (fuel : Nat) (node : Fin 68) (out : Nat) (h : Stays a s) :
    Stays a (releaseBranch fuel s node out) := by
  induction fuel generalizing s with
  | zero => exact h
  | succ fuel ih =>
    unfold releaseBranch
    split
    · exact h
    · split
      · exact ih (pushOut_stays node out _ _ (State.setSlackQ_stays _ out _ h))
      · exact h

theorem setLanding_stays {a s : State} (p : Pid) (cls : TClass) (q : List Flit) (h : Stays a s) :
    Stays a (setLanding s p cls q) := h

theorem offDiscard_stays {a s : State} (p : Pid) (f : Flit) (h : Stays a s) :
    Stays a (offDiscard s p f) := by
  unfold offDiscard
  repeat' first
    | with_reducible assumption
    | with_reducible apply countDiscard_stays
    | with_reducible apply modRt_stays
    | with_reducible apply raiseRt_stays
    | with_reducible apply sendAcks_stays
    | (extract_lets +onlyGivenNames t; first
        | (refine Stays.cut (a := a) (t := t) ?_ (fun ht => ?_); on_goal 2 => clear_value t; on_goal 1 => (unfold t; clear t))
        | (have _ : Option State := t; unfold t; clear t)
        | clear_value t)
    | split

theorem landWrite_stays {a s : State} (p : Pid) (f : Flit) (h : Stays a s) :
    Stays a (landWrite s p f).2 := by
  unfold landWrite
  repeat' first
    | with_reducible assumption
    | with_reducible apply poisonRange_stays
    | with_reducible apply produceWrite_stays
    | with_reducible apply slotCompletion_stays
    | (extract_lets +onlyGivenNames t; first
        | (refine Stays.cut (a := a) (t := t) ?_ (fun ht => ?_); on_goal 2 => clear_value t; on_goal 1 => (unfold t; clear t))
        | (have _ : Option State := t; unfold t; clear t)
        | clear_value t)
    | (split <;> try (rename_i hq; first
        | refine Stays.cut (Stays.ofPair (a := a) hq ?_) (fun _ => ?_)
        | refine Stays.cut (Stays.ofPair2 (a := a) hq ?_) (fun _ => ?_)
        | refine Stays.cut (Stays.ofPair3 (a := a) hq ?_) (fun _ => ?_)
        | refine Stays.cut (Stays.ofOpt (a := a) hq ?_) (fun _ => ?_)
        | refine Stays.cut (Stays.ofOptSnd (a := a) hq ?_) (fun _ => ?_)))

theorem countLanded_stays {a s : State} (p : Pid) (cls : TClass) (h : Stays a s) :
    Stays a (countLanded s p cls) := h

theorem mergeWrite_stays {a s : State} (p : Pid) (e : MergeEntry) (f : Flit) (h : Stays a s) :
    Stays a (mergeWrite s p e f) := by
  unfold mergeWrite
  repeat' first
    | with_reducible assumption
    | with_reducible apply modRt_stays
    | with_reducible apply poisonRange_stays
    | with_reducible apply produceWrite_stays
    | with_reducible apply readRange_stays
    | with_reducible apply sendAcks_stays
    | with_reducible apply slotCompletion_stays
    | split
    | simp only [stays_upd]

theorem noteMergeWait_stays {a s : State} (p : Pid) (h : Stays a s) :
    Stays a (noteMergeWait s p) := by
  unfold noteMergeWait
  repeat' first
    | with_reducible assumption
    | with_reducible apply draw_stays
    | with_reducible apply modRt_stays
    | with_reducible apply raiseRt_stays
    | (split <;> try (rename_i hq; first
        | refine Stays.cut (Stays.ofPair (a := a) hq ?_) (fun _ => ?_)
        | refine Stays.cut (Stays.ofPair2 (a := a) hq ?_) (fun _ => ?_)
        | refine Stays.cut (Stays.ofPair3 (a := a) hq ?_) (fun _ => ?_)
        | refine Stays.cut (Stays.ofOpt (a := a) hq ?_) (fun _ => ?_)
        | refine Stays.cut (Stays.ofOptSnd (a := a) hq ?_) (fun _ => ?_)))
    | (lift_lets; intro t;
        clear_value t)

theorem refuseMerge_stays {a s : State} (p : Pid) (f : Flit) (h : Stays a s) :
    Stays a (refuseMerge s p f) := by
  unfold refuseMerge
  repeat' first
    | with_reducible assumption
    | with_reducible apply giveCredit_stays
    | with_reducible apply raiseRt_stays

theorem purgeQueues_stays {a s : State} (t : Tab (List QFlit)) (h : Stays a s) :
    Stays a (purgeQueues s t).1 := by
  unfold purgeQueues
  repeat' first
    | with_reducible assumption
    | with_reducible apply holdDiscard_stays
    | with_reducible refine Stays.foldl (fun _ _ _ => ?_) ?_

theorem purgeRouter_stays {a s : State} (node : Fin 68) (h : Stays a s) :
    Stays a (purgeRouter s node) := by
  unfold purgeRouter
  repeat' first
    | with_reducible assumption
    | with_reducible apply ackNow_stays
    | with_reducible apply countDiscard_stays
    | with_reducible apply modRt_stays
    | with_reducible refine Stays.foldl (fun _ _ _ => ?_) ?_

theorem meshCtl_stays {a s : State}  (h : Stays a s) :
    Stays a (meshCtl s) := by
  unfold meshCtl
  repeat' first
    | with_reducible assumption
    | with_reducible apply recvCobalt_stays
    | with_reducible refine Stays.foldl (fun _ _ _ => ?_) ?_
    | with_reducible refine Stays.foldlSnd (fun _ _ _ _ => ?_) ?_
    | split

theorem holdMesh_stays {a s : State}  (h : Stays a s) :
    Stays a (holdMesh s) := by
  unfold holdMesh
  repeat' first
    | with_reducible assumption
    | with_reducible apply countDiscard_stays
    | with_reducible apply meshCtl_stays
    | with_reducible apply purgeQueues_stays
    | with_reducible apply purgeRouter_stays
    | with_reducible refine Stays.foldl (fun _ _ _ => ?_) ?_
    | with_reducible refine Stays.foldlSnd (fun _ _ _ _ => ?_) ?_
    | split
    | (lift_lets; intro t;
        clear_value t)
    | intro _
    | simp only [stays_upd]

theorem releaseMesh_stays {a s : State}  (h : Stays a s) :
    Stays a (releaseMesh s) := by
  unfold releaseMesh
  repeat' first
    | with_reducible assumption
    | with_reducible apply meshCtl_stays
    | with_reducible apply raiseMod_stays
    | (extract_lets +onlyGivenNames t; first
        | (refine Stays.cut (a := a) (t := t) ?_ (fun ht => ?_); on_goal 2 => clear_value t; on_goal 1 => (unfold t; clear t))
        | (have _ : Option State := t; unfold t; clear t)
        | clear_value t)
    | split
    | simp only [stays_upd]

theorem setHalf_stays {a s : State} (east half : Bool) (h : Stays a s) :
    Stays a (setHalf s east half) := by
  unfold setHalf
  repeat' first
    | with_reducible assumption
    | with_reducible apply raiseMod_stays
    | split
    | simp only [stays_upd]

theorem clockCtl_stays {a s : State} (east half : Bool) (h : Stays a s) :
    Stays a (clockCtl s east half) := by
  unfold clockCtl
  repeat' first
    | with_reducible assumption
    | with_reducible apply meshCtl_stays
    | with_reducible apply sendReply_stays
    | with_reducible apply setHalf_stays
    | split

end Sys2Proof.Machine
end

