-- ==== Sys2Proof/Laws/FramePantry.lean ====
section
/-! SUPPORT. Laws/FramePantry.lean: the operations of Machine/Pantry.lean leave the queue of waiting commands alone and keep the commit
record legal. -/

namespace Sys2Proof.Machine

theorem memopRun_stays {a s : State} (p : Pid) (m : MemOp) (h : Stays a s) :
    Stays a (memopRun s p m).2 := by
  unfold memopRun
  repeat' first
    | with_reducible assumption
    | with_reducible apply poisonRange_stays
    | with_reducible apply produceWrite_stays
    | with_reducible apply readRange_stays
    | (split <;> try (rename_i hq; first
        | refine Stays.cut (Stays.ofPair (a := a) hq ?_) (fun _ => ?_)
        | refine Stays.cut (Stays.ofPair2 (a := a) hq ?_) (fun _ => ?_)
        | refine Stays.cut (Stays.ofPair3 (a := a) hq ?_) (fun _ => ?_)
        | refine Stays.cut (Stays.ofOpt (a := a) hq ?_) (fun _ => ?_)
        | refine Stays.cut (Stays.ofOptSnd (a := a) hq ?_) (fun _ => ?_)))
    | (lift_lets; intro t;
        clear_value t)

theorem memopEnd_stays {a s : State} (p : Pid) (k : Nat) (h : Stays a s) :
    Stays a (memopEnd s p k) := by
  unfold memopEnd
  repeat' first
    | with_reducible assumption
    | with_reducible apply memopRun_stays
    | with_reducible apply modPn_stays
    | with_reducible apply postCompletion_stays
    | with_reducible apply releaseOperand_stays
    | with_reducible apply slotCompletion_stays
    | split

theorem setShelf_stays {a s : State} (p : Pid) (n : Nat) (x : Shelf) (h : Stays a s) :
    Stays a (setShelf s p n x) := by
  unfold setShelf
  repeat' first
    | with_reducible assumption
    | with_reducible apply modPn_stays
    | split

theorem zeroShelf_stays {a s : State} (p : Pid) (n : Nat) (h : Stays a s) :
    Stays a (zeroShelf s p n) := h

theorem openShelf_stays {a s : State} (p : Pid) (n : Nat) (h : Stays a s) :
    Stays a (openShelf s p n).2.2 := by
  unfold openShelf
  repeat' first
    | with_reducible assumption
    | with_reducible apply setShelf_stays
    | split

theorem closeShelf_stays {a s : State} (p : Pid) (n : Nat) (h : Stays a s) :
    Stays a (closeShelf s p n).2.2 := by
  unfold closeShelf
  repeat' first
    | with_reducible assumption
    | with_reducible apply setShelf_stays
    | split

theorem shelfWord_stays {a : State} (p : Pid) (t : Fin 16) (w n : Nat) (opens : Bool) (r : Nat × Bool × State)
    (h : Stays a r.2.2) : Stays a (shelfWord p t w n opens r) := by
  unfold shelfWord
  split
  · exact modSq_stays p _ h
  · exact finishWord_stays p t w _ h

theorem releaseHold_stays {a s : State} (p : Pid) (n : Nat) (opens : Bool) (h : Stays a s) :
    Stays a (releaseHold s p n opens) := by
  unfold releaseHold
  repeat' first
    | with_reducible assumption
    | with_reducible apply advance_stays
    | with_reducible apply leaveRunning_stays
    | with_reducible apply modSq_stays
    | with_reducible apply modTask_stays
    | split
    | simp only [stays_upd]

theorem countOrder_stays {a s : State} (p : Pid) (st : Nat) (h : Stays a s) :
    Stays a (countOrder s p st) := by
  unfold countOrder
  repeat' first
    | with_reducible assumption
    | with_reducible apply modPn_stays
    | split

theorem setTr_stays {a s : State} (p : Pid) (t : Fin 16) (n : Nat) (v : Nat) (h : Stays a s) :
    Stays a (setTr s p t n v) := h

theorem countCe_stays {a s : State} (p : Pid) (bank word : Nat) (h : Stays a s) :
    Stays a (countCe s p bank word) := by
  unfold countCe
  repeat' first
    | with_reducible assumption
    | with_reducible apply modPn_stays
    | with_reducible apply raiseSk_stays
    | with_reducible apply retireBank_stays
    | (extract_lets +onlyGivenNames t; first
        | (refine Stays.cut (a := a) (t := t) ?_ (fun ht => ?_); on_goal 2 => clear_value t; on_goal 1 => (unfold t; clear t))
        | (have _ : Option State := t; unfold t; clear t)
        | clear_value t)
    | split

theorem scrubPantry_stays {a s : State} (p : Pid) (word : Nat) (granule : Fin 64) (e : Ecc) (passDone : Bool) (h : Stays a s) :
    Stays a (scrubPantry s p word granule e passDone) := by
  unfold scrubPantry
  repeat' first
    | with_reducible assumption
    | with_reducible apply modPn_stays
    | with_reducible apply noteError_stays
    | with_reducible apply passDone_stays
    | with_reducible apply raiseSk_stays
    | (extract_lets +onlyGivenNames t; first
        | (refine Stays.cut (a := a) (t := t) ?_ (fun ht => ?_); on_goal 2 => clear_value t; on_goal 1 => (unfold t; clear t))
        | (have _ : Option State := t; unfold t; clear t)
        | clear_value t)
    | split

end Sys2Proof.Machine
end

