-- ==== Sys2Proof/Laws/FrameTimeOps.lean ====
section
/-! SUPPORT. Laws/FrameTimeOps.lean: the operations of Machine/TimeOps.lean leave the queue of waiting commands alone and keep the commit
record legal. -/

namespace Sys2Proof.Machine

theorem sendStamps_stays {a s : State}  (h : Stays a s) :
    Stays a (sendStamps s) := by
  unfold sendStamps
  repeat' first
    | with_reducible assumption
    | with_reducible apply sendNeighbour_stays
    | with_reducible refine Stays.foldl (fun _ _ _ => ?_) ?_
    | with_reducible refine Stays.foldlSnd (fun _ _ _ _ => ?_) ?_
    | split

theorem countBeat_stays {a s : State}  (h : Stays a s) :
    Stays a (countBeat s) := by
  unfold countBeat
  repeat' first
    | with_reducible assumption
    | with_reducible apply lockedReady_stays
    | with_reducible apply modTime_stays
    | with_reducible apply sendStamps_stays

theorem setLock_stays {a s : State} (l : Lock) (h : Stays a s) :
    Stays a (setLock s l) := by
  unfold setLock
  repeat' first
    | with_reducible assumption
    | with_reducible apply lockedReady_stays
    | with_reducible apply modTime_stays

theorem enterHoldover_stays {a s : State}  (h : Stays a s) :
    Stays a (enterHoldover s) := by
  unfold enterHoldover
  repeat' first
    | with_reducible assumption
    | with_reducible apply modTime_stays
    | with_reducible apply raiseMod_stays

theorem timeSplit_stays {a s : State} (off : Nat) (h : Stays a s) :
    Stays a (timeSplit s off) := by
  unfold timeSplit
  repeat' first
    | with_reducible assumption
    | with_reducible apply enterHoldover_stays
    | with_reducible apply modTime_stays
    | with_reducible apply raiseMod_stays
    | split

theorem setValid_stays {a s : State}  (h : Stays a s) :
    Stays a (setValid s) := by
  unfold setValid
  repeat' first
    | with_reducible assumption
    | with_reducible apply modTime_stays
    | with_reducible apply setLock_stays
    | split
    | simp only [stays_upd]

theorem anomaly_stays {a s : State}  (h : Stays a s) :
    Stays a (anomaly s) := h

theorem trainBeat_stays {a s : State} (sinceBeat : Nat) (h : Stays a s) :
    Stays a (trainBeat s sinceBeat) := by
  unfold trainBeat
  repeat' first
    | with_reducible assumption
    | with_reducible apply countBeat_stays
    | with_reducible apply modTime_stays
    | split

theorem edge_stays {a s : State} (ps sinceBeat : Nat) (h : Stays a s) : StaysOptSnd a (edge s ps sinceBeat) := by
  unfold edge
  split
  · exact staysOptSnd_some (anomaly_stays h)
  · exact staysOptSnd_some (anomaly_stays h)
  · exact staysOptSnd_none
  · split
    · exact staysOptSnd_none
    · exact staysOptSnd_some (trainBeat_stays sinceBeat (modTime_stays _ h))
  · split
    · exact staysOptSnd_none
    · exact staysOptSnd_some (trainBeat_stays sinceBeat (modTime_stays _ h))

theorem applyMarker_stays {a s : State} (target : Nat) (h : Stays a s) :
    Stays a (applyMarker s target) := by
  unfold applyMarker
  repeat' first
    | with_reducible assumption
    | with_reducible apply modSched_stays
    | split
    | simp only [stays_upd]

theorem takeMarker_stays {a s : State} (target number : Nat) (h : Stays a s) :
    Stays a (takeMarker s target number) := by
  unfold takeMarker
  repeat' first
    | with_reducible assumption
    | with_reducible apply applyMarker_stays
    | with_reducible apply modSched_stays
    | with_reducible apply sendNeighbour_stays
    | with_reducible refine Stays.foldl (fun _ _ _ => ?_) ?_
    | with_reducible refine Stays.foldlSnd (fun _ _ _ _ => ?_) ?_
    | split
    | simp only [stays_upd]

end Sys2Proof.Machine
end

