-- ==== Sys2Proof/Laws/FrameRimOps.lean ====
section
/-! SUPPORT. Laws/FrameRimOps.lean: the operations of Machine/RimOps.lean leave the queue of waiting commands alone and keep the commit
record legal. -/

namespace Sys2Proof.Machine

theorem raiseMc_stays {a s : State} (sl : Slice) (ev : Ev) (data : Nat) (h : Stays a s) :
    Stays a (raiseMc s sl ev data) := by
  unfold raiseMc
  repeat' first
    | with_reducible assumption
    | with_reducible apply raise_stays

theorem raiseUe_stays {a s : State} (sl : Slice) (ev : Ev) (data : Nat) (h : Stays a s) :
    Stays a (raiseUe s sl ev data) := by
  unfold raiseUe
  repeat' first
    | with_reducible assumption
    | with_reducible apply raise_stays

theorem applyRepair_stays {a s : State} (e : Repair) (h : Stays a s) :
    Stays a (applyRepair s e) := by
  unfold applyRepair
  repeat' first
    | with_reducible assumption
    | with_reducible apply modMc_stays
    | with_reducible apply raiseMc_stays
    | split
    | simp only [stays_upd]

theorem applyRepairs_stays {a s : State}  (h : Stays a s) :
    Stays a (applyRepairs s) := by
  unfold applyRepairs
  repeat' first
    | with_reducible assumption
    | with_reducible apply applyRepair_stays
    | with_reducible refine Stays.foldl (fun _ _ _ => ?_) ?_

theorem repairRow_stays {a s : State} (sl : Slice) (row : Nat) (h : Stays a s) :
    Stays a (repairRow s sl row) := by
  unfold repairRow
  repeat' first
    | with_reducible assumption
    | with_reducible apply applyRepairs_stays
    | with_reducible apply raiseMc_stays
    | split
    | simp only [stays_upd]

theorem stackCorrected_stays {a s : State} (sl : Slice) (burst : Nat) (h : Stays a s) :
    Stays a (stackCorrected s sl burst) := by
  unfold stackCorrected
  repeat' first
    | with_reducible assumption
    | with_reducible apply modMc_stays
    | with_reducible apply raiseMc_stays
    | with_reducible apply repairRow_stays
    | split
    | (lift_lets; intro t;
        clear_value t)
    | intro _

theorem stackUncorrectable_stays {a s : State} (sl : Slice) (burst : Nat) (cls : EvClass) (h : Stays a s) :
    Stays a (stackUncorrectable s sl burst cls) := by
  unfold stackUncorrectable
  repeat' first
    | with_reducible assumption
    | with_reducible apply modMc_stays
    | with_reducible apply raiseAs_stays
    | with_reducible apply repairRow_stays

theorem readStack_stays {a s : State} (sl : Slice) (loc n : Nat) (h : Stays a s) :
    Stays a (readStack s sl loc n).2.2 := by
  unfold readStack
  repeat' first
    | with_reducible assumption
    | with_reducible apply modMc_stays
    | with_reducible apply stackUncorrectable_stays
    | with_reducible refine Stays.foldl (fun _ _ _ => ?_) ?_

theorem writeStack_stays {a s : State} (sl : Slice) (loc : Nat) (bs : List Byte) (h : Stays a s) :
    Stays a (writeStack s sl loc bs) := h

theorem planRead_stays {a₀ s : State} (a n : Nat) (h : Stays a₀ s) :
    Stays a₀ (planRead s a n).2.2 := by
  unfold planRead
  repeat' first
    | with_reducible assumption
    | with_reducible apply readStack_stays

theorem planWrite_stays {a₀ s : State} (a : Nat) (bs : List Byte) (h : Stays a₀ s) :
    Stays a₀ (planWrite s a bs) := h

theorem stewardWrite_stays {a₀ s : State} (a : Nat) (bs : List Byte) (h : Stays a₀ s) :
    Stays a₀ (stewardWrite s a bs) := by
  unfold stewardWrite
  repeat' first
    | with_reducible assumption
    | with_reducible apply writeStack_stays
    | with_reducible refine Stays.foldl (fun _ _ _ => ?_) ?_

theorem readBlock_stays {a s : State} (j : Nat) (h : Stays a s) :
    Stays a (readBlock s j).2.2 := by
  unfold readBlock
  repeat' first
    | with_reducible assumption
    | with_reducible apply planRead_stays

theorem writeBlock_stays {a s : State} (j : Nat) (g : G16) (h : Stays a s) :
    Stays a (writeBlock s j g) := h

theorem sendRing_stays {a s : State} (sl : Slice) (yRing : Bool) (hop j : Nat) (g : G16) (h : Stays a s) :
    Stays a (sendRing s sl yRing hop j g) := by
  unfold sendRing
  repeat' first
    | with_reducible assumption
    | with_reducible apply sendBundle_stays

theorem sendToOwner_stays {a s : State} (kind hop j : Nat) (g : G16) (h : Stays a s) :
    Stays a (sendToOwner s kind hop j g) := by
  unfold sendToOwner
  repeat' first
    | with_reducible assumption
    | with_reducible apply sendBundle_stays
    | split
    | (lift_lets; intro t;
        clear_value t)

theorem sumBlock_stays {a s : State} (sl : Slice) (j : Nat) (g : G16) (bad : Bool) (h : Stays a s) :
    Stays a (sumBlock s sl j g bad) := by
  unfold sumBlock
  repeat' first
    | with_reducible assumption
    | with_reducible apply modUe_stays
    | split

theorem endSum_stays {a s : State} (sl : Slice) (h : Stays a s) :
    Stays a (endSum s sl) := by
  unfold endSum
  repeat' first
    | with_reducible assumption
    | with_reducible apply modUe_stays
    | split

theorem finalize_stays {a s : State} (sl : Slice) (j : Nat) (h : Stays a s) :
    Stays a (finalize s sl j) := by
  unfold finalize
  repeat' first
    | with_reducible assumption
    | with_reducible apply endSum_stays
    | with_reducible apply modRedSl_stays
    | with_reducible apply readBlock_stays
    | with_reducible apply sumBlock_stays
    | with_reducible refine Stays.foldl (fun _ _ _ => ?_) ?_
    | with_reducible refine Stays.foldlSnd (fun _ _ _ _ => ?_) ?_
    | split
    | simp only [stays_upd]

theorem dropStale_stays {a s : State} (port : Slice) (k : Nat) (h : Stays a s) :
    Stays a (dropStale s port k) := by
  unfold dropStale
  repeat' first
    | with_reducible assumption
    | with_reducible apply dropLanded_stays
    | with_reducible apply modRed_stays

theorem noteProgress_stays {a s : State} (point : Fin 6) (h : Stays a s) :
    Stays a (noteProgress s point) := h

end Sys2Proof.Machine
end

