-- ==== Sys2Proof/Laws/FrameRim.lean ====
section
/-! SUPPORT. Laws/FrameRim.lean: the operations of Machine/Rim.lean leave the queue of waiting commands alone and keep the commit
record legal. -/

namespace Sys2Proof.Machine

theorem rimTake_stays {a s : State} (port : Nat) (kinds : List FlitKind) (h : Stays a s) :
    StaysOptSnd a (rimTake s port kinds) := by
  unfold rimTake
  extract_lets q
  split
  · exact staysOptSnd_none
  · rename_i i _
    cases q[i]? with
    | none => exact staysOptSnd_none
    | some f =>
      dsimp only
      split
      · exact staysOptSnd_none
      · exact staysOptSnd_some h

theorem notePoisonRead_stays {a s : State} (f : Flit) (h : Stays a s) :
    Stays a (notePoisonRead s f) := by
  unfold notePoisonRead
  repeat' first
    | with_reducible assumption
    | with_reducible apply modLd_stays
    | with_reducible apply raiseSk_stays
    | split
    | simp only [stays_upd]

theorem sendDataFlits_stays {a s : State} (port : Nat) (f : Flit) (bs : List Byte) (poison : List Nat) (h : Stays a s) :
    Stays a (sendDataFlits s port f bs poison) := by
  unfold sendDataFlits
  repeat' first
    | with_reducible assumption
    | with_reducible apply inject_stays
    | with_reducible refine Stays.foldl (fun _ _ _ => ?_) ?_

theorem readPart_stays {a s : State} (sl : Slice) (f : Flit) (errs : List (Nat × Bool)) (h : Stays a s) :
    Stays a (readPart s sl f errs) := by
  unfold readPart
  repeat' first
    | with_reducible assumption
    | with_reducible apply draw_stays
    | with_reducible apply modMc_stays
    | with_reducible apply notePoisonRead_stays
    | with_reducible apply readStack_stays
    | with_reducible apply sendDataFlits_stays
    | with_reducible apply stackCorrected_stays
    | with_reducible refine Stays.foldl (fun _ _ _ => ?_) ?_
    | with_reducible refine Stays.foldlSnd (fun _ _ _ _ => ?_) ?_
    | split

theorem raiseBuffer_stays {a s : State} (i : Fin 4) (ev : Ev) (g : Nat) (h : Stays a s) :
    Stays a (raiseBuffer s i ev g) := by
  unfold raiseBuffer
  repeat' first
    | with_reducible assumption
    | with_reducible apply raise_stays

theorem bufferError_stays {a s : State} (i : Fin 4) (g : Nat) (double : Bool) (h : Stays a s) :
    Stays a (bufferError s i g double) := by
  unfold bufferError
  repeat' first
    | with_reducible assumption
    | with_reducible apply modBuffer_stays
    | with_reducible apply raiseBuffer_stays
    | split

theorem scrubBuffer_stays {a s : State} (i : Fin 4) (g : Nat) (e : Ecc) (h : Stays a s) :
    Stays a (scrubBuffer s i g e) := by
  unfold scrubBuffer
  repeat' first
    | with_reducible assumption
    | with_reducible apply bufferError_stays
    | with_reducible apply raiseBuffer_stays
    | split

theorem readBuffer_stays {a s : State} (i : Fin 4) (f : Flit) (errs : List (Nat × Bool)) (h : Stays a s) :
    Stays a (readBuffer s i f errs) := by
  unfold readBuffer
  repeat' first
    | with_reducible assumption
    | with_reducible apply bufferError_stays
    | with_reducible apply notePoisonRead_stays
    | with_reducible apply raiseBuffer_stays
    | with_reducible apply sendDataFlits_stays
    | with_reducible refine Stays.foldl (fun _ _ _ => ?_) ?_
    | with_reducible refine Stays.foldlSnd (fun _ _ _ _ => ?_) ?_
    | split

theorem sendDone_stays {a s : State} (port : Nat) (f : Flit) (len status : Nat) (h : Stays a s) :
    Stays a (sendDone s port f len status) := by
  unfold sendDone
  repeat' first
    | with_reducible assumption
    | with_reducible apply inject_stays

theorem refusePart_stays {a s : State} (sl : Slice) (h : Stays a s) :
    Stays a (refusePart s sl) := h

theorem takeBlock_stays {a s : State} (j : Nat) (h : Stays a s) :
    Stays a (takeBlock s j).2 := by
  unfold takeBlock
  repeat' first
    | with_reducible assumption
    | with_reducible apply readBlock_stays

theorem applyRa_stays {a s : State} (sl : Slice) (o : RaOp) (h : Stays a s) :
    Stays a (applyRa s sl o) := by
  unfold applyRa
  repeat' first
    | with_reducible assumption
    | with_reducible apply modMc_stays
    | with_reducible apply modRed_stays
    | with_reducible apply takeBlock_stays
    | with_reducible apply writeBlock_stays
    | split

theorem queueRa_stays {a s : State} (sl : Slice) (o : RaOp) (h : Stays a s) :
    Stays a (queueRa s sl o) := by
  unfold queueRa
  repeat' first
    | with_reducible assumption
    | with_reducible apply applyRa_stays
    | with_reducible apply modRedSl_stays
    | split

theorem receiveRa_stays {a s : State} (sl : Slice) (o : RaOp) (h : Stays a s) :
    Stays a (receiveRa s sl o) := by
  unfold receiveRa
  repeat' first
    | with_reducible assumption
    | with_reducible apply draw_stays
    | with_reducible apply modMc_stays
    | with_reducible apply modRedSl_stays
    | with_reducible apply modRed_stays
    | with_reducible apply queueRa_stays
    | with_reducible apply raiseMc_stays
    | with_reducible refine Stays.foldl (fun _ _ _ => ?_) ?_
    | with_reducible refine Stays.foldlSnd (fun _ _ _ _ => ?_) ?_
    | split
    | simp only [stays_upd]

theorem rimOp_stays {a s : State} (sl : Slice) (add : Bool) (h : Stays a s) :
    Stays a (rimOp s sl add) := by
  unfold rimOp
  repeat' first
    | with_reducible assumption
    | with_reducible apply noteProgress_stays
    | with_reducible apply receiveRa_stays
    | with_reducible apply rimTake_stays
    | with_reducible refine Stays.foldl (fun _ _ _ => ?_) ?_
    | with_reducible refine Stays.foldlSnd (fun _ _ _ _ => ?_) ?_
    | (split <;> try (rename_i hq; first
        | refine Stays.cut (Stays.ofPair (a := a) hq ?_) (fun _ => ?_)
        | refine Stays.cut (Stays.ofPair2 (a := a) hq ?_) (fun _ => ?_)
        | refine Stays.cut (Stays.ofPair3 (a := a) hq ?_) (fun _ => ?_)
        | refine Stays.cut (Stays.ofOpt (a := a) hq ?_) (fun _ => ?_)
        | refine Stays.cut (Stays.ofOptSnd (a := a) hq ?_) (fun _ => ?_)))

theorem takeRa_stays {a s : State} (sl : Slice) (block : Nat) (h : Stays a s) : StaysOptSnd a (takeRa s sl block) := by
  unfold takeRa
  extract_lets q
  split
  · exact staysOptSnd_none
  · rename_i i _
    cases q[i]? with
    | none => exact staysOptSnd_none
    | some o => exact staysOptSnd_some (modRedSl_stays sl _ h)

theorem optimPut_stays {a s : State} (key n : Nat) (h : Stays a s) :
    Stays a (optimPut s key n).2 := by
  unfold optimPut
  repeat' first
    | with_reducible assumption
    | split
    | simp only [stays_upd]

theorem optimTry_stays {a s : State} (st key n : Nat) (h : Stays a s) :
    Stays a (optimTry s st key n).2 := by
  unfold optimTry
  repeat' first
    | with_reducible assumption
    | with_reducible apply optimPut_stays
    | split

theorem wOptimizer_stays {a s : State} (sub : Nat) (r : Req) (h : Stays a s) :
    Stays a (wOptimizer sub r s).2 := by
  unfold wOptimizer
  repeat' first
    | with_reducible assumption
    | with_reducible apply optimTry_stays

theorem wApplyStep_stays {a s : State} (r : Req) (h : Stays a s) :
    Stays a (wApplyStep r s).2 := by
  unfold wApplyStep
  repeat' first
    | with_reducible assumption
    | split
    | simp only [stays_upd]

theorem wClassRange_stays {a s : State} (i : Fin 64) (r : Req) (h : Stays a s) :
    Stays a (wClassRange i r s).2 := by
  unfold wClassRange
  repeat' first
    | with_reducible assumption
    | with_reducible apply optimTry_stays

theorem wCeRowLimit_stays {a s : State} (r : Req) (h : Stays a s) :
    Stays a (wCeRowLimit r s).2 := by
  unfold wCeRowLimit
  repeat' first
    | with_reducible assumption
    | with_reducible apply accept_stays
    | simp only [stays_upd]

end Sys2Proof.Machine
end

