-- ==== Sys2Proof/Laws/FrameLinks.lean ====
section
/-! SUPPORT. Laws/FrameLinks.lean: the operations of Machine/Links.lean leave the queue of waiting commands alone and keep the commit
record legal. -/

namespace Sys2Proof.Machine

theorem raiseBay_stays {a s : State} (b : Fin 16) (ev : Ev) (data : Nat) (h : Stays a s) :
    Stays a (raiseBay s b ev data) := by
  unfold raiseBay
  repeat' first
    | with_reducible assumption
    | with_reducible apply raise_stays

theorem portUp_stays {a s : State} (n : Slice) (h : Stays a s) :
    Stays a (portUp s n) := by
  unfold portUp
  repeat' first
    | with_reducible assumption
    | with_reducible apply modPort_stays
    | split
    | simp only [stays_upd]

theorem disablePort_stays {a s : State} (n : Slice) (h : Stays a s) :
    Stays a (disablePort s n) := h

theorem operatorOff_stays {a s : State} (n : Slice) (h : Stays a s) :
    Stays a (operatorOff s n) := by
  unfold operatorOff
  repeat' first
    | with_reducible assumption
    | with_reducible apply disablePort_stays
    | with_reducible apply modPort_stays
    | split
    | simp only [stays_upd]

theorem sendJoin_stays {a s : State} (n : Slice) (h : Stays a s) :
    Stays a (sendJoin s n) := by
  unfold sendJoin
  repeat' first
    | with_reducible assumption
    | with_reducible apply modPort_stays
    | with_reducible apply sendNeighbour_stays
    | (extract_lets +onlyGivenNames t;
        clear_value t)
    | split

theorem joinDone_stays {a s : State} (n : Slice) (h : Stays a s) :
    Stays a (joinDone s n) := by
  unfold joinDone
  repeat' first
    | with_reducible assumption
    | with_reducible apply modPort_stays
    | with_reducible apply raisePort_stays
    | split
    | simp only [stays_upd]

theorem sendLast_stays {a s : State} (n : Slice) (h : Stays a s) :
    Stays a (sendLast s n) := by
  unfold sendLast
  repeat' first
    | with_reducible assumption
    | with_reducible apply modPort_stays
    | with_reducible apply sendNeighbour_stays
    | (extract_lets +onlyGivenNames t;
        clear_value t)
    | split

theorem drainDone_stays {a s : State} (n : Slice) (h : Stays a s) :
    Stays a (drainDone s n) := by
  unfold drainDone
  repeat' first
    | with_reducible assumption
    | with_reducible apply modPort_stays
    | with_reducible apply operatorOff_stays
    | with_reducible apply sendJoin_stays
    | with_reducible apply sendLast_stays
    | split
    | simp only [stays_upd]

theorem beginDrain_stays {a s : State} (n : Slice) (h : Stays a s) :
    Stays a (beginDrain s n) := by
  unfold beginDrain
  repeat' first
    | with_reducible assumption
    | with_reducible apply drainDone_stays
    | with_reducible apply modPort_stays

theorem leaveService_stays {a s : State} (n : Slice) (h : Stays a s) :
    Stays a (leaveService s n) := by
  unfold leaveService
  repeat' first
    | with_reducible assumption
    | with_reducible apply beginDrain_stays
    | with_reducible apply operatorOff_stays
    | with_reducible apply sendNeighbour_stays
    | split

theorem takeLinkWord_stays {a s : State} (n : Slice) (lane : Nat) (f : Frame) (h : Stays a s) :
    Stays a (takeLinkWord s n lane f) := by
  unfold takeLinkWord
  repeat' first
    | with_reducible assumption
    | with_reducible apply drainDone_stays
    | with_reducible apply modPort_stays
    | with_reducible apply pump_stays

theorem noteLinkRetry_stays {a s : State} (n : Slice) (frames : Nat) (h : Stays a s) :
    Stays a (noteLinkRetry s n frames) := by
  unfold noteLinkRetry
  repeat' first
    | with_reducible assumption
    | with_reducible apply modPort_stays
    | with_reducible apply raisePort_stays
    | split
    | simp only [stays_upd]

theorem replayLane_stays {a s : State} (n : Slice) (lane : Nat) (h : Stays a s) :
    Stays a (replayLane s n lane) := by
  unfold replayLane
  repeat' first
    | with_reducible assumption
    | with_reducible apply failPort_stays
    | with_reducible apply modPort_stays
    | with_reducible apply noteLinkRetry_stays
    | split
    | simp only [stays_upd]

theorem dropRoute_stays {a s : State} (n : Slice) (h : Stays a s) :
    Stays a (dropRoute s n) := by
  unfold dropRoute
  repeat' first
    | with_reducible assumption
    | with_reducible apply modPort_stays
    | with_reducible apply modTorus_stays
    | with_reducible apply raisePort_stays
    | split
    | simp only [stays_upd]

theorem forwardFrame_stays {a s : State} (n : Slice) (c : Content) (b : Bundle) (h : Stays a s) :
    Stays a (forwardFrame s n c b) := by
  unfold forwardFrame
  repeat' first
    | with_reducible assumption
    | with_reducible apply dropRoute_stays
    | with_reducible apply freePlace_stays
    | with_reducible apply modPort_stays
    | with_reducible apply sendBundle_stays
    | split

theorem landFrame_stays {a s : State} (n : Slice) (c : Content) (h : Stays a s) :
    Stays a (landFrame s n c) := by
  unfold landFrame
  repeat' first
    | with_reducible assumption
    | with_reducible apply forwardFrame_stays
    | with_reducible apply modPort_stays
    | split

theorem noteDiscard_stays {a s : State} (n : Slice) (lane : Nat) (h : Stays a s) :
    Stays a (noteDiscard s n lane) := by
  unfold noteDiscard
  repeat' first
    | with_reducible assumption
    | with_reducible apply modPort_stays
    | split
    | simp only [stays_upd]

theorem acceptFrame_stays {a s : State} (n : Slice) (lane : Nat) (f : Frame) (h : Stays a s) :
    Stays a (acceptFrame s n lane f) := by
  unfold acceptFrame
  repeat' first
    | with_reducible assumption
    | with_reducible apply draw_stays
    | with_reducible apply freePlace_stays
    | with_reducible apply landFrame_stays
    | with_reducible apply modPort_stays
    | with_reducible apply modRed_stays
    | split
    | simp only [stays_upd]

theorem sendHello_stays {a s : State} (n : Slice) (h : Stays a s) :
    Stays a (sendHello s n) := by
  unfold sendHello
  repeat' first
    | with_reducible assumption
    | with_reducible apply sendNeighbour_stays

theorem noteIdentity_stays {a s : State} (n : Slice) (id : List Byte) (h : Stays a s) :
    Stays a (noteIdentity s n id) := by
  unfold noteIdentity
  repeat' first
    | with_reducible assumption
    | with_reducible apply modTorus_stays
    | with_reducible apply raisePort_stays
    | split
    | simp only [stays_upd]

theorem discover_stays {a s : State}  (h : Stays a s) :
    Stays a (discover s) := by
  unfold discover
  repeat' first
    | with_reducible assumption
    | with_reducible apply modTorus_stays
    | with_reducible apply raiseMod_stays
    | split

theorem wPortEnable_stays {a s : State} (n : Slice) (r : Req) (h : Stays a s) :
    Stays a (wPortEnable n r s).2 := by
  unfold wPortEnable
  repeat' first
    | with_reducible assumption
    | with_reducible apply State.cleared_stays
    | with_reducible apply joinDone_stays
    | with_reducible apply leaveService_stays
    | with_reducible apply modPort_stays
    | with_reducible apply portUp_stays
    | with_reducible apply sendJoin_stays
    | split

theorem bayReady_stays {a s : State} (b : Fin 16) (h : Stays a s) :
    Stays a (bayReady s b) := by
  unfold bayReady
  repeat' first
    | with_reducible assumption
    | with_reducible apply modBay_stays
    | with_reducible apply raiseBay_stays

theorem wCartridgePrepare_stays {a s : State} (b : Fin 16) (r : Req) (h : Stays a s) :
    Stays a (wCartridgePrepare b r s).2 := by
  unfold wCartridgePrepare
  repeat' first
    | with_reducible assumption
    | with_reducible apply bayReady_stays
    | with_reducible apply disablePort_stays
    | with_reducible apply leaveService_stays
    | with_reducible apply modBay_stays
    | with_reducible apply modPort_stays
    | with_reducible apply portUp_stays
    | with_reducible refine Stays.foldl (fun _ _ _ => ?_) ?_
    | with_reducible refine Stays.foldlSnd (fun _ _ _ _ => ?_) ?_
    | split
    | simp only [stays_upd]

theorem portDark_stays {a s : State} (n : Slice) (h : Stays a s) :
    Stays a (portDark s n) := by
  unfold portDark
  repeat' first
    | with_reducible assumption
    | with_reducible apply disablePort_stays
    | with_reducible apply failPort_stays
    | (extract_lets +onlyGivenNames t; first
        | (refine Stays.cut (a := a) (t := t) ?_ (fun ht => ?_); on_goal 2 => clear_value t; on_goal 1 => (unfold t; clear t))
        | (have _ : Option State := t; unfold t; clear t))
    | split

theorem refreshSides_stays {a s : State}  (h : Stays a s) :
    Stays a (refreshSides s) := by
  unfold refreshSides
  repeat' first
    | with_reducible assumption
    | with_reducible apply disablePort_stays
    | with_reducible apply portUp_stays
    | with_reducible refine Stays.foldl (fun _ _ _ => ?_) ?_
    | with_reducible refine Stays.foldlSnd (fun _ _ _ _ => ?_) ?_
    | split

theorem wTorus_stays {a s : State} (sub : Nat) (r : Req) (h : Stays a s) :
    Stays a (wTorus sub r s).2 := by
  unfold wTorus
  repeat' first
    | with_reducible assumption
    | with_reducible apply discover_stays
    | with_reducible apply modTorus_stays
    | with_reducible apply refreshSides_stays
    | split
    | simp only [stays_upd]

theorem wCoordConfirm_stays {a s : State} (r : Req) (h : Stays a s) :
    Stays a (wCoordConfirm r s).2 := by
  unfold wCoordConfirm
  repeat' first
    | with_reducible assumption
    | with_reducible apply setLife_stays
    | split

theorem wBerWarn_stays {a s : State} (r : Req) (h : Stays a s) :
    Stays a (wBerWarn r s).2 := by
  unfold wBerWarn
  repeat' first
    | with_reducible assumption
    | with_reducible apply accept_stays
    | with_reducible apply modTorus_stays

end Sys2Proof.Machine
end

