-- ==== Sys2Proof/Laws/FrameSequencer.lean ====
section
/-! SUPPORT. Laws/FrameSequencer.lean: the operations of Machine/Sequencer.lean leave the queue of waiting commands alone and keep the commit
record legal. -/

namespace Sys2Proof.Machine

theorem startTask_stays {a s : State} (p : Pid) (task : Fin 16) (pc : Nat) (arg : W64) (h : Stays a s) :
    Stays a (startTask s p task pc arg).2 := by
  unfold startTask
  repeat' first
    | with_reducible assumption
    | with_reducible apply kick_stays
    | with_reducible apply modTask_stays
    | split
    | (lift_lets; intro t;
        clear_value t)

theorem haltAll_stays {a s : State} (p : Pid) (h : Stays a s) :
    Stays a (haltAll s p) := h

theorem clearLoss_stays {a s : State} (p : Pid) (h : Stays a s) :
    Stays a (clearLoss s p) := h

theorem timeAt_stays {a s : State} (p : Pid) (t : Fin 16) (w : Nat) (target : Nat × Nat) (frac : Nat) (h : Stays a s) :
    Stays a (timeAt s p t w target frac) := by
  have h1 := State.atFrac_stays frac h
  unfold timeAt
  dsimp only
  split
  · exact advance_stays p t (modSq_stays p _ h1)
  · exact waitTask_stays p t 4 w (modTask_stays p t _ h1)

theorem sendSk_stays {a s : State} (kind : CobaltKind) (p : Pid) (dest : Nat) (arg : Nat) (h : Stays a s) :
    Stays a (sendSk s kind p dest arg) := by
  unfold sendSk
  repeat' first
    | with_reducible assumption
    | with_reducible apply countDiscard_stays
    | with_reducible apply sendCobalt_stays
    | split

theorem sendBcast_stays {a s : State} (p : Pid) (mask : Nat) (arg : Nat) (h : Stays a s) :
    Stays a (sendBcast s p mask arg) := by
  unfold sendBcast
  repeat' first
    | with_reducible assumption
    | with_reducible apply countDiscard_stays
    | with_reducible apply countSent_stays
    | split
    | simp only [stays_upd]

theorem countSignal_stays {a s : State} (p : Pid) (h : Stays a s) :
    Stays a (countSignal s p) := h

theorem sendSignal_stays {a s : State} (p : Pid) (to_ : List Pid) (g : Nat) (h : Stays a s) :
    Stays a (sendSignal s p to_ g) := by
  unfold sendSignal
  repeat' first
    | with_reducible assumption
    | with_reducible apply sendBcast_stays
    | with_reducible apply sendSk_stays
    | with_reducible refine Stays.foldl (fun _ _ _ => ?_) ?_
    | with_reducible refine Stays.foldlSnd (fun _ _ _ _ => ?_) ?_
    | split

theorem sendingWord_stays {a s : State} (p : Pid) (op : WordOp) (act : State → Fin 16 → Nat → State) (h : Stays a s)
    (k : ∀ t n w, Stays a t → Stays a (act t n w)) : Stays a (sendingWord s p op act) := by
  unfold sendingWord
  split
  · exact issueWord_stays p op act h k
  · exact h

theorem receiveMsg_stays {a s : State} (kind : CobaltKind) (src : Nat) (p : Pid) (act : State → Nat → State) (h : Stays a s)
    (k : ∀ t n, Stays a t → Stays a (act t n)) : Stays a (receiveMsg s kind src p act) := by
  unfold receiveMsg
  split
  · exact h
  · split
    · exact h
    · rename_i m rest _
      have h1 : Stays a { s with mesh := { s.mesh with cobalt := rest } } := h
      dsimp only
      split
      · exact modRt_stays _ _ h1
      · exact k _ _ (recvCobalt_stays _ h1)

end Sys2Proof.Machine
end

