-- ==== Sys2Proof/Laws/FrameUpdate.lean ====
section
/-! SUPPORT. Laws/FrameUpdate.lean: the operations of Machine/Update.lean leave the queue of waiting commands alone and keep the commit
record legal. -/

namespace Sys2Proof.Machine

theorem writeRecords_stays {a s : State} (kind j : Nat) (w m1 m2 r : List Byte) (h : Stays a s) :
    Stays a (writeRecords s kind j w m1 m2 r) := h

theorem binBlock_stays {a s : State} (sl : Slice) (j : Nat) (xs : List ParamNew) (h : Stays a s) :
    Stays a (binBlock s sl j xs) := by
  unfold binBlock
  repeat' first
    | with_reducible assumption
    | with_reducible apply modUe_stays
    | with_reducible refine Stays.foldl (fun _ _ _ => ?_) ?_
    | with_reducible refine Stays.foldlSnd (fun _ _ _ _ => ?_) ?_
    | split

theorem updateBlock_stays {a s : State} (o : Optim) (k : OptConst) (sl : Slice) (j : Nat) (h : Stays a s) :
    Stays a (updateBlock o k s sl j) := by
  unfold updateBlock
  repeat' first
    | with_reducible assumption
    | with_reducible apply binBlock_stays
    | with_reducible apply modUe_stays
    | with_reducible apply planRead_stays
    | with_reducible apply raiseUe_stays
    | with_reducible apply readBlock_stays
    | with_reducible apply writeRecords_stays
    | (extract_lets +onlyGivenNames t; first
        | (refine Stays.cut (a := a) (t := t) ?_ (fun ht => ?_); on_goal 2 => clear_value t; on_goal 1 => (unfold t; clear t))
        | (have _ : Option State := t; unfold t; clear t)
        | clear_value t)
    | (split <;> try (rename_i hq; first
        | refine Stays.cut (Stays.ofPair (a := a) hq ?_) (fun _ => ?_)
        | refine Stays.cut (Stays.ofPair2 (a := a) hq ?_) (fun _ => ?_)
        | refine Stays.cut (Stays.ofPair3 (a := a) hq ?_) (fun _ => ?_)
        | refine Stays.cut (Stays.ofOpt (a := a) hq ?_) (fun _ => ?_)
        | refine Stays.cut (Stays.ofOptSnd (a := a) hq ?_) (fun _ => ?_)))
    | simp only [stays_upd]

theorem ueRun_stays {a s : State} (sl : Slice) (n : Nat) (h : Stays a s) :
    Stays a (ueRun s sl n) := by
  unfold ueRun
  repeat' first
    | with_reducible assumption
    | with_reducible apply updateBlock_stays
    | with_reducible refine Stays.foldl (fun _ _ _ => ?_) ?_
    | with_reducible refine Stays.foldlSnd (fun _ _ _ _ => ?_) ?_
    | split

theorem beginUpdate_stays {a s : State} (sl : Slice) (h : Stays a s) :
    Stays a (beginUpdate s sl) := h

theorem ueReach_stays {a s : State} (sl : Slice) (block : Nat) (cause : Nat) (h : Stays a s) :
    Stays a (ueReach s sl block cause) := by
  unfold ueReach
  repeat' first
    | with_reducible assumption
    | with_reducible apply ueRun_stays
    | split

end Sys2Proof.Machine
end

