-- ==== Sys2Proof/Laws/FrameWatch.lean ====
section
/-! SUPPORT. Laws/FrameWatch.lean: the operations of Machine/Watch.lean leave the queue of waiting commands alone and keep the commit
record legal. -/

namespace Sys2Proof.Machine

theorem sumPoint_stays {a s : State} (e : Nat × Tab Nat) (h : Stays a s) :
    Stays a (sumPoint s e) := by
  unfold sumPoint
  repeat' first
    | with_reducible assumption
    | with_reducible apply modWatch_stays
    | with_reducible apply raiseMod_stays
    | split
    | simp only [stays_upd]

theorem tapSwitch_stays {a s : State} (p : Pid) (h : Stays a s) :
    Stays a (tapSwitch s p) := by
  unfold tapSwitch
  repeat' first
    | with_reducible assumption
    | with_reducible apply modSk_stays
    | with_reducible apply modWatch_stays
    | with_reducible apply sumPoint_stays
    | with_reducible refine Stays.foldl (fun _ _ _ => ?_) ?_
    | with_reducible refine Stays.foldlSnd (fun _ _ _ _ => ?_) ?_
    | split
    | simp only [stays_upd]

theorem clearIdle_stays {a s : State} (p : Pid) (h : Stays a s) :
    Stays a (clearIdle s p) := h

theorem clearActive_stays {a s : State} (p : Pid) (h : Stays a s) :
    Stays a (clearActive s p) := h

theorem clearTaps_stays {a s : State}  (h : Stays a s) :
    Stays a (clearTaps s) := by
  unfold clearTaps
  repeat' first
    | with_reducible assumption
    | with_reducible apply clearActive_stays
    | with_reducible apply clearIdle_stays
    | with_reducible apply modUe_stays
    | with_reducible apply modWatch_stays
    | with_reducible refine Stays.foldl (fun _ _ _ => ?_) ?_

theorem scalePoint_stays {a s : State} (d : Ended) (w : Nat) (h : Stays a s) :
    Stays a (scalePoint d s w) := by
  unfold scalePoint
  repeat' first
    | with_reducible assumption
    | with_reducible apply modWatch_stays
    | with_reducible apply raiseMod_stays
    | split
    | simp only [stays_upd]

theorem localRun_stays {a s : State} (d : Ended) (w : Nat) (h : Stays a s) :
    Stays a (localRun d s w) := by
  unfold localRun
  repeat' first
    | with_reducible assumption
    | with_reducible apply modWatch_stays
    | with_reducible apply raiseMod_stays
    | split
    | simp only [stays_upd]

theorem publishScales_stays {a s : State}  (h : Stays a s) :
    Stays a (publishScales s) := by
  unfold publishScales
  repeat' first
    | with_reducible assumption
    | with_reducible apply stewardWrite_stays

theorem stepReport_stays {a s : State} (d : Ended) (outcome : Nat) (h : Stays a s) :
    Stays a (stepReport s d outcome) := h

theorem takeUeBanks_stays {a s : State} (d : Ended) (h : Stays a s) :
    Stays a (takeUeBanks s d).2 := by
  unfold takeUeBanks
  repeat' first
    | with_reducible assumption
    | with_reducible apply modUe_stays
    | with_reducible refine Stays.foldl (fun _ _ _ => ?_) ?_

theorem wQuietThreshold_stays {a s : State} (r : Req) (h : Stays a s) :
    Stays a (wQuietThreshold r s).2 := by
  unfold wQuietThreshold
  repeat' first
    | with_reducible assumption
    | with_reducible apply accept_stays
    | with_reducible apply modWatch_stays

theorem wQuietSteps_stays {a s : State} (r : Req) (h : Stays a s) :
    Stays a (wQuietSteps r s).2 := by
  unfold wQuietSteps
  repeat' first
    | with_reducible assumption
    | with_reducible apply accept_stays
    | with_reducible apply modWatch_stays

end Sys2Proof.Machine
end

