-- ==== Sys2Proof/Laws/FrameReduce.lean ====
section
/-! SUPPORT. Laws/FrameReduce.lean: the operations of Machine/Reduce.lean leave the queue of waiting commands alone and keep the commit
record legal. -/

namespace Sys2Proof.Machine

theorem sendY_stays {a s : State} (sl : Slice) (hop j : Nat) (g : G16) (h : Stays a s) :
    Stays a (sendY s sl hop j g) := by
  unfold sendY
  repeat' first
    | with_reducible assumption
    | with_reducible apply modRedSl_stays
    | with_reducible apply sendRing_stays

theorem sendYReady_stays {a s : State} (sl : Slice) (h : Stays a s) :
    Stays a (sendYReady s sl) := by
  unfold sendYReady
  repeat' first
    | with_reducible assumption
    | with_reducible apply sendY_stays
    | with_reducible apply takeBlock_stays
    | with_reducible refine Stays.foldl (fun _ _ _ => ?_) ?_
    | with_reducible refine Stays.foldlSnd (fun _ _ _ _ => ?_) ?_
    | split

theorem traceOutput_stays {a s : State} (hop j : Nat) (g : G16) (h : Stays a s) :
    Stays a (traceOutput s hop j g) := by
  unfold traceOutput
  repeat' first
    | with_reducible assumption
    | with_reducible apply modRed_stays
    | with_reducible apply sendToOwner_stays
    | split

theorem nameAdder_stays {b s : State} (j : Nat) (a : NamedAdder) (h : Stays b s) : Stays b (nameAdder s j a) := by
  unfold nameAdder
  extract_lets sl s1 s2
  have h1 : Stays b s1 := raiseMc_stays _ _ _ h
  have h2 : Stays b s2 := raiseMc_stays _ _ _ h1
  clear_value s1 s2
  split
  · exact modRed_stays _ h1
  · split
    · split
      · exact h2
      · split
        · exact h2
        · rename_i n _
          extract_lets s3
          have h3 : Stays b s3 := failPort_stays n h2
          clear_value s3
          split
          · exact h3
          · exact retirePort_stays n h3
    · split
      · exact raiseMc_stays _ _ _ h1
      · exact h1

theorem judgeTrace_stays {a s : State} (j : Nat) (failed : Bool) (h : Stays a s) : Stays a (judgeTrace s j failed) := by
  unfold judgeTrace
  split
  · exact h
  · extract_lets done
    have hd : Stays a (done s) := modRed_stays _ h
    clear_value done
    split
    · exact nameAdder_stays j _ hd
    · split
      · exact nameAdder_stays j _ hd
      · exact h
    · exact h

theorem storeCopy_stays {a s : State} (c : CheckCopy) (h : Stays a s) :
    Stays a (storeCopy s c) := by
  unfold storeCopy
  repeat' first
    | with_reducible assumption
    | with_reducible apply modRedSl_stays
    | with_reducible apply modRed_stays
    | with_reducible apply raiseMc_stays
    | (extract_lets +onlyGivenNames t; first
        | (refine Stays.cut (a := a) (t := t) ?_ (fun ht => ?_); on_goal 2 => clear_value t; on_goal 1 => (unfold t; clear t))
        | (have _ : Option State := t; unfold t; clear t)
        | clear_value t)
    | split

theorem sendCopy_stays {a s : State} (j : Nat) (h : Stays a s) :
    Stays a (sendCopy s j) := by
  unfold sendCopy
  repeat' first
    | with_reducible assumption
    | with_reducible apply sendToOwner_stays
    | with_reducible apply storeCopy_stays
    | with_reducible apply takeBlock_stays
    | (split <;> try (rename_i hq; first
        | refine Stays.cut (Stays.ofPair (a := a) hq ?_) (fun _ => ?_)
        | refine Stays.cut (Stays.ofPair2 (a := a) hq ?_) (fun _ => ?_)
        | refine Stays.cut (Stays.ofPair3 (a := a) hq ?_) (fun _ => ?_)
        | refine Stays.cut (Stays.ofOpt (a := a) hq ?_) (fun _ => ?_)
        | refine Stays.cut (Stays.ofOptSnd (a := a) hq ?_) (fun _ => ?_)))

theorem launchRings_stays {a s : State} (sl : Slice) (blocks : List Nat) (h : Stays a s) :
    Stays a (launchRings s sl blocks) := by
  unfold launchRings
  repeat' first
    | with_reducible assumption
    | with_reducible apply sendRing_stays
    | with_reducible apply sendYReady_stays
    | with_reducible apply takeBlock_stays
    | with_reducible refine Stays.foldl (fun _ _ _ => ?_) ?_
    | with_reducible refine Stays.foldlSnd (fun _ _ _ _ => ?_) ?_
    | split

theorem takeLanded_stays {a s : State} (port : Slice) (k : Nat) (h : Stays a s) :
    Stays a (takeLanded s port k) := h

theorem leaveHeld_stays {a s : State} (sl : Slice) (k : Nat) (h : RingHeld) (h₀ : Stays a s) :
    Stays a (leaveHeld s sl k h) := by
  unfold leaveHeld
  repeat' first
    | with_reducible assumption
    | with_reducible apply freePlace_stays
    | with_reducible apply modRedSl_stays
    | split
    | simp only [stays_upd]

theorem countLinkAdd_stays {a₀ s : State} (port : Slice) (a b : G16) (h : Stays a₀ s) :
    Stays a₀ (countLinkAdd s port a b) := h

theorem ringDelivered_stays {a s : State} (sl : Slice) (j : Nat) (h : Stays a s) :
    Stays a (ringDelivered s sl j) := by
  unfold ringDelivered
  repeat' first
    | with_reducible assumption
    | with_reducible apply finalize_stays
    | with_reducible apply modRedSl_stays
    | with_reducible apply sendYReady_stays
    | with_reducible apply traceOutput_stays
    | split
    | simp only [stays_upd]

theorem sendFused_stays {a s : State} (yRing : Bool) (hop : Nat) (f : Fused) (h : Stays a s) :
    Stays a (sendFused s yRing hop f) := by
  unfold sendFused
  repeat' first
    | with_reducible assumption
    | with_reducible apply sendBundle_stays

theorem sendRow_stays {a s : State}  (h : Stays a s) :
    Stays a (sendRow s) := by
  unfold sendRow
  repeat' first
    | with_reducible assumption
    | with_reducible apply modRed_stays
    | with_reducible apply sendFused_stays
    | with_reducible refine Stays.foldl (fun _ _ _ => ?_) ?_
    | with_reducible refine Stays.foldlSnd (fun _ _ _ _ => ?_) ?_
    | split
    | simp only [stays_upd]

theorem freeHeld_stays {a s : State} (sl : Slice) (h : Stays a s) :
    Stays a (freeHeld s sl) := by
  unfold freeHeld
  repeat' first
    | with_reducible assumption
    | with_reducible apply leaveHeld_stays
    | with_reducible refine Stays.foldl (fun _ _ _ => ?_) ?_
    | with_reducible refine Stays.foldlSnd (fun _ _ _ _ => ?_) ?_
    | split

theorem resetReduction_stays {a s : State}  (h : Stays a s) :
    Stays a (resetReduction s) := by
  unfold resetReduction
  repeat' first
    | with_reducible assumption
    | with_reducible apply State.cleared_stays
    | with_reducible apply freeHeld_stays
    | with_reducible apply modRed_stays
    | with_reducible apply modSlice_stays
    | with_reducible refine Stays.foldl (fun _ _ _ => ?_) ?_

theorem beginStep_stays {a s : State} (now : Bool) (h : Stays a s) :
    Stays a (beginStep s now) := by
  unfold beginStep
  repeat' first
    | with_reducible assumption
    | with_reducible apply modRed_stays
    | with_reducible apply modRun_stays
    | with_reducible apply modWatch_stays
    | with_reducible apply resetReduction_stays

theorem wClipNorm_stays {a s : State} (r : Req) (h : Stays a s) :
    Stays a (wClipNorm r s).2 := by
  unfold wClipNorm
  repeat' first
    | with_reducible assumption
    | with_reducible apply accept_stays
    | with_reducible apply modRed_stays

theorem wSkipLimit_stays {a s : State} (r : Req) (h : Stays a s) :
    Stays a (wSkipLimit r s).2 := by
  unfold wSkipLimit
  repeat' first
    | with_reducible assumption
    | with_reducible apply accept_stays
    | with_reducible apply modRed_stays

theorem wOrdered_stays {a s : State} (r : Req) (h : Stays a s) :
    Stays a (wOrdered r s).2 := by
  unfold wOrdered
  repeat' first
    | with_reducible assumption
    | split
    | simp only [stays_upd]

theorem wCheckDivisor_stays {a s : State} (r : Req) (h : Stays a s) :
    Stays a (wCheckDivisor r s).2 := by
  unfold wCheckDivisor
  repeat' first
    | with_reducible assumption
    | with_reducible apply accept_stays
    | with_reducible apply modRed_stays

theorem wReduceEpoch_stays {a s : State} (r : Req) (h : Stays a s) :
    Stays a (wReduceEpoch r s).2 := by
  unfold wReduceEpoch
  repeat' first
    | with_reducible assumption
    | with_reducible apply modRed_stays
    | split

theorem wStallLimit_stays {a s : State} (r : Req) (h : Stays a s) :
    Stays a (wStallLimit r s).2 := by
  unfold wStallLimit
  repeat' first
    | with_reducible assumption
    | with_reducible apply accept_stays
    | with_reducible apply modRed_stays

theorem wStepLimit_stays {a s : State} (r : Req) (h : Stays a s) :
    Stays a (wStepLimit r s).2 := by
  unfold wStepLimit
  repeat' first
    | with_reducible assumption
    | with_reducible apply accept_stays
    | with_reducible apply modRed_stays

end Sys2Proof.Machine
end

