-- ==== Sys2Proof/Laws/FramePowerOps.lean ====
section
/-! SUPPORT. Laws/FramePowerOps.lean: the operations of Machine/PowerOps.lean leave the queue of waiting commands alone and keep the commit
record legal. -/

namespace Sys2Proof.Machine

theorem raiseMon_stays {a s : State} (p : Pid) (ev : Ev) (data : Nat) (h : Stays a s) :
    Stays a (raiseMon s p ev data) := by
  unfold raiseMon
  repeat' first
    | with_reducible assumption
    | with_reducible apply raiseSk_stays

theorem setLevel_stays {a s : State} (p : Pid) (l : Nat) (h : Stays a s) :
    Stays a (setLevel s p l) := by
  unfold setLevel
  repeat' first
    | with_reducible assumption
    | with_reducible apply modMon_stays
    | split

theorem settle_stays {a s : State} (p : Pid) (h : Stays a s) :
    Stays a (settle s p) := by
  unfold settle
  repeat' first
    | with_reducible assumption
    | with_reducible apply modMon_stays
    | with_reducible apply setLevel_stays
    | split
    | simp only [stays_upd]

theorem climb_stays {a s : State} (p : Pid) (h : Stays a s) :
    Stays a (climb s p) := by
  unfold climb
  repeat' first
    | with_reducible assumption
    | with_reducible apply modMon_stays
    | with_reducible apply setLevel_stays
    | split
    | simp only [stays_upd]

theorem setCap_stays {a s : State}  (h : Stays a s) :
    Stays a (setCap s) := by
  unfold setCap
  repeat' first
    | with_reducible assumption
    | with_reducible apply modPower_stays
    | with_reducible apply raiseMod_stays
    | split

theorem raiseInput_stays {a s : State} (ev : Ev) (reading : Nat) (h : Stays a s) :
    Stays a (raiseInput s ev reading) := by
  unfold raiseInput
  repeat' first
    | with_reducible assumption
    | with_reducible apply raiseMod_stays

end Sys2Proof.Machine
end

