-- ==== Sys2Proof/Laws/FramePower.lean ====
section
/-! SUPPORT. Laws/FramePower.lean: the operations of Machine/Power.lean leave the queue of waiting commands alone and keep the commit
record legal. -/

namespace Sys2Proof.Machine

theorem restoreRegion_stays {a s : State} (p : Pid) (h : Stays a s) :
    Stays a (restoreRegion s p) := by
  unfold restoreRegion
  repeat' first
    | with_reducible assumption
    | with_reducible apply domainOn_stays
    | with_reducible apply raiseMon_stays
    | intro _

theorem applyMargin_stays {a s : State} (p : Pid) (mhz : Nat) (h : Stays a s) :
    Stays a (applyMargin s p mhz) := by
  unfold applyMargin
  repeat' first
    | with_reducible assumption
    | with_reducible apply appendRecord_stays
    | with_reducible apply modMon_stays
    | with_reducible apply raiseMon_stays
    | with_reducible apply settle_stays
    | (split <;> try (rename_i hq; first
        | refine Stays.cut (Stays.ofPair (a := a) hq ?_) (fun _ => ?_)
        | refine Stays.cut (Stays.ofPair2 (a := a) hq ?_) (fun _ => ?_)
        | refine Stays.cut (Stays.ofPair3 (a := a) hq ?_) (fun _ => ?_)
        | refine Stays.cut (Stays.ofOpt (a := a) hq ?_) (fun _ => ?_)
        | refine Stays.cut (Stays.ofOptSnd (a := a) hq ?_) (fun _ => ?_)))
    | simp only [stays_upd]
    | (lift_lets; intro t; first
        | (refine have ht : Stays a t := ?_; ?_; (unfold t; clear t); clear_value t)
        | (have _ := fun x => t x; unfold t; clear t)
        | clear_value t)
    | intro _

theorem readTemps_stays {a s : State} (temps : List Nat) (h : Stays a s) :
    Stays a (readTemps s temps) := by
  unfold readTemps
  repeat' first
    | with_reducible assumption
    | with_reducible apply modMon_stays
    | with_reducible apply modPower_stays
    | with_reducible refine Stays.foldl (fun _ _ _ => ?_) ?_
    | with_reducible refine Stays.foldlSnd (fun _ _ _ _ => ?_) ?_
    | simp only [stays_upd]
    | (lift_lets; intro t; first
        | (refine have ht : Stays a t := ?_; ?_; (unfold t; clear t); clear_value t)
        | (have _ := fun x => t x; unfold t; clear t)
        | clear_value t)
    | intro _

theorem heatOff_stays {a s : State} (p : Pid) (h : Stays a s) :
    Stays a (heatOff s p) := by
  unfold heatOff
  repeat' first
    | with_reducible assumption
    | with_reducible apply domainOff_stays
    | with_reducible apply modMon_stays
    | with_reducible apply modPower_stays
    | with_reducible apply raiseMon_stays
    | simp only [stays_upd]
    | intro _
    | (extract_lets +onlyGivenNames t; first
        | (refine Stays.cut (a := a) (t := t) ?_ (fun ht => ?_); on_goal 2 => clear_value t; on_goal 1 => (unfold t; clear t))
        | (refine Stays.cut (a := a) (t := t.2) ?_ (fun ht => ?_); on_goal 2 => clear_value t; on_goal 1 => (unfold t; clear t))
        | (refine Stays.cut (a := a) (t := t.2.2) ?_ (fun ht => ?_); on_goal 2 => clear_value t; on_goal 1 => (unfold t; clear t))
        | (have _ : Option State := t; unfold t; clear t)
        | (have _ : Option (_ × State) := t; unfold t; clear t)
        | (have _ := fun x => t x; unfold t; clear t)
        | clear_value t)

theorem throttle_stays {a s : State} (p : Pid) (h : Stays a s) :
    Stays a (throttle s p) := by
  unfold throttle
  repeat' first
    | with_reducible assumption
    | with_reducible apply modMon_stays
    | with_reducible apply raiseMon_stays
    | with_reducible apply settle_stays
    | (split <;> try (rename_i hq; first
        | refine Stays.cut (Stays.ofPair (a := a) hq ?_) (fun _ => ?_)
        | refine Stays.cut (Stays.ofPair2 (a := a) hq ?_) (fun _ => ?_)
        | refine Stays.cut (Stays.ofPair3 (a := a) hq ?_) (fun _ => ?_)
        | refine Stays.cut (Stays.ofOpt (a := a) hq ?_) (fun _ => ?_)
        | refine Stays.cut (Stays.ofOptSnd (a := a) hq ?_) (fun _ => ?_)))
    | simp only [stays_upd]
    | (lift_lets; intro t; first
        | (refine have ht : Stays a t := ?_; ?_; (unfold t; clear t); clear_value t)
        | (have _ := fun x => t x; unfold t; clear t)
        | clear_value t)
    | intro _

theorem dropHeld_stays {a s : State} (p : Pid) (h : Stays a s) :
    Stays a (dropHeld s p) := h

theorem isolateRegion_stays {a s : State} (p : Pid) (cause : Nat) (h : Stays a s) :
    Stays a (isolateRegion s p cause) := by
  unfold isolateRegion
  repeat' first
    | with_reducible assumption
    | with_reducible apply appendRecord_stays
    | with_reducible apply domainOff_stays
    | with_reducible apply dropHeld_stays
    | (split <;> try (rename_i hq; first
        | refine Stays.cut (Stays.ofPair (a := a) hq ?_) (fun _ => ?_)
        | refine Stays.cut (Stays.ofPair2 (a := a) hq ?_) (fun _ => ?_)
        | refine Stays.cut (Stays.ofPair3 (a := a) hq ?_) (fun _ => ?_)
        | refine Stays.cut (Stays.ofOpt (a := a) hq ?_) (fun _ => ?_)
        | refine Stays.cut (Stays.ofOptSnd (a := a) hq ?_) (fun _ => ?_)))
    | simp only [stays_upd]
    | (lift_lets; intro t; first
        | (refine have ht : Stays a t := ?_; ?_; (unfold t; clear t); clear_value t)
        | (have _ := fun x => t x; unfold t; clear t)
        | clear_value t)
    | intro _

theorem wBaseCap_stays {a s : State} (r : Req) (h : Stays a s) :
    Stays a (wBaseCap r s).2 := by
  unfold wBaseCap
  repeat' first
    | with_reducible assumption
    | with_reducible apply accept_stays
    | with_reducible apply modPower_stays
    | simp only [stays_upd]
    | (lift_lets; intro t; first
        | (refine have ht : Stays a t := ?_; ?_; (unfold t; clear t); clear_value t)
        | (have _ := fun x => t x; unfold t; clear t)
        | clear_value t)
    | intro _

theorem wCapProfile_stays {a s : State} (i : Fin 16) (r : Req) (h : Stays a s) :
    Stays a (wCapProfile i r s).2 := by
  unfold wCapProfile
  repeat' first
    | with_reducible assumption
    | with_reducible apply accept_stays
    | with_reducible apply modPower_stays
    | simp only [stays_upd]
    | (lift_lets; intro t; first
        | (refine have ht : Stays a t := ?_; ?_; (unfold t; clear t); clear_value t)
        | (have _ := fun x => t x; unfold t; clear t)
        | clear_value t)
    | intro _

theorem wMaxPoint_stays {a s : State} (r : Req) (h : Stays a s) :
    Stays a (wMaxPoint r s).2 := by
  unfold wMaxPoint
  repeat' first
    | with_reducible assumption
    | with_reducible apply accept_stays
    | with_reducible apply modMon_stays
    | with_reducible apply modPower_stays
    | with_reducible apply settle_stays
    | with_reducible refine Stays.foldl (fun _ _ _ => ?_) ?_
    | with_reducible refine Stays.foldlSnd (fun _ _ _ _ => ?_) ?_
    | simp only [stays_upd]
    | (lift_lets; intro t; first
        | (refine have ht : Stays a t := ?_; ?_; (unfold t; clear t); clear_value t)
        | (have _ := fun x => t x; unfold t; clear t)
        | clear_value t)
    | intro _

theorem wThrottleTemp_stays {a s : State} (r : Req) (h : Stays a s) :
    Stays a (wThrottleTemp r s).2 := by
  unfold wThrottleTemp
  repeat' first
    | with_reducible assumption
    | with_reducible apply accept_stays
    | with_reducible apply modPower_stays
    | simp only [stays_upd]
    | (lift_lets; intro t; first
        | (refine have ht : Stays a t := ?_; ?_; (unfold t; clear t); clear_value t)
        | (have _ := fun x => t x; unfold t; clear t)
        | clear_value t)
    | intro _

theorem wRestoreLimit_stays {a s : State} (r : Req) (h : Stays a s) :
    Stays a (wRestoreLimit r s).2 := by
  unfold wRestoreLimit
  repeat' first
    | with_reducible assumption
    | with_reducible apply accept_stays
    | with_reducible apply modPower_stays
    | simp only [stays_upd]
    | (lift_lets; intro t; first
        | (refine have ht : Stays a t := ?_; ?_; (unfold t; clear t); clear_value t)
        | (have _ := fun x => t x; unfold t; clear t)
        | clear_value t)
    | intro _

end Sys2Proof.Machine
end

