-- ==== Sys2Proof/Laws/FrameRegs.lean ====
section
/-! SUPPORT. Laws/FrameRegs.lean: the operations of Machine/Regs.lean leave the queue of waiting commands alone and keep the commit
record legal. -/

namespace Sys2Proof.Machine

theorem passRefreshes_stays {a s : State} (node unit : Nat) (h : Stays a s) :
    Stays a (passRefreshes s node unit) := by
  unfold passRefreshes
  repeat' first
    | with_reducible assumption
    | with_reducible apply draw_stays
    | with_reducible apply modMc_stays
    | with_reducible apply ueRun_stays
    | (split <;> try (rename_i hq; first
        | refine Stays.cut (Stays.ofPair (a := a) hq ?_) (fun _ => ?_)
        | refine Stays.cut (Stays.ofPair2 (a := a) hq ?_) (fun _ => ?_)
        | refine Stays.cut (Stays.ofPair3 (a := a) hq ?_) (fun _ => ?_)
        | refine Stays.cut (Stays.ofOpt (a := a) hq ?_) (fun _ => ?_)
        | refine Stays.cut (Stays.ofOptSnd (a := a) hq ?_) (fun _ => ?_)))
    | (lift_lets; intro t;
        clear_value t)

theorem tapCtl_stays {a s : State} (p : Pid) (v : Nat) (h : Stays a s) :
    Stays a (tapCtl s p v) := by
  unfold tapCtl
  repeat' first
    | with_reducible assumption
    | with_reducible apply clearActive_stays
    | with_reducible apply clearIdle_stays
    | with_reducible apply tapSwitch_stays
    | split

theorem writeReg_stays {a s : State} (node unit off v : Nat) (h : Stays a s) :
    StaysOptSnd a (writeReg s node unit off v) := by
  unfold writeReg
  split
  · extract_lets p
    split
    · exact staysOptSnd_some (accept_stays _ h (modLd_stays p _ _ h))
    · split
      · exact staysOptSnd_some (accept_stays _ h (modRt_stays _ _ h))
      · split
        · exact staysOptSnd_some (accept_stays _ h (modSk_stays p _ h))
        · split
          · exact staysOptSnd_some (accept_stays _ h (tapCtl_stays p v h))
          · exact staysOptSnd_none
  · extract_lets sl
    split
    · exact staysOptSnd_some (accept_stays _ h (modRt_stays _ _ h))
    · split
      · exact staysOptSnd_some (accept_stays _ h (modUe_stays sl _ h))
      · split
        · refine staysOptSnd_some (accept_stays _ h ?_)
          split
          · exact modUe_stays sl _ h
          · exact h
        · exact staysOptSnd_none

theorem stewardTake_stays {a s : State} (kind : CobaltKind) (src : Nat) (h : Stays a s) :
    StaysOptSnd a (stewardTake s kind src) := by
  unfold stewardTake
  split
  · exact staysOptSnd_none
  · rename_i m rest _
    have h1 : Stays a { s with mesh := { s.mesh with cobalt := rest } } := h
    dsimp only
    split
    · exact staysOptSnd_some (modRt_stays _ _ h1)
    · exact staysOptSnd_some h1

end Sys2Proof.Machine
end

