-- ==== Sys2Proof/Laws/FrameRoutes.lean ====
section
/-! SUPPORT. Laws/FrameRoutes.lean: the operations of Machine/Routes.lean leave the queue of waiting commands alone and keep the commit
record legal. -/

namespace Sys2Proof.Machine

theorem rebuildRoutes_stays {a s : State}  (h : Stays a s) :
    Stays a (rebuildRoutes s) := by
  unfold rebuildRoutes
  repeat' first
    | with_reducible assumption
    | with_reducible apply modRt_stays
    | with_reducible apply raiseMod_stays
    | with_reducible refine Stays.foldl (fun _ _ _ => ?_) ?_
    | with_reducible refine Stays.foldlSnd (fun _ _ _ _ => ?_) ?_
    | split
    | simp only [stays_upd]

end Sys2Proof.Machine
end

