-- ==== Sys2Proof/Laws/FrameWhisk.lean ====
section
/-! SUPPORT. Laws/FrameWhisk.lean: the operations of Machine/Whisk.lean leave the queue of waiting commands alone and keep the commit
record legal. -/

namespace Sys2Proof.Machine

theorem whiskSlots_stays {a s : State} (p : Pid) (d : WhiskDesc) (h : Stays a s) :
    Stays a (whiskSlots s p d) := by
  unfold whiskSlots
  repeat' first
    | with_reducible assumption
    | with_reducible apply releaseOperand_stays
    | with_reducible apply slotCompletion_stays
    | with_reducible refine Stays.foldl (fun _ _ _ => ?_) ?_
    | with_reducible refine Stays.foldlSnd (fun _ _ _ _ => ?_) ?_
    | split

theorem readOperand_stays {a s : State} (p : Pid) (o : Operand) (rows len : Nat) (h : Stays a s) :
    Stays a (readOperand s p o rows len).2.2 := by
  unfold readOperand
  repeat' first
    | with_reducible assumption
    | with_reducible apply readRows_stays
    | split

theorem startWhisk_stays {a s : State} (p : Pid) (x : WhiskOp) (h : Stays a s) :
    Stays a (startWhisk s p x) := by
  unfold startWhisk
  repeat' first
    | with_reducible assumption
    | with_reducible apply draw_stays
    | with_reducible apply modWh_stays
    | with_reducible apply readOperand_stays
    | with_reducible apply readRows_stays
    | with_reducible apply slotProduce_stays
    | with_reducible refine Stays.foldl (fun _ _ _ => ?_) ?_
    | with_reducible refine Stays.foldlSnd (fun _ _ _ _ => ?_) ?_
    | split

theorem tapBins_stays {a s : State} (p : Pid) (xs : List (Nat × Nat)) (h : Stays a s) :
    Stays a (tapBins s p xs) := by
  unfold tapBins
  repeat' first
    | with_reducible assumption
    | with_reducible apply modSk_stays
    | with_reducible apply raiseSk_stays
    | with_reducible refine Stays.foldl (fun _ _ _ => ?_) ?_
    | with_reducible refine Stays.foldlSnd (fun _ _ _ _ => ?_) ?_
    | split
    | simp only [stays_upd]

theorem whiskEnd_stays {a s : State} (p : Pid) (h : Stays a s) :
    Stays a (whiskEnd s p) := by
  unfold whiskEnd
  repeat' first
    | with_reducible assumption
    | with_reducible apply modWh_stays
    | with_reducible apply postCompletion_stays
    | with_reducible apply tapBins_stays
    | with_reducible apply whiskSlots_stays
    | with_reducible apply writeRange_stays
    | with_reducible refine Stays.foldl (fun _ _ _ => ?_) ?_
    | with_reducible refine Stays.foldlSnd (fun _ _ _ _ => ?_) ?_
    | (split <;> try (rename_i hq; first
        | refine Stays.cut (Stays.ofPair (a := a) hq ?_) (fun _ => ?_)
        | refine Stays.cut (Stays.ofPair2 (a := a) hq ?_) (fun _ => ?_)
        | refine Stays.cut (Stays.ofPair3 (a := a) hq ?_) (fun _ => ?_)
        | refine Stays.cut (Stays.ofOpt (a := a) hq ?_) (fun _ => ?_)
        | refine Stays.cut (Stays.ofOptSnd (a := a) hq ?_) (fun _ => ?_)))

end Sys2Proof.Machine
end

