-- ==== Sys2Proof/Laws/FrameRuntime.lean ====
section
/-! SUPPORT. Laws/FrameRuntime.lean: the operations of Machine/Runtime.lean leave the queue of waiting commands alone and keep the commit
record legal. -/

namespace Sys2Proof.Machine

theorem flushGriddle_stays {a s : State} (p : Pid) (g : Fin 4) (h : Stays a s) :
    Stays a (flushGriddle p s g) := by
  unfold flushGriddle
  repeat' first
    | with_reducible assumption
    | with_reducible apply doFlush_stays
    | with_reducible apply drainEnd_stays
    | with_reducible apply emitEnd_stays
    | with_reducible apply modGr_stays
    | with_reducible apply passBoundary_stays
    | with_reducible refine Stays.foldl (fun _ _ _ => ?_) ?_
    | with_reducible refine Stays.foldlSnd (fun _ _ _ _ => ?_) ?_
    | (split <;> try (rename_i hq; first
        | refine Stays.cut (Stays.ofPair (a := a) hq ?_) (fun _ => ?_)
        | refine Stays.cut (Stays.ofPair2 (a := a) hq ?_) (fun _ => ?_)
        | refine Stays.cut (Stays.ofPair3 (a := a) hq ?_) (fun _ => ?_)
        | refine Stays.cut (Stays.ofOpt (a := a) hq ?_) (fun _ => ?_)
        | refine Stays.cut (Stays.ofOptSnd (a := a) hq ?_) (fun _ => ?_)))

theorem clearLadle_stays {a s : State} (p : Pid) (l : Fin 8) (h : Stays a s) :
    Stays a (clearLadle p s l) := by
  unfold clearLadle
  repeat' first
    | with_reducible assumption
    | with_reducible apply modLd_stays
    | with_reducible apply postCompletion_stays
    | with_reducible apply stopLadle_stays
    | with_reducible refine Stays.foldl (fun _ _ _ => ?_) ?_
    | with_reducible refine Stays.foldlSnd (fun _ _ _ _ => ?_) ?_
    | split

theorem resetSlots_stays {a s : State} (p : Pid) (h : Stays a s) :
    Stays a (resetSlots s p) := by
  unfold resetSlots
  repeat' first
    | with_reducible assumption
    | with_reducible apply modPn_stays

theorem clearSkillet_stays {a s : State} (p : Pid) (h : Stays a s) :
    Stays a (clearSkillet s p) := by
  unfold clearSkillet
  repeat' first
    | with_reducible assumption
    | with_reducible apply clearLadle_stays
    | with_reducible apply flushGriddle_stays
    | with_reducible apply haltAll_stays
    | with_reducible apply memopEnd_stays
    | with_reducible apply modPn_stays
    | with_reducible apply modWh_stays
    | with_reducible apply recvCobalt_stays
    | with_reducible apply resetSlots_stays
    | with_reducible apply whiskEnd_stays
    | with_reducible refine Stays.foldl (fun _ _ _ => ?_) ?_

theorem clearAll_stays {a s : State}  (h : Stays a s) :
    Stays a (clearAll s) := by
  unfold clearAll
  repeat' first
    | with_reducible assumption
    | with_reducible apply clearSkillet_stays
    | with_reducible refine Stays.foldl (fun _ _ _ => ?_) ?_

theorem discardStep_stays {a s : State}  (h : Stays a s) :
    Stays a (discardStep s) := by
  unfold discardStep
  repeat' first
    | with_reducible assumption
    | with_reducible apply clearAll_stays
    | with_reducible apply clearLoss_stays
    | with_reducible apply clearTaps_stays
    | with_reducible apply holdMesh_stays
    | with_reducible apply modRun_stays
    | with_reducible apply recvCobalt_stays
    | with_reducible apply resetReduction_stays
    | with_reducible refine Stays.foldl (fun _ _ _ => ?_) ?_

theorem startTable_stays {a s : State} (es : List StartEntry) (h : Stays a s) :
    Stays a (startTable s es) := by
  unfold startTable
  repeat' first
    | with_reducible assumption
    | with_reducible apply recvCobalt_stays
    | with_reducible apply sendReply_stays
    | with_reducible apply startTask_stays
    | with_reducible refine Stays.foldl (fun _ _ _ => ?_) ?_
    | with_reducible refine Stays.foldlSnd (fun _ _ _ _ => ?_) ?_
    | split

theorem startPlan_stays {a s : State}  (h : Stays a s) :
    Stays a (startPlan s) := by
  unfold startPlan
  repeat' first
    | with_reducible assumption
    | with_reducible apply startTable_stays
    | split

theorem runStep_stays {a s : State}  (h : Stays a s) :
    Stays a (runStep s) := by
  unfold runStep
  repeat' first
    | with_reducible assumption
    | with_reducible apply beginStep_stays
    | with_reducible apply startPlan_stays

theorem applyColander_stays {a s : State}  (h : Stays a s) :
    Stays a (applyColander s) := by
  unfold applyColander
  repeat' first
    | with_reducible assumption
    | with_reducible apply applyDue_stays
    | split

theorem enterPaused_stays {a s : State}  (h : Stays a s) :
    Stays a (enterPaused s) := by
  unfold enterPaused
  repeat' first
    | with_reducible assumption
    | with_reducible apply applyColander_stays
    | with_reducible apply changeLife_stays
    | with_reducible apply endCommand_stays
    | with_reducible apply modRun_stays
    | split
    | simp only [stays_upd]

theorem stopNow_stays {a s : State}  (h : Stays a s) :
    Stays a (stopNow s) := by
  unfold stopNow
  repeat' first
    | with_reducible assumption
    | with_reducible apply discardStep_stays
    | with_reducible apply enterPaused_stays
    | with_reducible apply releaseMesh_stays

theorem takeStop_stays {a s : State}  (h : Stays a s) :
    Stays a (takeStop s) := by
  unfold takeStop
  repeat' first
    | with_reducible assumption
    | with_reducible apply stopNow_stays
    | split

end Sys2Proof.Machine
end

