-- ==== Sys2Proof/Laws/FrameTrain.lean ====
section
/-! SUPPORT. Laws/FrameTrain.lean: the operations of Machine/Train.lean leave the queue of waiting commands alone and keep the commit
record legal. -/

namespace Sys2Proof.Machine

theorem capMoved_stays {a s : State}  (h : Stays a s) :
    Stays a (capMoved s) := by
  unfold capMoved
  repeat' first
    | with_reducible assumption
    | with_reducible apply setCap_stays
    | split

theorem boundaryDue_stays {a s : State} (i : Fin 64) (at' : Nat) (h : Stays a s) :
    Stays a (boundaryDue s i at') := by
  unfold boundaryDue
  repeat' first
    | with_reducible assumption
    | with_reducible apply modRun_stays
    | with_reducible apply modSched_stays
    | with_reducible apply raiseMod_stays
    | (extract_lets +onlyGivenNames t; first
        | (refine Stays.cut (a := a) (t := t) ?_ (fun ht => ?_); on_goal 2 => clear_value t; on_goal 1 => (unfold t; clear t))
        | (have _ : Option State := t; unfold t; clear t)
        | (have _ := fun x => t x; unfold t; clear t))
    | split

theorem startEval_stays {a s : State} (num : Nat) (h : Stays a s) :
    Stays a (startEval s num) := by
  unfold startEval
  repeat' first
    | with_reducible assumption
    | with_reducible apply loadImages_stays
    | with_reducible apply modRun_stays
    | with_reducible apply startTable_stays
    | with_reducible refine Stays.foldl (fun _ _ _ => ?_) ?_
    | with_reducible refine Stays.foldlSnd (fun _ _ _ _ => ?_) ?_
    | split

theorem openEval_stays {a s : State} (num : Nat) (h : Stays a s) :
    Stays a (openEval s num) := by
  unfold openEval
  repeat' first
    | with_reducible assumption
    | with_reducible apply modRun_stays
    | with_reducible apply startEval_stays
    | (extract_lets +onlyGivenNames t; first
        | (refine Stays.cut (a := a) (t := t) ?_ (fun ht => ?_); on_goal 2 => clear_value t; on_goal 1 => (unfold t; clear t))
        | (refine Stays.cut (a := a) (t := t.2) ?_ (fun ht => ?_); on_goal 2 => clear_value t; on_goal 1 => (unfold t; clear t))
        | (refine Stays.cut (a := a) (t := t.2.2) ?_ (fun ht => ?_); on_goal 2 => clear_value t; on_goal 1 => (unfold t; clear t))
        | (have _ : Option State := t; unfold t; clear t)
        | (have _ : Option (_ × State) := t; unfold t; clear t)
        | (have _ := fun x => t x; unfold t; clear t)
        | clear_value t)
    | split

theorem evalAfterA_stays {a s : State}  (h : Stays a s) :
    Stays a (evalAfterA s) := by
  unfold evalAfterA
  repeat' first
    | with_reducible assumption
    | with_reducible apply modRun_stays
    | with_reducible apply startEval_stays
    | split

theorem writeLast_stays {a s : State} (out : Outcome) (f : FusedSum) (norm clip : W64) (h : Stays a s) :
    Stays a (writeLast s out f norm clip) := h

theorem raiseOutcome_stays {a s : State} (out : Outcome) (h : Stays a s) :
    Stays a (raiseOutcome s out) := by
  unfold raiseOutcome
  repeat' first
    | with_reducible assumption
    | with_reducible apply raiseMod_stays
    | split

theorem sendAg_stays {a s : State} (sl : Slice) (yRing : Bool) (hop origin j : Nat) (bytes : List Byte) (h : Stays a s) :
    Stays a (sendAg s sl yRing hop origin j bytes) := by
  unfold sendAg
  repeat' first
    | with_reducible assumption
    | with_reducible apply sendBundle_stays

theorem engineRead_stays {b s : State} (sl : Slice) (j a n : Nat) (act : State → List Byte → State) (h : Stays b s)
    (k : ∀ t w, Stays b t → Stays b (act t w)) : Stays b (engineRead s sl j a n act) := by
  unfold engineRead
  split
  · exact h
  · split
    rename_i hq
    have h1 := Stays.ofPair2 hq (planRead_stays a n (modUe_stays sl _ h))
    split
    · exact modUe_stays sl _ h1
    · exact k _ _ h1

theorem sendAgX_stays {a s : State} (sl : Slice) (j : Nat) (h : Stays a s) :
    Stays a (sendAgX s sl j) := by
  unfold sendAgX
  repeat' first
    | with_reducible assumption
    | with_reducible apply engineRead_stays
    | with_reducible apply modRedSl_stays
    | with_reducible apply sendAg_stays
    | simp only [stays_upd]
    | intro _

theorem agPump_stays {a s : State} (sl : Slice) (h : Stays a s) :
    Stays a (agPump s sl) := by
  unfold agPump
  repeat' first
    | with_reducible assumption
    | with_reducible apply sendAgX_stays
    | with_reducible refine Stays.foldl (fun _ _ _ => ?_) ?_
    | with_reducible refine Stays.foldlSnd (fun _ _ _ _ => ?_) ?_
    | split
    | (lift_lets; intro t;
        clear_value t)

theorem agStart_stays {a s : State} (sl : Slice) (h : Stays a s) :
    Stays a (agStart s sl) := by
  unfold agStart
  repeat' first
    | with_reducible assumption
    | with_reducible apply agPump_stays
    | with_reducible apply engineRead_stays
    | with_reducible apply modRedSl_stays
    | with_reducible apply modUe_stays
    | with_reducible apply planWrite_stays
    | with_reducible apply sendAg_stays
    | with_reducible refine Stays.foldl (fun _ _ _ => ?_) ?_
    | with_reducible refine Stays.foldlSnd (fun _ _ _ _ => ?_) ?_
    | split
    | simp only [stays_upd]
    | (lift_lets; intro t; first
        | (refine have ht : Stays a t := ?_; ?_; (unfold t; clear t); clear_value t)
        | (have _ := fun x => t x; unfold t; clear t)
        | clear_value t)
    | intro _

theorem sendBuddy_stays {a s : State} (step : Nat) (sl : Slice) (e : Nat × Nat) (h : Stays a s) :
    Stays a (sendBuddy step sl s e) := by
  unfold sendBuddy
  repeat' first
    | with_reducible assumption
    | with_reducible apply engineRead_stays
    | with_reducible apply sendBundle_stays
    | split
    | intro _

theorem sendBuddyCopy_stays {a s : State} (step : Nat) (h : Stays a s) :
    Stays a (sendBuddyCopy s step) := by
  unfold sendBuddyCopy
  repeat' first
    | with_reducible assumption
    | with_reducible apply sendBuddy_stays
    | with_reducible refine Stays.foldl (fun _ _ _ => ?_) ?_
    | with_reducible refine Stays.foldlSnd (fun _ _ _ _ => ?_) ?_
    | split

theorem evalAbandon_stays {a s : State}  (h : Stays a s) :
    Stays a (evalAbandon s) := by
  unfold evalAbandon
  repeat' first
    | with_reducible assumption
    | with_reducible apply haltAll_stays
    | with_reducible apply modRun_stays
    | with_reducible apply raiseAs_stays
    | with_reducible apply recvCobalt_stays
    | with_reducible refine Stays.foldl (fun _ _ _ => ?_) ?_
    | with_reducible refine Stays.foldlSnd (fun _ _ _ _ => ?_) ?_
    | split
    | simp only [stays_upd]

theorem pauseNow_stays {a s : State}  (h : Stays a s) :
    Stays a (pauseNow s) := by
  unfold pauseNow
  repeat' first
    | with_reducible assumption
    | with_reducible apply enterPaused_stays
    | with_reducible apply stopNow_stays
    | split

theorem finishA_stays {a s : State}  (h : Stays a s) :
    Stays a (finishA s) := by
  unfold finishA
  repeat' first
    | with_reducible assumption
    | with_reducible apply evalAfterA_stays
    | with_reducible apply modRun_stays
    | with_reducible apply modUe_stays
    | with_reducible apply pauseNow_stays
    | with_reducible refine Stays.foldl (fun _ _ _ => ?_) ?_
    | with_reducible refine Stays.foldlSnd (fun _ _ _ _ => ?_) ?_
    | split
    | simp only [stays_upd]

theorem startA_stays {a s : State} (step : Nat) (buddy : Bool) (h : Stays a s) :
    Stays a (startA s step buddy) := by
  unfold startA
  repeat' first
    | with_reducible assumption
    | with_reducible apply agStart_stays
    | with_reducible apply evalAbandon_stays
    | with_reducible apply modRun_stays
    | with_reducible apply noteProgress_stays
    | with_reducible apply sendBuddyCopy_stays
    | with_reducible refine Stays.foldl (fun _ _ _ => ?_) ?_
    | with_reducible refine Stays.foldlSnd (fun _ _ _ _ => ?_) ?_
    | split
    | simp only [stays_upd]

theorem flip_stays {a s : State} (e : Ended) (h : Stays a s) : Stays a (flip s e) := by
  unfold flip
  extract_lets commits s1
  have h1 : Stays a s1 := modRun_stays _ h
  clear_value s1
  split
  · exact stays_commit h1 (fun _ => ⟨Nat.sub_le _ _, Nat.mod_lt _ (by decide)⟩)
  · exact h1

theorem flipWatch_stays {a s : State} (e : Ended) (h : Stays a s) :
    Stays a (flipWatch s e) := by
  unfold flipWatch
  repeat' first
    | with_reducible assumption
    | with_reducible apply localRun_stays
    | with_reducible apply publishScales_stays
    | with_reducible apply raiseMod_stays
    | with_reducible apply scalePoint_stays
    | with_reducible apply stepReport_stays
    | with_reducible refine Stays.foldl (fun _ _ _ => ?_) ?_
    | with_reducible refine Stays.foldlSnd (fun _ _ _ _ => ?_) ?_
    | split

theorem boundaryTaken_stays {a s : State} (at' : Nat) (h : Stays a s) :
    Stays a (boundaryTaken s at') := by
  unfold boundaryTaken
  repeat' first
    | with_reducible assumption
    | with_reducible apply modSched_stays
    | with_reducible apply raiseMod_stays
    | split
    | simp only [stays_upd]

theorem afterFlip_stays {a s : State} (e : Ended) (h : Stays a s) : Stays a (afterFlip s e) := by
  unfold afterFlip
  split
  · extract_lets s1
    have h1 : Stays a s1 := by
      refine startA_stays _ _ ?_
      split
      · exact h
      · exact resetReduction_stays h
    clear_value s1
    split
    · exact finishA_stays h1
    · exact finishA_stays (beginStep_stays _ h1)
  · exact pauseNow_stays (resetReduction_stays (modRun_stays _ h))
  · split
    · exact h
    · split
      · refine pauseNow_stays ?_
        split
        · exact h
        · exact resetReduction_stays h
      · split
        · exact h
        · exact beginStep_stays _ h

end Sys2Proof.Machine
end

