-- ==== Sys2Proof/Laws/FrameRecovery.lean ====
section
/-! SUPPORT. Laws/FrameRecovery.lean: the operations of Machine/Recovery.lean leave the queue of waiting commands alone and keep the commit
record legal. -/

namespace Sys2Proof.Machine

theorem logRecord_stays {a s : State} (r : EventRec) (h : Stays a s) :
    Stays a (logRecord s r) := by
  unfold logRecord
  repeat' first
    | with_reducible assumption
    | with_reducible apply modRecov_stays
    | (split <;> try (rename_i hq; first
        | refine Stays.cut (Stays.ofPair (a := a) hq ?_) (fun _ => ?_)
        | refine Stays.cut (Stays.ofPair2 (a := a) hq ?_) (fun _ => ?_)
        | refine Stays.cut (Stays.ofPair3 (a := a) hq ?_) (fun _ => ?_)
        | refine Stays.cut (Stays.ofOpt (a := a) hq ?_) (fun _ => ?_)
        | refine Stays.cut (Stays.ofOptSnd (a := a) hq ?_) (fun _ => ?_)))
    | simp only [stays_upd]
    | (lift_lets; intro t; first
        | (refine have ht : Stays a t := ?_; ?_; (unfold t; clear t); clear_value t)
        | (have _ := fun x => t x; unfold t; clear t)
        | clear_value t)
    | intro _

theorem rollWindow_stays {a s : State}  (h : Stays a s) :
    Stays a (rollWindow s) := by
  unfold rollWindow
  repeat' first
    | with_reducible assumption
    | with_reducible apply modRecov_stays
    | (split <;> try (rename_i hq; first
        | refine Stays.cut (Stays.ofPair (a := a) hq ?_) (fun _ => ?_)
        | refine Stays.cut (Stays.ofPair2 (a := a) hq ?_) (fun _ => ?_)
        | refine Stays.cut (Stays.ofPair3 (a := a) hq ?_) (fun _ => ?_)
        | refine Stays.cut (Stays.ofOpt (a := a) hq ?_) (fun _ => ?_)
        | refine Stays.cut (Stays.ofOptSnd (a := a) hq ?_) (fun _ => ?_)))
    | (lift_lets; intro t; first
        | (refine have ht : Stays a t := ?_; ?_; (unfold t; clear t); clear_value t)
        | (have _ := fun x => t x; unfold t; clear t)
        | clear_value t)
    | intro _

theorem logLimited_stays {a s : State} (r : EventRec) (h : Stays a s) :
    Stays a (logLimited s r) := by
  unfold logLimited
  repeat' first
    | with_reducible assumption
    | with_reducible apply logRecord_stays
    | with_reducible apply modRecov_stays
    | (split <;> try (rename_i hq; first
        | refine Stays.cut (Stays.ofPair (a := a) hq ?_) (fun _ => ?_)
        | refine Stays.cut (Stays.ofPair2 (a := a) hq ?_) (fun _ => ?_)
        | refine Stays.cut (Stays.ofPair3 (a := a) hq ?_) (fun _ => ?_)
        | refine Stays.cut (Stays.ofOpt (a := a) hq ?_) (fun _ => ?_)
        | refine Stays.cut (Stays.ofOptSnd (a := a) hq ?_) (fun _ => ?_)))
    | simp only [stays_upd]
    | (lift_lets; intro t; first
        | (refine have ht : Stays a t := ?_; ?_; (unfold t; clear t); clear_value t)
        | (have _ := fun x => t x; unfold t; clear t)
        | clear_value t)
    | intro _

theorem loseState_stays {a s : State} (h : Stays a s) : Stays a (loseState s) :=
  raiseMod_stays _ _ (modRecov_stays _ (stays_commit h id))

theorem quarantine_stays {a s : State} (h : Stays a s) : Stays a (quarantine s) := by
  unfold quarantine
  split
  · exact h
  · extract_lets s1 s2 s3 s4 s5 src s6 s7
    have h1 : Stays a s1 := changeLife_stays _ h
    clear_value s1
    have h2 : Stays a s2 := by
      unfold s2
      refine Stays.foldl (fun t n ht => ?_) h1
      split
      · exact ht
      · exact disablePort_stays n ht
    clear_value s2
    have h3 : Stays a s3 := Stays.foldl (fun t b ht => modBay_stays b _ ht) h2
    clear_value s3
    have h6 : Stays a s6 := h3
    clear_value s6
    have h7 : Stays a s7 := by
      unfold s7
      split
      · exact loseState_stays h6
      · exact h6
    clear_value s7
    split
    · exact endCommand_stays _ h7
    · exact h7

theorem stateLost_stays {a s : State}  (h : Stays a s) :
    Stays a (stateLost s) := by
  unfold stateLost
  repeat' first
    | with_reducible assumption
    | with_reducible apply enterPaused_stays
    | with_reducible apply loseState_stays
    | simp only [stays_upd]
    | (lift_lets; intro t; first
        | (refine have ht : Stays a t := ?_; ?_; (unfold t; clear t); clear_value t)
        | (have _ := fun x => t x; unfold t; clear t)
        | clear_value t)
    | intro _

theorem sendRouted_stays {a s : State} (shard : Nat) (c : Content) (h : Stays a s) :
    Stays a (sendRouted s shard c) := by
  unfold sendRouted
  repeat' first
    | with_reducible assumption
    | with_reducible apply sendBundle_stays
    | (extract_lets +onlyGivenNames t; first
        | (refine Stays.cut (a := a) (t := t) ?_ (fun ht => ?_); on_goal 2 => clear_value t; on_goal 1 => (unfold t; clear t))
        | (refine Stays.cut (a := a) (t := t.2) ?_ (fun ht => ?_); on_goal 2 => clear_value t; on_goal 1 => (unfold t; clear t))
        | (refine Stays.cut (a := a) (t := t.2.2) ?_ (fun ht => ?_); on_goal 2 => clear_value t; on_goal 1 => (unfold t; clear t))
        | (have _ : Option State := t; unfold t; clear t)
        | (have _ : Option (_ × State) := t; unfold t; clear t)
        | (have _ := fun x => t x; unfold t; clear t)
        | clear_value t)
    | (split <;> try (rename_i hq; first
        | refine Stays.cut (Stays.ofPair (a := a) hq ?_) (fun _ => ?_)
        | refine Stays.cut (Stays.ofPair2 (a := a) hq ?_) (fun _ => ?_)
        | refine Stays.cut (Stays.ofPair3 (a := a) hq ?_) (fun _ => ?_)
        | refine Stays.cut (Stays.ofOpt (a := a) hq ?_) (fun _ => ?_)
        | refine Stays.cut (Stays.ofOptSnd (a := a) hq ?_) (fun _ => ?_)))
    | intro _

theorem sendRuntime_stays {a s : State} (shard rkind : Nat) (bytes : List Byte) (h : Stays a s) :
    Stays a (sendRuntime s shard rkind bytes) := by
  unfold sendRuntime
  repeat' first
    | with_reducible assumption
    | with_reducible apply sendRouted_stays
    | (lift_lets; intro t; first
        | (refine have ht : Stays a t := ?_; ?_; (unfold t; clear t); clear_value t)
        | (have _ := fun x => t x; unfold t; clear t)
        | clear_value t)
    | intro _

theorem sendRollback_stays {a s : State} (event ploc logical : Nat) (h : Stays a s) :
    Stays a (sendRollback s event ploc logical) := by
  unfold sendRollback
  repeat' first
    | with_reducible assumption
    | with_reducible apply sendRuntime_stays
    | with_reducible refine Stays.foldl (fun _ _ _ => ?_) ?_
    | with_reducible refine Stays.foldlSnd (fun _ _ _ _ => ?_) ?_
    | intro _

theorem keepState_stays {a s : State} (k : Nat) (x : RecState) (h : Stays a s) :
    Stays a (keepState s k x) := by
  unfold keepState
  repeat' first
    | with_reducible assumption
    | with_reducible apply modRecov_stays
    | (split <;> try (rename_i hq; first
        | refine Stays.cut (Stays.ofPair (a := a) hq ?_) (fun _ => ?_)
        | refine Stays.cut (Stays.ofPair2 (a := a) hq ?_) (fun _ => ?_)
        | refine Stays.cut (Stays.ofPair3 (a := a) hq ?_) (fun _ => ?_)
        | refine Stays.cut (Stays.ofOpt (a := a) hq ?_) (fun _ => ?_)
        | refine Stays.cut (Stays.ofOptSnd (a := a) hq ?_) (fun _ => ?_)))
    | simp only [stays_upd]
    | (lift_lets; intro t; first
        | (refine have ht : Stays a t := ?_; ?_; (unfold t; clear t); clear_value t)
        | (have _ := fun x => t x; unfold t; clear t)
        | clear_value t)
    | intro _

theorem sendState_stays {a s : State}  (h : Stays a s) :
    Stays a (sendState s) := by
  unfold sendState
  repeat' first
    | with_reducible assumption
    | with_reducible apply keepState_stays
    | with_reducible apply sendRuntime_stays
    | with_reducible refine Stays.foldl (fun _ _ _ => ?_) ?_
    | with_reducible refine Stays.foldlSnd (fun _ _ _ _ => ?_) ?_
    | (lift_lets; intro t; first
        | (refine have ht : Stays a t := ?_; ?_; (unfold t; clear t); clear_value t)
        | (have _ := fun x => t x; unfold t; clear t)
        | clear_value t)
    | intro _

theorem enterRecovering_stays {a s : State} (n event coord : Nat) (h : Stays a s) :
    Stays a (enterRecovering s n event coord) := by
  unfold enterRecovering
  repeat' first
    | with_reducible assumption
    | with_reducible apply changeLife_stays
    | with_reducible apply modRecov_stays
    | with_reducible apply raiseMod_stays
    | (split <;> try (rename_i hq; first
        | refine Stays.cut (Stays.ofPair (a := a) hq ?_) (fun _ => ?_)
        | refine Stays.cut (Stays.ofPair2 (a := a) hq ?_) (fun _ => ?_)
        | refine Stays.cut (Stays.ofPair3 (a := a) hq ?_) (fun _ => ?_)
        | refine Stays.cut (Stays.ofOpt (a := a) hq ?_) (fun _ => ?_)
        | refine Stays.cut (Stays.ofOptSnd (a := a) hq ?_) (fun _ => ?_)))
    | simp only [stays_upd]
    | (lift_lets; intro t; first
        | (refine have ht : Stays a t := ?_; ?_; (unfold t; clear t); clear_value t)
        | (have _ := fun x => t x; unfold t; clear t)
        | clear_value t)
    | intro _

theorem abandonStep_stays {a s : State}  (h : Stays a s) :
    Stays a (abandonStep s) := by
  unfold abandonStep
  repeat' first
    | with_reducible assumption
    | with_reducible apply discardStep_stays
    | with_reducible apply modRun_stays
    | with_reducible apply modUe_stays
    | with_reducible refine Stays.foldl (fun _ _ _ => ?_) ?_
    | with_reducible refine Stays.foldlSnd (fun _ _ _ _ => ?_) ?_
    | simp only [stays_upd]
    | (lift_lets; intro t; first
        | (refine have ht : Stays a t := ?_; ?_; (unfold t; clear t); clear_value t)
        | (have _ := fun x => t x; unfold t; clear t)
        | clear_value t)
    | intro _

theorem startRecovery_stays {a s : State} (n event coord ploc logical : Nat) (send : Bool) (h : Stays a s) :
    Stays a (startRecovery s n event coord ploc logical send) := by
  unfold startRecovery
  repeat' first
    | with_reducible assumption
    | with_reducible apply abandonStep_stays
    | with_reducible apply applyColander_stays
    | with_reducible apply applyRepairs_stays
    | with_reducible apply enterRecovering_stays
    | with_reducible apply modRed_stays
    | with_reducible apply noteProgress_stays
    | with_reducible apply rebuildRoutes_stays
    | with_reducible apply releaseMesh_stays
    | with_reducible apply sendRollback_stays
    | with_reducible apply sendState_stays
    | (split <;> try (rename_i hq; first
        | refine Stays.cut (Stays.ofPair (a := a) hq ?_) (fun _ => ?_)
        | refine Stays.cut (Stays.ofPair2 (a := a) hq ?_) (fun _ => ?_)
        | refine Stays.cut (Stays.ofPair3 (a := a) hq ?_) (fun _ => ?_)
        | refine Stays.cut (Stays.ofOpt (a := a) hq ?_) (fun _ => ?_)
        | refine Stays.cut (Stays.ofOptSnd (a := a) hq ?_) (fun _ => ?_)))
    | simp only [stays_upd]
    | (lift_lets; intro t; first
        | (refine have ht : Stays a t := ?_; ?_; (unfold t; clear t); clear_value t)
        | (have _ := fun x => t x; unfold t; clear t)
        | clear_value t)
    | intro _

theorem containedFault_stays {a s : State} (r : EventRec) (h : Stays a s) :
    Stays a (containedFault s r) := by
  unfold containedFault
  repeat' first
    | with_reducible assumption
    | with_reducible apply startRecovery_stays
    | (split <;> try (rename_i hq; first
        | refine Stays.cut (Stays.ofPair (a := a) hq ?_) (fun _ => ?_)
        | refine Stays.cut (Stays.ofPair2 (a := a) hq ?_) (fun _ => ?_)
        | refine Stays.cut (Stays.ofPair3 (a := a) hq ?_) (fun _ => ?_)
        | refine Stays.cut (Stays.ofOpt (a := a) hq ?_) (fun _ => ?_)
        | refine Stays.cut (Stays.ofOptSnd (a := a) hq ?_) (fun _ => ?_)))
    | intro _

theorem handleRecord_stays {a s : State} (r : EventRec) (h : Stays a s) :
    Stays a (handleRecord s r) := by
  unfold handleRecord
  repeat' first
    | with_reducible assumption
    | with_reducible apply containedFault_stays
    | with_reducible apply logLimited_stays
    | with_reducible apply logRecord_stays
    | with_reducible apply modRecov_stays
    | with_reducible apply quarantine_stays
    | with_reducible apply rollWindow_stays
    | (split <;> try (rename_i hq; first
        | refine Stays.cut (Stays.ofPair (a := a) hq ?_) (fun _ => ?_)
        | refine Stays.cut (Stays.ofPair2 (a := a) hq ?_) (fun _ => ?_)
        | refine Stays.cut (Stays.ofPair3 (a := a) hq ?_) (fun _ => ?_)
        | refine Stays.cut (Stays.ofOpt (a := a) hq ?_) (fun _ => ?_)
        | refine Stays.cut (Stays.ofOptSnd (a := a) hq ?_) (fun _ => ?_)))
    | simp only [stays_upd]
    | (lift_lets; intro t; first
        | (refine have ht : Stays a t := ?_; ?_; (unfold t; clear t); clear_value t)
        | (have _ := fun x => t x; unfold t; clear t)
        | clear_value t)
    | intro _

theorem wAlertAck_stays {a s : State} (r : Req) (h : Stays a s) :
    Stays a (wAlertAck r s).2 := by
  unfold wAlertAck
  repeat' first
    | with_reducible assumption
    | with_reducible apply modRecov_stays
    | (split <;> try (rename_i hq; first
        | refine Stays.cut (Stays.ofPair (a := a) hq ?_) (fun _ => ?_)
        | refine Stays.cut (Stays.ofPair2 (a := a) hq ?_) (fun _ => ?_)
        | refine Stays.cut (Stays.ofPair3 (a := a) hq ?_) (fun _ => ?_)
        | refine Stays.cut (Stays.ofOpt (a := a) hq ?_) (fun _ => ?_)
        | refine Stays.cut (Stays.ofOptSnd (a := a) hq ?_) (fun _ => ?_)))
    | simp only [stays_upd]
    | (lift_lets; intro t; first
        | (refine have ht : Stays a t := ?_; ?_; (unfold t; clear t); clear_value t)
        | (have _ := fun x => t x; unfold t; clear t)
        | clear_value t)
    | intro _

theorem wRollbackLimit_stays {a s : State} (r : Req) (h : Stays a s) :
    Stays a (wRollbackLimit r s).2 := by
  unfold wRollbackLimit
  repeat' first
    | with_reducible assumption
    | with_reducible apply accept_stays
    | with_reducible apply modRecov_stays
    | simp only [stays_upd]
    | (lift_lets; intro t; first
        | (refine have ht : Stays a t := ?_; ?_; (unfold t; clear t); clear_value t)
        | (have _ := fun x => t x; unfold t; clear t)
        | clear_value t)
    | intro _

theorem planBytes_stays {a₀ s : State} (a n : Nat) (h : Stays a₀ s) :
    Stays a₀ (planBytes s a n).2 := by
  unfold planBytes
  repeat' first
    | with_reducible assumption
    | with_reducible apply planRead_stays
    | with_reducible refine Stays.foldl (fun _ _ _ => ?_) ?_
    | with_reducible refine Stays.foldlSnd (fun _ _ _ _ => ?_) ?_
    | (split <;> try (rename_i hq; first
        | refine Stays.cut (Stays.ofPair (a := a₀) hq ?_) (fun _ => ?_)
        | refine Stays.cut (Stays.ofPair2 (a := a₀) hq ?_) (fun _ => ?_)
        | refine Stays.cut (Stays.ofPair3 (a := a₀) hq ?_) (fun _ => ?_)
        | refine Stays.cut (Stays.ofOpt (a := a₀) hq ?_) (fun _ => ?_)
        | refine Stays.cut (Stays.ofOptSnd (a := a₀) hq ?_) (fun _ => ?_)))
    | (lift_lets; intro t; first
        | (refine have ht : Stays a₀ t := ?_; ?_; (unfold t; clear t); clear_value t)
        | (have _ := fun x => t x; unfold t; clear t)
        | clear_value t)
    | intro _

theorem sendRestore_stays {a s : State} (shard src dst len entry : Nat) (h : Stays a s) :
    Stays a (sendRestore s shard src dst len entry) := by
  unfold sendRestore
  repeat' first
    | with_reducible assumption
    | with_reducible apply planBytes_stays
    | with_reducible apply sendRouted_stays
    | with_reducible refine Stays.foldl (fun _ _ _ => ?_) ?_
    | with_reducible refine Stays.foldlSnd (fun _ _ _ _ => ?_) ?_
    | (split <;> try (rename_i hq; first
        | refine Stays.cut (Stays.ofPair (a := a) hq ?_) (fun _ => ?_)
        | refine Stays.cut (Stays.ofPair2 (a := a) hq ?_) (fun _ => ?_)
        | refine Stays.cut (Stays.ofPair3 (a := a) hq ?_) (fun _ => ?_)
        | refine Stays.cut (Stays.ofOpt (a := a) hq ?_) (fun _ => ?_)
        | refine Stays.cut (Stays.ofOptSnd (a := a) hq ?_) (fun _ => ?_)))
    | (lift_lets; intro t; first
        | (refine have ht : Stays a t := ?_; ?_; (unfold t; clear t); clear_value t)
        | (have _ := fun x => t x; unfold t; clear t)
        | clear_value t)
    | intro _

theorem sendSlotA_stays {a s : State} (k : Nat) (h : Stays a s) :
    Stays a (sendSlotA s k) := by
  unfold sendSlotA
  repeat' first
    | with_reducible assumption
    | with_reducible apply sendRestore_stays
    | (lift_lets; intro t; first
        | (refine have ht : Stays a t := ?_; ?_; (unfold t; clear t); clear_value t)
        | (have _ := fun x => t x; unfold t; clear t)
        | clear_value t)
    | intro _

theorem requestRange_stays {a₀ s : State} (a len entry : Nat) (h : Stays a₀ s) :
    Stays a₀ (requestRange s a len entry) := by
  unfold requestRange
  repeat' first
    | with_reducible assumption
    | with_reducible apply modRecov_stays
    | with_reducible apply sendRuntime_stays
    | simp only [stays_upd]
    | (lift_lets; intro t; first
        | (refine have ht : Stays a₀ t := ?_; ?_; (unfold t; clear t); clear_value t)
        | (have _ := fun x => t x; unfold t; clear t)
        | clear_value t)
    | intro _

theorem requestTeachers_stays {a s : State}  (h : Stays a s) :
    Stays a (requestTeachers s) := by
  unfold requestTeachers
  repeat' first
    | with_reducible assumption
    | with_reducible apply requestRange_stays
    | with_reducible refine Stays.foldl (fun _ _ _ => ?_) ?_
    | with_reducible refine Stays.foldlSnd (fun _ _ _ _ => ?_) ?_
    | (split <;> try (rename_i hq; first
        | refine Stays.cut (Stays.ofPair (a := a) hq ?_) (fun _ => ?_)
        | refine Stays.cut (Stays.ofPair2 (a := a) hq ?_) (fun _ => ?_)
        | refine Stays.cut (Stays.ofPair3 (a := a) hq ?_) (fun _ => ?_)
        | refine Stays.cut (Stays.ofOpt (a := a) hq ?_) (fun _ => ?_)
        | refine Stays.cut (Stays.ofOptSnd (a := a) hq ?_) (fun _ => ?_)))
    | intro _

theorem spareBegins_stays {a s : State}  (h : Stays a s) :
    Stays a (spareBegins s) := by
  unfold spareBegins
  repeat' first
    | with_reducible assumption
    | with_reducible apply modRecov_stays
    | with_reducible apply raiseMod_stays
    | (split <;> try (rename_i hq; first
        | refine Stays.cut (Stays.ofPair (a := a) hq ?_) (fun _ => ?_)
        | refine Stays.cut (Stays.ofPair2 (a := a) hq ?_) (fun _ => ?_)
        | refine Stays.cut (Stays.ofPair3 (a := a) hq ?_) (fun _ => ?_)
        | refine Stays.cut (Stays.ofOpt (a := a) hq ?_) (fun _ => ?_)
        | refine Stays.cut (Stays.ofOptSnd (a := a) hq ?_) (fun _ => ?_)))
    | simp only [stays_upd]
    | (lift_lets; intro t; first
        | (refine have ht : Stays a t := ?_; ?_; (unfold t; clear t); clear_value t)
        | (have _ := fun x => t x; unfold t; clear t)
        | clear_value t)
    | intro _

theorem beginStep6_stays {a s : State}  (h : Stays a s) :
    Stays a (beginStep6 s) := by
  unfold beginStep6
  repeat' first
    | with_reducible assumption
    | with_reducible apply beginStep_stays
    | with_reducible apply changeLife_stays
    | with_reducible apply finishA_stays
    | with_reducible apply modRecov_stays
    | with_reducible apply raiseMod_stays
    | with_reducible apply spareBegins_stays
    | with_reducible apply startA_stays
    | with_reducible apply startPlan_stays
    | (split <;> try (rename_i hq; first
        | refine Stays.cut (Stays.ofPair (a := a) hq ?_) (fun _ => ?_)
        | refine Stays.cut (Stays.ofPair2 (a := a) hq ?_) (fun _ => ?_)
        | refine Stays.cut (Stays.ofPair3 (a := a) hq ?_) (fun _ => ?_)
        | refine Stays.cut (Stays.ofOpt (a := a) hq ?_) (fun _ => ?_)
        | refine Stays.cut (Stays.ofOptSnd (a := a) hq ?_) (fun _ => ?_)))
    | simp only [stays_upd]
    | (lift_lets; intro t; first
        | (refine have ht : Stays a t := ?_; ?_; (unfold t; clear t); clear_value t)
        | (have _ := fun x => t x; unfold t; clear t)
        | clear_value t)
    | intro _

theorem checkLoop_stays {a s : State}  (h : Stays a s) :
    Stays a (checkLoop s) := by
  unfold checkLoop
  repeat' first
    | with_reducible assumption
    | with_reducible apply enterPaused_stays
    | with_reducible apply raiseMod_stays
    | (split <;> try (rename_i hq; first
        | refine Stays.cut (Stays.ofPair (a := a) hq ?_) (fun _ => ?_)
        | refine Stays.cut (Stays.ofPair2 (a := a) hq ?_) (fun _ => ?_)
        | refine Stays.cut (Stays.ofPair3 (a := a) hq ?_) (fun _ => ?_)
        | refine Stays.cut (Stays.ofOpt (a := a) hq ?_) (fun _ => ?_)
        | refine Stays.cut (Stays.ofOptSnd (a := a) hq ?_) (fun _ => ?_)))
    | simp only [stays_upd]
    | (lift_lets; intro t; first
        | (refine have ht : Stays a t := ?_; ?_; (unfold t; clear t); clear_value t)
        | (have _ := fun x => t x; unfold t; clear t)
        | clear_value t)
    | intro _

theorem revertStep_stays {a s : State} (h : Stays a s) : Stays a (revertStep s) := by
  unfold revertStep
  extract_lets step src s1 s2 s3
  have h1 : Stays a s1 := stays_commit h (fun _ => ⟨Nat.sub_le _ _, Nat.mod_lt _ (by decide)⟩)
  clear_value s1
  have h2 : Stays a s2 := by
    unfold s2
    split
    · exact h1
    · exact modWatch_stays _ (modRun_stays _ h1)
  clear_value s2
  exact raiseMod_stays _ _ (modRecov_stays _ (publishScales_stays h2))

theorem spareScale_stays {a s : State} (e : Nat × WatchEntry) (h : Stays a s) :
    Stays a (spareScale s e) := h

theorem adoptStep_stays {a s : State} (c : Nat) (h : Stays a s) : Stays a (adoptStep s c) := by
  unfold adoptStep
  split
  rename_i ha
  have h1 := Stays.ofPair ha (draw_stays h)
  split
  rename_i hb
  have h2 := Stays.ofPair hb (draw_stays h1)
  extract_lets s1 s2 s3
  have hs1 : Stays a s1 :=
    stays_commit h2 (fun _ => ⟨Nat.le_of_lt_succ (Nat.mod_lt _ (by decide)), Nat.mod_lt _ (by decide)⟩)
  exact modRecov_stays _ (Stays.foldl (fun t x ht => spareScale_stays _ ht) (modRun_stays _ hs1))

theorem applyRule_stays {a s : State} (c : Nat) (h : Stays a s) :
    Stays a (applyRule s c) := by
  unfold applyRule
  repeat' first
    | with_reducible assumption
    | with_reducible apply adoptStep_stays
    | with_reducible apply checkLoop_stays
    | with_reducible apply modRecov_stays
    | with_reducible apply requestTeachers_stays
    | with_reducible apply revertStep_stays
    | with_reducible apply sendCopy_stays
    | with_reducible apply sendSlotA_stays
    | with_reducible refine Stays.foldl (fun _ _ _ => ?_) ?_
    | with_reducible refine Stays.foldlSnd (fun _ _ _ _ => ?_) ?_
    | (split <;> try (rename_i hq; first
        | refine Stays.cut (Stays.ofPair (a := a) hq ?_) (fun _ => ?_)
        | refine Stays.cut (Stays.ofPair2 (a := a) hq ?_) (fun _ => ?_)
        | refine Stays.cut (Stays.ofPair3 (a := a) hq ?_) (fun _ => ?_)
        | refine Stays.cut (Stays.ofOpt (a := a) hq ?_) (fun _ => ?_)
        | refine Stays.cut (Stays.ofOptSnd (a := a) hq ?_) (fun _ => ?_)))
    | simp only [stays_upd]
    | (lift_lets; intro t; first
        | (refine have ht : Stays a t := ?_; ?_; (unfold t; clear t); clear_value t)
        | (have _ := fun x => t x; unfold t; clear t)
        | clear_value t)
    | intro _

end Sys2Proof.Machine
end

