-- ==== Sys2Proof/Laws/FrameSecurity.lean ====
section
/-! SUPPORT. Laws/FrameSecurity.lean: the operations of Machine/Security.lean leave the queue of waiting commands alone and keep the commit
record legal. -/

namespace Sys2Proof.Machine

theorem extendM_stays {a s : State} (i : Fin 8) (what : List Byte) (h : Stays a s) :
    Stays a (extendM s i what) := h

theorem rejectImage_stays {a s : State} (kind status : Nat) (h : Stays a s) :
    Stays a (rejectImage s kind status) := by
  unfold rejectImage
  repeat' first
    | with_reducible assumption
    | with_reducible apply raiseMod_stays

theorem raiseBank_stays {a s : State} (b : Fin 2) (h : Stays a s) :
    Stays a (raiseBank s b) := by
  unfold raiseBank
  repeat' first
    | with_reducible assumption
    | with_reducible apply rejectImage_stays
    | with_reducible refine Stays.foldl (fun _ _ _ => ?_) ?_
    | with_reducible refine Stays.foldlSnd (fun _ _ _ _ => ?_) ?_
    | split

theorem tryTrial_stays {a s : State} (fuel : Nat) (h : Stays a s) : Stays a (tryTrial fuel s).2 := by
  induction fuel generalizing s with
  | zero => exact h
  | succ fuel ih =>
    unfold tryTrial
    split
    · exact h
    · extract_lets b s1
      have h1 : Stays a s1 := modSec_stays _ h
      split
      · exact h1
      · exact ih (raiseBank_stays b h1)

theorem chooseBank_stays {a s : State}  (h : Stays a s) :
    Stays a (chooseBank s).2 := by
  unfold chooseBank
  repeat' first
    | with_reducible assumption
    | with_reducible apply modSec_stays
    | with_reducible apply raiseBank_stays
    | with_reducible apply raiseMod_stays
    | with_reducible apply tryTrial_stays
    | (split <;> try (rename_i hq; first
        | refine Stays.cut (Stays.ofPair (a := a) hq ?_) (fun _ => ?_)
        | refine Stays.cut (Stays.ofPair2 (a := a) hq ?_) (fun _ => ?_)
        | refine Stays.cut (Stays.ofPair3 (a := a) hq ?_) (fun _ => ?_)
        | refine Stays.cut (Stays.ofOpt (a := a) hq ?_) (fun _ => ?_)
        | refine Stays.cut (Stays.ofOptSnd (a := a) hq ?_) (fun _ => ?_)))
    | simp only [stays_upd]

theorem haltBoot_stays {a s : State} (code : Nat) (h : Stays a s) :
    Stays a (haltBoot s code) := h

theorem takeStaged_stays {a s : State}  (h : Stays a s) :
    Stays a (takeStaged s) := by
  unfold takeStaged
  repeat' first
    | with_reducible assumption
    | with_reducible apply modSec_stays
    | split
    | simp only [stays_upd]

theorem bootConfig_stays {a s : State}  (h : Stays a s) :
    Stays a (bootConfig s) := by
  unfold bootConfig
  repeat' first
    | with_reducible assumption
    | with_reducible apply extendM_stays
    | with_reducible apply modSec_stays
    | with_reducible apply raiseMod_stays
    | with_reducible apply rejectImage_stays
    | split
    | simp only [stays_upd]

theorem guardDefaultsIn_stays {a s : State}  (h : Stays a s) :
    Stays a (guardDefaultsIn s) := by
  unfold guardDefaultsIn
  repeat' first
    | with_reducible assumption
    | with_reducible apply extendM_stays
    | with_reducible apply modSec_stays
    | with_reducible apply raiseMod_stays
    | simp only [stays_upd]

theorem bootGuard_stays {a s : State}  (h : Stays a s) :
    Stays a (bootGuard s) := by
  unfold bootGuard
  repeat' first
    | with_reducible assumption
    | with_reducible apply extendM_stays
    | with_reducible apply guardDefaultsIn_stays
    | with_reducible apply modSec_stays
    | with_reducible apply rejectImage_stays
    | split
    | simp only [stays_upd]

theorem measureBank_stays {a s : State} (b : Fin 2) (kinds : List Nat) (h : Stays a s) :
    Stays a (measureBank s b kinds) := by
  unfold measureBank
  repeat' first
    | with_reducible assumption
    | with_reducible apply extendM_stays
    | with_reducible refine Stays.foldl (fun _ _ _ => ?_) ?_
    | with_reducible refine Stays.foldlSnd (fun _ _ _ _ => ?_) ?_
    | split

theorem bootChain_stays {a s : State}  (h : Stays a s) :
    Stays a (bootChain s) := by
  unfold bootChain
  repeat' first
    | with_reducible assumption
    | with_reducible apply bootConfig_stays
    | with_reducible apply bootGuard_stays
    | with_reducible apply chooseBank_stays
    | with_reducible apply haltBoot_stays
    | with_reducible apply measureBank_stays
    | with_reducible apply modSec_stays
    | with_reducible apply takeStaged_stays
    | (split <;> try (rename_i hq; first
        | refine Stays.cut (Stays.ofPair (a := a) hq ?_) (fun _ => ?_)
        | refine Stays.cut (Stays.ofPair2 (a := a) hq ?_) (fun _ => ?_)
        | refine Stays.cut (Stays.ofPair3 (a := a) hq ?_) (fun _ => ?_)
        | refine Stays.cut (Stays.ofOpt (a := a) hq ?_) (fun _ => ?_)
        | refine Stays.cut (Stays.ofOptSnd (a := a) hq ?_) (fun _ => ?_)))
    | simp only [stays_upd]

theorem commitTrial_stays {a s : State}  (h : Stays a s) :
    Stays a (commitTrial s) := by
  unfold commitTrial
  repeat' first
    | with_reducible assumption
    | with_reducible apply modSec_stays
    | with_reducible apply raiseMod_stays
    | with_reducible refine Stays.foldl (fun _ _ _ => ?_) ?_
    | with_reducible refine Stays.foldlSnd (fun _ _ _ _ => ?_) ?_
    | split

theorem wUpdateOffset_stays {a s : State} (r : Req) (h : Stays a s) :
    Stays a (wUpdateOffset r s).2 := by
  unfold wUpdateOffset
  repeat' first
    | with_reducible assumption
    | with_reducible apply State.modSession_stays
    | with_reducible apply accept_stays

theorem wUpdateData_stays {a s : State} (r : Req) (h : Stays a s) :
    Stays a (wUpdateData r s).2 := by
  unfold wUpdateData
  repeat' first
    | with_reducible assumption
    | with_reducible apply State.modSession_stays
    | with_reducible apply modSec_stays
    | split
    | simp only [stays_upd]

theorem stageBundle_stays {a s : State} (ims : List Image) (h : Stays a s) :
    Stays a (stageBundle s ims) := by
  unfold stageBundle
  repeat' first
    | with_reducible assumption
    | with_reducible apply modSec_stays
    | with_reducible refine Stays.foldl (fun _ _ _ => ?_) ?_
    | with_reducible refine Stays.foldlSnd (fun _ _ _ _ => ?_) ?_
    | split
    | simp only [stays_upd]

theorem wUpdateCommand_stays {a s : State} (r : Req) (h : Stays a s) :
    Stays a (wUpdateCommand r s).2 := by
  unfold wUpdateCommand
  repeat' first
    | with_reducible assumption
    | with_reducible apply modSec_stays
    | split

theorem wOwnerKey_stays {a s : State} (r : Req) (h : Stays a s) :
    Stays a (wOwnerKey r s).2 := by
  unfold wOwnerKey
  repeat' first
    | with_reducible assumption
    | with_reducible apply modSec_stays
    | with_reducible apply raiseMod_stays
    | split
    | simp only [stays_upd]

theorem wNonce_stays {a s : State} (r : Req) (h : Stays a s) :
    Stays a (wNonce r s).2 := by
  unfold wNonce
  repeat' first
    | with_reducible assumption
    | with_reducible apply State.modSession_stays

end Sys2Proof.Machine
end

