-- ==== Sys2Proof/Laws/FrameColander.lean ====
section
/-! SUPPORT. Laws/FrameColander.lean: the operations of Machine/Colander.lean leave the queue of waiting commands alone and keep the commit
record legal. -/

namespace Sys2Proof.Machine

theorem replayColander_stays {a s : State}  (h : Stays a s) :
    Stays a (replayColander s) := by
  unfold replayColander
  repeat' first
    | with_reducible assumption
    | with_reducible apply raiseMod_stays
    | with_reducible apply takeEffect_stays
    | with_reducible refine Stays.foldl (fun _ _ _ => ?_) ?_
    | with_reducible refine Stays.foldlSnd (fun _ _ _ _ => ?_) ?_
    | split
    | simp only [stays_upd]

theorem selfRecord_stays {a₀ s : State} (kind : Nat) (p : Pid) (a b cause : Nat) (h : Stays a₀ s) :
    Stays a₀ (selfRecord s kind p a b cause) := by
  unfold selfRecord
  repeat' first
    | with_reducible assumption
    | with_reducible apply journalAdd_stays
    | with_reducible apply takeEffect_stays

theorem selfDefect_stays {a s : State} (cause : Nat) (d : Defect) (h : Stays a s) :
    Stays a (selfDefect cause s d) := by
  unfold selfDefect
  repeat' first
    | with_reducible assumption
    | with_reducible apply selfRecord_stays
    | (extract_lets +onlyGivenNames t;
        clear_value t)
    | split

theorem selfJudge_stays {a s : State} (cause : Nat) (p : Pid) (h : Stays a s) :
    Stays a (selfJudge cause s p) := by
  unfold selfJudge
  repeat' first
    | with_reducible assumption
    | with_reducible apply selfRecord_stays
    | split
    | (lift_lets; intro t;
        clear_value t)

theorem selfMargin_stays {a s : State} (x : Pid × Nat) (h : Stays a s) :
    Stays a (selfMargin s x) := by
  unfold selfMargin
  repeat' first
    | with_reducible assumption
    | with_reducible apply modMon_stays
    | with_reducible apply raiseMon_stays
    | with_reducible apply selfRecord_stays
    | split
    | simp only [stays_upd]

theorem selfStack_stays {a s : State} (x : Slice × Nat) (h : Stays a s) :
    Stays a (selfStack s x) := by
  unfold selfStack
  repeat' first
    | with_reducible assumption
    | with_reducible apply modMc_stays
    | with_reducible apply raiseMc_stays

theorem selfPower_stays {a s : State} (p : Pid) (h : Stays a s) :
    Stays a (selfPower s p) := by
  unfold selfPower
  repeat' first
    | with_reducible assumption
    | with_reducible apply domainOff_stays
    | with_reducible apply domainOn_stays
    | with_reducible apply modMon_stays
    | (extract_lets +onlyGivenNames t; first
        | (refine Stays.cut (a := a) (t := t) ?_ (fun ht => ?_); on_goal 2 => clear_value t; on_goal 1 => (unfold t; clear t))
        | (refine Stays.cut (a := a) (t := t.2) ?_ (fun ht => ?_); on_goal 2 => clear_value t; on_goal 1 => (unfold t; clear t))
        | (refine Stays.cut (a := a) (t := t.2.2) ?_ (fun ht => ?_); on_goal 2 => clear_value t; on_goal 1 => (unfold t; clear t))
        | (have _ : Option State := t; unfold t; clear t)
        | (have _ : Option (_ × State) := t; unfold t; clear t)
        | (have _ := fun x => t x; unfold t; clear t)
        | clear_value t)
    | split

theorem selfLink_stays {a s : State} (x : Pid × Nat) (h : Stays a s) :
    Stays a (selfLink s x) := h

theorem selfTested_stays {a s : State} (t : SelfTest) (h : Stays a s) :
    Stays a (selfTested t s) := by
  unfold selfTested
  repeat' first
    | with_reducible assumption
    | with_reducible apply applyRepairs_stays
    | with_reducible apply draw_stays
    | with_reducible apply modMc_stays
    | with_reducible apply rebuildRoutes_stays
    | with_reducible apply relocateAll_stays
    | with_reducible apply replayColander_stays
    | with_reducible apply selfDefect_stays
    | with_reducible apply selfJudge_stays
    | with_reducible apply selfLink_stays
    | with_reducible apply selfMargin_stays
    | with_reducible apply selfPower_stays
    | with_reducible apply selfStack_stays
    | with_reducible refine Stays.foldl (fun _ _ _ => ?_) ?_

theorem wHoleRequest_stays {a s : State} (r : Req) (h : Stays a s) :
    Stays a (wHoleRequest r s).2 := by
  unfold wHoleRequest
  repeat' first
    | with_reducible assumption
    | with_reducible apply accept_stays
    | with_reducible apply appendRecord_stays
    | split
    | simp only [stays_upd]

end Sys2Proof.Machine
end

