-- ==== Sys2Proof/Laws/FrameInput.lean ====
section
/-! SUPPORT. Laws/FrameInput.lean: the operations of Machine/Input.lean leave the queue of waiting commands alone and keep the commit
record legal. -/

namespace Sys2Proof.Machine

theorem State.cleared_stays {a s : State} (h : Stays a s) : Stays a s.cleared :=
  ⟨h.1, fun _ => ⟨Nat.zero_le 1, Nat.two_pow_pos 64⟩⟩

theorem boot_stays {a s : State} (old : Life) (h : Stays a s) :
    Stays a (boot s old) := by
  unfold boot
  repeat' first
    | with_reducible assumption
    | with_reducible apply bootChain_stays
    | with_reducible apply changeLife_stays
    | simp only [stays_upd]
    | (lift_lets; intro t; first
        | (refine have ht : Stays a t := ?_; ?_; (unfold t; clear t); clear_value t)
        | (have _ := fun x => t x; unfold t; clear t)
        | clear_value t)
    | intro _

theorem moduleReset_stays {a s : State}  (h : Stays a s) :
    Stays a (moduleReset s) := by
  unfold moduleReset
  repeat' first
    | with_reducible assumption
    | with_reducible apply State.cleared_stays
    | with_reducible apply bootChain_stays
    | with_reducible apply boot_stays
    | (split <;> try (rename_i hq; first
        | refine Stays.cut (Stays.ofPair (a := a) hq ?_) (fun _ => ?_)
        | refine Stays.cut (Stays.ofPair2 (a := a) hq ?_) (fun _ => ?_)
        | refine Stays.cut (Stays.ofPair3 (a := a) hq ?_) (fun _ => ?_)
        | refine Stays.cut (Stays.ofOpt (a := a) hq ?_) (fun _ => ?_)
        | refine Stays.cut (Stays.ofOptSnd (a := a) hq ?_) (fun _ => ?_)))
    | simp only [stays_upd]
    | (lift_lets; intro t; first
        | (refine have ht : Stays a t := ?_; ?_; (unfold t; clear t); clear_value t)
        | (have _ := fun x => t x; unfold t; clear t)
        | clear_value t)
    | intro _

theorem shutDown_stays {a s : State} (next : InputState) (h : Stays a s) : Stays a (shutDown s next) :=
  modInput_stays _ (State.cleared_stays h)

theorem tryStart_stays {a s : State}  (h : Stays a s) :
    Stays a (tryStart s) := by
  unfold tryStart
  repeat' first
    | with_reducible assumption
    | with_reducible apply modInput_stays
    | (split <;> try (rename_i hq; first
        | refine Stays.cut (Stays.ofPair (a := a) hq ?_) (fun _ => ?_)
        | refine Stays.cut (Stays.ofPair2 (a := a) hq ?_) (fun _ => ?_)
        | refine Stays.cut (Stays.ofPair3 (a := a) hq ?_) (fun _ => ?_)
        | refine Stays.cut (Stays.ofOpt (a := a) hq ?_) (fun _ => ?_)
        | refine Stays.cut (Stays.ofOptSnd (a := a) hq ?_) (fun _ => ?_)))
    | simp only [stays_upd]
    | (lift_lets; intro t; first
        | (refine have ht : Stays a t := ?_; ?_; (unfold t; clear t); clear_value t)
        | (have _ := fun x => t x; unfold t; clear t)
        | clear_value t)
    | intro _

theorem setPair_stays {a s : State} (b here : Bool) (h : Stays a s) :
    Stays a (setPair s b here) := h

theorem coolReading_stays {a s : State} (x : Sensor) (flowBad tempBad : Bool) (h : Stays a s) :
    Stays a (coolReading s x flowBad tempBad).2 := h

theorem raiseCool_stays {a s : State} (was now : CoolLimit) (ev : Ev) (x : Sensor) (flowBad tempBad : Bool) (h : Stays a s) :
    Stays a (raiseCool s was now ev x flowBad tempBad) := by
  unfold raiseCool
  repeat' first
    | with_reducible assumption
    | with_reducible apply coolReading_stays
    | with_reducible apply raiseInput_stays
    | (split <;> try (rename_i hq; first
        | refine Stays.cut (Stays.ofPair (a := a) hq ?_) (fun _ => ?_)
        | refine Stays.cut (Stays.ofPair2 (a := a) hq ?_) (fun _ => ?_)
        | refine Stays.cut (Stays.ofPair3 (a := a) hq ?_) (fun _ => ?_)
        | refine Stays.cut (Stays.ofOpt (a := a) hq ?_) (fun _ => ?_)
        | refine Stays.cut (Stays.ofOptSnd (a := a) hq ?_) (fun _ => ?_)))
    | (lift_lets; intro t; first
        | (refine have ht : Stays a t := ?_; ?_; (unfold t; clear t); clear_value t)
        | (have _ := fun x => t x; unfold t; clear t)
        | clear_value t)
    | intro _

end Sys2Proof.Machine
end

