-- ==== Sys2Proof/Laws/FramePlans.lean ====
section
/-! SUPPORT. Laws/FramePlans.lean: the operations of Machine/Plans.lean leave the queue of waiting commands alone and keep the commit
record legal. -/

namespace Sys2Proof.Machine

theorem zeroRegion_stays {a s : State} (r : Region) (h : Stays a s) :
    Stays a (zeroRegion s r) := by
  unfold zeroRegion
  repeat' first
    | with_reducible assumption
    | with_reducible apply modMc_stays
    | with_reducible refine Stays.foldl (fun _ _ _ => ?_) ?_

theorem zeroJob_stays {a s : State}  (h : Stays a s) :
    Stays a (zeroJob s) := by
  unfold zeroJob
  repeat' first
    | with_reducible assumption
    | with_reducible apply zeroRegion_stays
    | with_reducible refine Stays.foldl (fun _ _ _ => ?_) ?_

theorem clearCopies_stays {a s : State}  (h : Stays a s) :
    Stays a (clearCopies s) := by
  unfold clearCopies
  repeat' first
    | with_reducible assumption
    | with_reducible apply modRedSl_stays
    | with_reducible refine Stays.foldl (fun _ _ _ => ?_) ?_

theorem installPlan_stays {a s : State} (xs : List PlanSection) (h : Stays a s) :
    Stays a (installPlan s xs) := by
  unfold installPlan
  repeat' first
    | with_reducible assumption
    | with_reducible apply extendM_stays
    | with_reducible apply modDict_stays
    | with_reducible apply modRed_stays
    | with_reducible apply modWatch_stays
    | with_reducible apply reload_stays
    | with_reducible apply zeroJob_stays
    | with_reducible refine Stays.foldl (fun _ _ _ => ?_) ?_
    | with_reducible refine Stays.foldlSnd (fun _ _ _ _ => ?_) ?_
    | simp only [stays_upd]

theorem endPlan_stays {a s : State} (st : Nat) (h : Stays a s) :
    Stays a (endPlan s st) := h

theorem startJob_stays {a s : State} (h : Stays a s) : Stays a (startJob s) := by
  unfold startJob
  extract_lets s0 s1 s2 s3 s4 s5
  have h1 : Stays a s1 := stays_commit h (fun _ => ⟨Nat.zero_le _, Nat.mod_lt _ (by decide)⟩)
  have h4 : Stays a s4 := clearCopies_stays (modRecov_stays _ (modRun_stays _ h1))
  clear_value s4
  exact extendM_stays _ _ (sendBuddyCopy_stays _ h4)

theorem unloadAll_stays {a s : State} (h : Stays a s) : Stays a (unloadAll s) := by
  unfold unloadAll
  extract_lets s1 s2 s3 s4
  have h1 : Stays a s1 := clearCopies_stays (zeroJob_stays h)
  clear_value s1
  exact modDict_stays _ (modWatch_stays _ (modRed_stays _ h1))

theorem wPlanOffset_stays {a s : State} (r : Req) (h : Stays a s) :
    Stays a (wPlanOffset r s).2 := by
  unfold wPlanOffset
  repeat' first
    | with_reducible assumption
    | with_reducible apply State.modSession_stays
    | with_reducible apply accept_stays

theorem wPlanData_stays {a s : State} (r : Req) (h : Stays a s) :
    Stays a (wPlanData r s).2 := by
  unfold wPlanData
  repeat' first
    | with_reducible assumption
    | with_reducible apply State.modSession_stays
    | with_reducible apply modDict_stays
    | split
    | simp only [stays_upd]

theorem wPlanCommand_stays {a s : State} (r : Req) (h : Stays a s) :
    Stays a (wPlanCommand r s).2 := by
  unfold wPlanCommand
  repeat' first
    | with_reducible assumption
    | with_reducible apply State.modSession_stays
    | with_reducible apply endPlan_stays
    | with_reducible apply modDict_stays
    | with_reducible apply planCommand_stays
    | with_reducible apply startJob_stays
    | with_reducible apply unloadAll_stays
    | split
    | simp only [stays_upd]

theorem planCommand_stays {a s : State} (code : Nat) (r : Req) (h : Stays a s) :
    Stays a (planCommand code r s) := by
  unfold planCommand
  repeat' first
    | with_reducible assumption
    | with_reducible apply serveWrite_stays
    | with_reducible apply wPlanCommand_stays
    | split
    | intro _

theorem wJobSeed_stays {a s : State} (r : Req) (h : Stays a s) :
    Stays a (wJobSeed r s).2 := by
  unfold wJobSeed
  repeat' first
    | with_reducible assumption
    | with_reducible apply accept_stays
    | with_reducible apply modDict_stays

theorem wJobStart_stays {a s : State} (r : Req) (h : Stays a s) :
    Stays a (wJobStart r s).2 := by
  unfold wJobStart
  repeat' first
    | with_reducible assumption
    | with_reducible apply accept_stays
    | with_reducible apply modDict_stays

theorem wJobAddress_stays {a s : State} (r : Req) (h : Stays a s) :
    Stays a (wJobAddress r s).2 := by
  unfold wJobAddress
  repeat' first
    | with_reducible assumption
    | with_reducible apply State.modSession_stays
    | with_reducible apply accept_stays

theorem wJobData_stays {a s : State} (r : Req) (h : Stays a s) :
    Stays a (wJobData r s).2 := by
  unfold wJobData
  repeat' first
    | with_reducible assumption
    | with_reducible apply State.modSession_stays
    | with_reducible apply modDict_stays
    | with_reducible apply planWrite_stays
    | with_reducible refine Stays.foldl (fun _ _ _ => ?_) ?_
    | with_reducible refine Stays.foldlSnd (fun _ _ _ _ => ?_) ?_
    | split
    | simp only [stays_upd]

end Sys2Proof.Machine
end

