-- ==== Sys2Proof/Laws/FrameTime.lean ====
section
/-! SUPPORT. Laws/FrameTime.lean: the operations of Machine/Time.lean leave the queue of waiting commands alone and keep the commit
record legal. -/

namespace Sys2Proof.Machine

theorem compareStamp_stays {a s : State} (port : Slice) (count : Nat) (h : Stays a s) :
    Stays a (compareStamp s port count) := by
  unfold compareStamp
  repeat' first
    | with_reducible assumption
    | with_reducible apply modTime_stays
    | with_reducible apply raisePort_stays
    | with_reducible apply timeSplit_stays
    | split
    | simp only [stays_upd]

theorem wCbcLoad_stays {a s : State} (r : Req) (h : Stays a s) :
    Stays a (wCbcLoad r s).2 := by
  unfold wCbcLoad
  repeat' first
    | with_reducible assumption
    | with_reducible apply modTime_stays
    | with_reducible apply setLock_stays
    | with_reducible apply setValid_stays
    | split
    | simp only [stays_upd]

theorem restartSource_stays {a s : State}  (h : Stays a s) :
    Stays a (restartSource s) := by
  unfold restartSource
  repeat' first
    | with_reducible assumption
    | with_reducible apply lockedReady_stays
    | with_reducible apply modTime_stays
    | split
    | simp only [stays_upd]

theorem wBeatSource_stays {a s : State} (r : Req) (h : Stays a s) :
    Stays a (wBeatSource r s).2 := by
  unfold wBeatSource
  repeat' first
    | with_reducible assumption
    | with_reducible apply modTime_stays
    | with_reducible apply restartSource_stays
    | split
    | simp only [stays_upd]

theorem wBeatLinkPort_stays {a s : State} (r : Req) (h : Stays a s) :
    Stays a (wBeatLinkPort r s).2 := by
  unfold wBeatLinkPort
  repeat' first
    | with_reducible assumption
    | with_reducible apply modTime_stays
    | with_reducible apply restartSource_stays
    | split
    | simp only [stays_upd]

theorem wSchedEntry_stays {a s : State} (i : Fin 64) (r : Req) (h : Stays a s) :
    Stays a (wSchedEntry i r s).2 := by
  unfold wSchedEntry
  repeat' first
    | with_reducible assumption
    | with_reducible apply modSched_stays
    | split
    | simp only [stays_upd]

theorem wMarkSend_stays {a s : State} (r : Req) (h : Stays a s) :
    Stays a (wMarkSend r s).2 := by
  unfold wMarkSend
  repeat' first
    | with_reducible assumption
    | with_reducible apply takeMarker_stays

theorem wMarkSource_stays {a s : State} (r : Req) (h : Stays a s) :
    Stays a (wMarkSource r s).2 := by
  unfold wMarkSource
  repeat' first
    | with_reducible assumption
    | with_reducible apply accept_stays
    | with_reducible apply modSched_stays

theorem wMarkDelay_stays {a s : State} (r : Req) (h : Stays a s) :
    Stays a (wMarkDelay r s).2 := by
  unfold wMarkDelay
  repeat' first
    | with_reducible assumption
    | with_reducible apply accept_stays
    | with_reducible apply modSched_stays

end Sys2Proof.Machine
end

