-- ==== Sys2Proof/Laws/FrameManage.lean ====
section
/-! SUPPORT. Laws/FrameManage.lean: the operations of Machine/Manage.lean leave the queue of waiting commands alone and keep the commit
record legal. -/

namespace Sys2Proof.Machine

theorem frameIn_stays {a s : State}  (h : Stays a s) :
    Stays a (frameIn s) := h

theorem frameBad_stays {a s : State}  (h : Stays a s) :
    Stays a (frameBad s) := h

theorem endSession_stays {a s : State} (n : Nat) (h : Stays a s) :
    Stays a (endSession s n) := h

theorem refuse_stays {a s : State} (data : Nat) (h : Stays a s) :
    Stays a (refuse s data) := by
  unfold refuse
  repeat' first
    | with_reducible assumption
    | with_reducible apply modDict_stays
    | with_reducible apply raiseMod_stays

theorem sendRefuse_stays {a s : State} (st : Nat) (h : Stays a s) :
    Stays a (sendRefuse s st) := by
  unfold sendRefuse
  repeat' first
    | with_reducible assumption
    | with_reducible apply modDict_stays
    | with_reducible apply refuse_stays

theorem subscribeOp_stays {a s : State} (r : Req) (h : Stays a s) :
    Stays a (subscribeOp r s).2 := by
  unfold subscribeOp
  repeat' first
    | with_reducible assumption
    | with_reducible apply State.modSession_stays
    | with_reducible apply draw_stays
    | (split <;> try (rename_i hq; first
        | refine Stays.cut (Stays.ofPair (a := a) hq ?_) (fun _ => ?_)
        | refine Stays.cut (Stays.ofPair2 (a := a) hq ?_) (fun _ => ?_)
        | refine Stays.cut (Stays.ofPair3 (a := a) hq ?_) (fun _ => ?_)
        | refine Stays.cut (Stays.ofOpt (a := a) hq ?_) (fun _ => ?_)
        | refine Stays.cut (Stays.ofOptSnd (a := a) hq ?_) (fun _ => ?_)))
    | (lift_lets; intro t;
        clear_value t)

theorem forwardChain_stays {a s : State} (f : ChainFrame) (h : Stays a s) :
    Stays a (forwardChain s f) := h

theorem addressed_stays {a s : State}  (h : Stays a s) :
    Stays a (addressed s) := by
  unfold addressed
  repeat' first
    | with_reducible assumption
    | with_reducible apply setLife_stays
    | split

theorem processChain_stays {a s : State} (f : ChainFrame) (h : Stays a s) :
    Stays a (processChain s f).1 := by
  unfold processChain
  repeat' first
    | with_reducible assumption
    | with_reducible apply addressed_stays
    | with_reducible apply modDict_stays
    | with_reducible apply raiseMod_stays
    | split
    | simp only [stays_upd]

theorem chainArrives_stays {a s : State} (f : ChainFrame) (crcOk : Bool) (h : Stays a s) :
    Stays a (chainArrives s f crcOk) := by
  unfold chainArrives
  repeat' first
    | with_reducible assumption
    | with_reducible apply forwardChain_stays
    | with_reducible apply modDict_stays
    | with_reducible apply processChain_stays
    | split
    | simp only [stays_upd]

theorem wNodeId_stays {a s : State} (r : Req) (h : Stays a s) :
    Stays a (wNodeId r s).2 := by
  unfold wNodeId
  repeat' first
    | with_reducible assumption
    | with_reducible apply accept_stays
    | with_reducible apply addressed_stays
    | with_reducible apply modDict_stays

theorem wIpConfig_stays {a s : State} (port : Fin 2) (r : Req) (h : Stays a s) :
    Stays a (wIpConfig port r s).2 := by
  unfold wIpConfig
  repeat' first
    | with_reducible assumption
    | with_reducible apply accept_stays
    | with_reducible apply modDict_stays

theorem noteCommand_stays {a s : State} (code st : Nat) (h : Stays a s) :
    Stays a (noteCommand s code st) := h

theorem doStart_stays {a s : State}  (h : Stays a s) :
    Stays a (doStart s) := by
  unfold doStart
  repeat' first
    | with_reducible assumption
    | with_reducible apply changeLife_stays
    | with_reducible apply runStep_stays

theorem doPause_stays {a s : State}  (h : Stays a s) :
    Stays a (doPause s).2 := by
  unfold doPause
  repeat' first
    | with_reducible assumption
    | with_reducible apply enterPaused_stays
    | with_reducible apply modLife_stays
    | split

theorem doStop_stays {a s : State}  (h : Stays a s) :
    Stays a (doStop s).2 := by
  unfold doStop
  repeat' first
    | with_reducible assumption
    | with_reducible apply enterPaused_stays
    | with_reducible apply modLife_stays
    | with_reducible apply stopNow_stays
    | split
    | simp only [stays_upd]

theorem doResume_stays {a s : State}  (h : Stays a s) :
    Stays a (doResume s) := by
  unfold doResume
  repeat' first
    | with_reducible assumption
    | with_reducible apply beginStep6_stays
    | with_reducible apply changeLife_stays
    | with_reducible apply modRecov_stays
    | with_reducible apply modRun_stays
    | with_reducible apply runStep_stays
    | with_reducible apply spareBegins_stays
    | split

theorem doService_stays {a s : State}  (h : Stays a s) :
    Stays a (doService s) := by
  unfold doService
  repeat' first
    | with_reducible assumption
    | with_reducible apply applyColander_stays
    | with_reducible apply applyRepairs_stays
    | with_reducible apply changeLife_stays
    | with_reducible apply rebuildRoutes_stays
    | with_reducible apply unloadAll_stays

theorem doReset_stays {a s : State}  (h : Stays a s) :
    Stays a (doReset s) := h

theorem wCommand_stays {a s : State} (r : Req) (h : Stays a s) :
    Stays a (wCommand r s).2 := by
  unfold wCommand
  repeat' first
    | with_reducible assumption
    | with_reducible apply doPause_stays
    | with_reducible apply doReset_stays
    | with_reducible apply doResume_stays
    | with_reducible apply doService_stays
    | with_reducible apply doStart_stays
    | with_reducible apply doStop_stays
    | with_reducible apply noteCommand_stays
    | split
    | (lift_lets; intro t;
        clear_value t)

theorem command_stays {a s : State} (code : Nat) (r : Req) (h : Stays a s) :
    Stays a (command code r s) := by
  unfold command
  repeat' first
    | with_reducible assumption
    | with_reducible apply serveWrite_stays
    | with_reducible apply wCommand_stays
    | split
    | intro _

theorem wKept_stays {a s : State} (lim : Nat) (put : Nat → Session → Session) (r : Req) (h : Stays a s) :
    Stays a (wKept lim put r s).2 := by
  unfold wKept
  repeat' first
    | with_reducible assumption
    | with_reducible apply State.modSession_stays
    | with_reducible apply accept_stays

theorem wSparesLow_stays {a s : State} (r : Req) (h : Stays a s) :
    Stays a (wSparesLow r s).2 := by
  unfold wSparesLow
  repeat' first
    | with_reducible assumption
    | with_reducible apply accept_stays
    | simp only [stays_upd]

theorem wCeRetire_stays {a s : State} (r : Req) (h : Stays a s) :
    Stays a (wCeRetire r s).2 := by
  unfold wCeRetire
  repeat' first
    | with_reducible assumption
    | with_reducible apply accept_stays
    | simp only [stays_upd]

end Sys2Proof.Machine
end

