-- ==== Sys2Proof/Laws/Mem.lean ====
section
/-! SUPPORT. Laws/Mem.lean: the sparse memory: every operation keeps its canonical form, a read after a write to the same
place gives the byte written, and a write leaves every other place alone. The laws of reads hold of every list, canonical
or not. -/

namespace Sys2Proof

/-- An empty memory is canonical. -/
theorem Mem.wf_nil : Mem.wf [] := by simp [Mem.wf]

/-- The tail of a canonical memory is canonical. -/
theorem Mem.wf_tail {c : Host.Cell} {m : Mem} (h : Mem.wf (c :: m)) : Mem.wf m :=
  ⟨(List.pairwise_cons.mp h.1).2, fun d hd => h.2 d (List.mem_cons_of_mem _ hd)⟩

/-- An address that `put` lists is the one written or one that was listed. -/
theorem Mem.mem_put {m : Mem} {a : Nat} {b : Byte} {c : Host.Cell} (h : c ∈ Mem.put m a b) : c = (a, b) ∨ c ∈ m := by
  induction m with
  | nil => simpa [Mem.put] using h
  | cons x r ih =>
    obtain ⟨j, d⟩ := x
    simp only [Mem.put] at h
    split at h
    · simpa using h
    · split at h
      · rcases List.mem_cons.mp h with h | h
        · exact .inl h
        · exact .inr (List.mem_cons_of_mem _ h)
      · rcases List.mem_cons.mp h with h | h
        · exact .inr (h ▸ List.mem_cons_self ..)
        · exact (ih h).imp_right (List.mem_cons_of_mem _)

/-- Listing a byte that is not the unlisted one keeps the canonical form. -/
theorem Mem.put_wf {m : Mem} (h : Mem.wf m) (a : Nat) {b : Byte} (hb : b ≠ 0#8) : Mem.wf (Mem.put m a b) := by
  induction m with
  | nil => exact ⟨by simp [Mem.put], by simpa [Mem.put] using hb⟩
  | cons x r ih =>
    obtain ⟨j, d⟩ := x
    have hr := Mem.wf_tail h
    have hj : ∀ c ∈ r, j < c.1 := (List.pairwise_cons.mp h.1).1
    simp only [Mem.put]
    split
    next haj =>
      refine ⟨List.pairwise_cons.mpr ⟨fun c hc => ?_, h.1⟩, fun c hc => ?_⟩
      · rcases List.mem_cons.mp hc with rfl | hc
        · exact haj
        · exact Nat.lt_trans haj (hj c hc)
      · rcases List.mem_cons.mp hc with rfl | hc
        · exact hb
        · exact h.2 c hc
    next haj =>
      split
      next hja =>
        subst hja
        refine ⟨List.pairwise_cons.mpr ⟨hj, hr.1⟩, fun c hc => ?_⟩
        rcases List.mem_cons.mp hc with rfl | hc
        · exact hb
        · exact hr.2 c hc
      next hja =>
        have hi := ih hr
        refine ⟨List.pairwise_cons.mpr ⟨fun c hc => ?_, hi.1⟩, fun c hc => ?_⟩
        · rcases Mem.mem_put hc with rfl | hc
          · simp only; omega
          · exact hj c hc
        · rcases List.mem_cons.mp hc with rfl | hc
          · exact h.2 _ (List.mem_cons_self ..)
          · exact hi.2 c hc

/-- Writing a byte keeps the canonical form. -/
theorem Mem.set_wf {m : Mem} (h : Mem.wf m) (a : Nat) (b : Byte) : Mem.wf (Mem.set m a b) := by
  unfold Mem.set
  split
  · exact ⟨h.1.filter _, fun c hc => h.2 c (List.mem_filter.mp hc).1⟩
  · next hb => exact Mem.put_wf h a hb

/-- Storing bytes keeps the canonical form. -/
theorem Mem.store_wf {m : Mem} (h : Mem.wf m) (a : Nat) (bs : List Byte) : Mem.wf (Mem.store m a bs) := by
  induction bs generalizing m a with
  | nil => exact h
  | cons b bs ih => exact ih (Mem.set_wf h a b) (a + 1)

/-- Zeroing a range keeps the canonical form. -/
theorem Mem.zero_wf {m : Mem} (h : Mem.wf m) (lo n : Nat) : Mem.wf (Mem.zero m lo n) :=
  ⟨h.1.filter _, fun c hc => h.2 c (List.mem_filter.mp hc).1⟩

/-- Filling a range keeps the canonical form. -/
theorem Mem.fill_wf {m : Mem} (h : Mem.wf m) (lo : Nat) (b : Byte) (n : Nat) : Mem.wf (Mem.fill m lo b n) := by
  unfold Mem.fill
  split
  · exact Mem.zero_wf h lo n
  · exact Mem.store_wf h lo _

/-- A read of memory from which addresses were taken out: what stays reads as before, the rest as unlisted. -/
theorem Mem.get_filter (m : Mem) (f : Nat → Bool) (a : Nat) :
    Mem.get (m.filter (fun c => f c.1)) a = if f a then Mem.get m a else Mem.unlisted := by
  induction m with
  | nil => simp [Mem.get]
  | cons x r ih =>
    obtain ⟨j, d⟩ := x
    simp only [List.filter_cons, Mem.get]
    by_cases hja : j = a
    · subst hja
      by_cases hf : f j = true
      · simp [hf, Mem.get]
      · simp only [hf, Bool.false_eq_true, if_false] at ih ⊢; exact ih
    · by_cases hf : f j = true
      · simp only [hf, if_true, Mem.get, if_neg hja]; exact ih
      · simp only [hf, Bool.false_eq_true, if_false, if_neg hja]; exact ih

/-- A read after `put`. -/
theorem Mem.get_put (m : Mem) (a : Nat) (b : Byte) (c : Nat) :
    Mem.get (Mem.put m a b) c = if c = a then b else Mem.get m c := by
  induction m with
  | nil => simp only [Mem.put, Mem.get, eq_comm]
  | cons x r ih =>
    obtain ⟨j, d⟩ := x
    simp only [Mem.put]
    split
    · simp only [Mem.get, @eq_comm _ a c]
    · split
      next hja => subst hja; simp only [Mem.get, @eq_comm _ j c]; split <;> rfl
      next hja =>
        simp only [Mem.get, ih]
        by_cases hjc : j = c
        · subst hjc; simp [hja]
        · simp only [if_neg hjc]

/-- A read after a write gives the byte written at its place, and what was there at every other. -/
theorem Mem.get_set (m : Mem) (a : Nat) (b : Byte) (c : Nat) :
    Mem.get (Mem.set m a b) c = if c = a then b else Mem.get m c := by
  unfold Mem.set
  split
  next hb =>
    rw [Mem.get_filter m (fun x => x != a) c]
    by_cases h : c = a <;> simp [h, hb]
  next => exact Mem.get_put m a b c

/-- A read after a store: the bytes stored from `a` up, and what was there outside them. -/
theorem Mem.get_store (m : Mem) (a : Nat) (bs : List Byte) (c : Nat) :
    Mem.get (Mem.store m a bs) c = if h : a ≤ c ∧ c < a + bs.length then bs[c - a] else Mem.get m c := by
  induction bs generalizing m a with
  | nil => simp only [Mem.store, List.length_nil]; rw [dif_neg (by omega)]
  | cons b bs ih =>
    simp only [Mem.store, List.length_cons]
    rw [ih, Mem.get_set]
    by_cases h : c = a
    · subst h
      rw [dif_neg (by omega), if_pos rfl, dif_pos (by omega)]
      simp
    · rw [if_neg h]
      by_cases h1 : a + 1 ≤ c ∧ c < a + 1 + bs.length
      · rw [dif_pos h1, dif_pos (by omega)]
        rw [List.getElem_cons, dif_neg (by omega)]
        congr 1
      · rw [dif_neg h1, dif_neg (by omega)]

/-- A store leaves every byte outside its range alone. -/
theorem Mem.get_store_out (m : Mem) {a c : Nat} {bs : List Byte} (hc : c < a ∨ a + bs.length ≤ c) :
    Mem.get (Mem.store m a bs) c = Mem.get m c := by
  rw [Mem.get_store, dif_neg (by omega)]

/-- A read after a range was zeroed. -/
theorem Mem.get_zero (m : Mem) (lo n c : Nat) :
    Mem.get (Mem.zero m lo n) c = if lo ≤ c ∧ c < lo + n then 0#8 else Mem.get m c := by
  unfold Mem.zero
  rw [Mem.get_filter m (fun x => x < lo || lo + n ≤ x) c]
  by_cases h : lo ≤ c ∧ c < lo + n
  · rw [if_pos h, if_neg (by simp; omega)]; rfl
  · rw [if_neg h, if_pos (by simp; omega)]

/-- The bytes read from a range. -/
theorem Mem.bytes_get (m : Mem) (a n : Nat) : Mem.bytes m a n = (List.range n).map (fun i => Mem.get m (a + i)) := by
  induction n generalizing a with
  | zero => rfl
  | succ n ih =>
    simp only [Mem.bytes, ih, List.range_succ_eq_map, List.map_cons, List.map_map, Nat.add_zero]
    congr 1
    apply List.map_congr_left
    intro i _
    simp only [Function.comp, Nat.succ_eq_add_one]
    congr 1
    omega

/-- Every memory of the module in canonical form: pantries, stacks, rim buffers and the plan chunks. -/
def memWf (s : Machine.State) : Prop :=
  (∀ p, Mem.wf (vget s.sks p).pantry.mem) ∧ (∀ sl, Mem.wf (vget s.rim.slices sl).mc.mem)
    ∧ (∀ i, Mem.wf (vget s.rim.buffers i).mem) ∧ Mem.wf s.dict.planChunks

/-- Every memory is canonical after reset. -/
theorem reset_memWf : memWf Machine.State.reset := by
  refine ⟨fun p => ?_, fun sl => ?_, fun i => ?_, Mem.wf_nil⟩ <;>
    simp [Machine.State.reset, vget, Mem.wf]

end Sys2Proof
end

