-- ==== Sys2Proof/Laws/Seq.lean ====
section
/-! SUPPORT. Laws/Seq.lean: what a plan word that stands does (08 R218, R222): its operation acts on the state after the
fetch, and that state differs from the one before in counters and in the errors that the read has met. -/

namespace Sys2Proof.Machine

/-- A word that stands acts on the state after its fetch. -/
theorem issueWord_presents {s : State} {p : Pid} {op : WordOp} {t : Fin 16} {w : Nat} (h : Presents s p op t w)
    (act : State → Fin 16 → Nat → State) : issueWord s p op act = act (fetched s p t) t w := by
  have h8 := h.stands
  unfold fetched at h8
  unfold issueWord fetched
  simp [h.runs, h.free, h.powered, h.within, h.word, h.op_, h.clean, h8]

/-- Single-bit errors that are met only wait for their write-back. -/
theorem noteErrors_single (p : Pid) (es : List (Nat × Bool)) (h : ∀ e ∈ es, e.2 = false) (s : State) :
    es.foldl (fun t e => noteError t p e.1 e.2) s
      = if es = [] then s
        else s.modPn p (fun k => { k with corrupt := es.foldl (fun c e => insertNat c e.1) k.corrupt }) := by
  induction es generalizing s with
  | nil => rfl
  | cons e r ih =>
    have he : e.2 = false := h e (List.mem_cons_self ..)
    rw [List.foldl_cons, ih (fun x hx => h x (List.mem_cons_of_mem _ hx)), if_neg (List.cons_ne_nil _ _)]
    simp only [noteError, he, Bool.false_eq_true, if_false]
    by_cases hr : r = []
    · subst hr; rfl
    · rw [if_neg hr]; simp [State.modPn, State.modSk, vmod, vset, vget, Vector.set_set]

/-- A pantry whose errors are given as they are is as before. -/
theorem modPn_same (s : State) (p : Pid) :
    s.modPn p (fun k => { k with errors := (s.pn p).errors, corrupt := (s.pn p).corrupt }) = s := by
  have h : vset s.sks p (vget s.sks p) = s.sks := by
    apply Vector.ext
    intro i hi
    simp [vset, vget]
  show { s with sks := vset s.sks p (vget s.sks p) } = s
  rw [h]

/-- The errors met where none is a double-bit one. -/
theorem meetErrors_single (s : State) (p : Pid) (live : Nat → Bool)
    (h : ∀ e ∈ (s.pn p).errors, live e.1 = true → e.2 = false) :
    ∃ es co, meetErrors s p live = s.modPn p (fun k => { k with errors := es, corrupt := co }) := by
  simp only [meetErrors]
  split
  · exact ⟨_, _, (modPn_same s p).symm⟩
  · next hm =>
    rw [noteErrors_single p _ (fun e he => h e (List.mem_filter.mp he).1 (List.mem_filter.mp he).2),
      if_neg (by simpa [List.isEmpty_iff] using hm)]
    refine ⟨(s.pn p).errors.filter (fun e => !live e.1),
      ((s.pn p).errors.filter (fun e => live e.1)).foldl (fun c e => insertNat c e.1) (s.pn p).corrupt, ?_⟩
    simp [State.modPn, State.modSk, State.pn, State.sk, vmod, vset, vget, Vector.set_set]

/-- A read that meets no double-bit error and brings no poison counts its access, and leaves the single-bit errors that it
has met to their write-back; nothing else changes. -/
theorem readRange_clean {s : State} {p : Pid} {m a len : Nat} (hc : (readRange s p m a len).1.poison = false)
    (hd : ∀ e ∈ (s.pn p).errors, granuleIn a len e.1 = true → e.2 = false) :
    ∃ es co, (readRange s p m a len).2 = (countAccess s p m a len 0).modPn p (fun k => { k with errors := es, corrupt := co }) := by
  unfold readRange at hc ⊢
  simp only [ReadRes.poison, Bool.or_eq_false_iff, Bool.not_eq_false', List.isEmpty_iff] at hc ⊢
  simp only [hc.1, List.foldl_nil] at hc ⊢
  simp only [hc.2, List.foldl_nil]
  have hg : countGranted s p m a len false ((rangeShelves a len).filter (fun n => !([] : List Nat).contains n))
      = countAccess s p m a len 0 := by simp [countGranted]
  rw [hg]
  refine meetErrors_single _ p _ (fun e he hl => hd e ?_ ?_)
  · simpa [countAccess, draw, State.modPn, State.modSk, State.pn, State.sk] using he
  · simpa using hl

end Sys2Proof.Machine

namespace Sys2Proof

open Sys2Proof.Machine

/-- A word is presented and stands where each check does. -/
theorem Presents.of_checks {s : State} {p : Pid} {op : WordOp} {t : Fin 16} {w : Nat}
    (h : (decide ((s.sq p).current = some t) && decide ((s.sq p).hold = none) && s.sequences p
      && !pcBeyond (s.task p t).pc && decide (leNat (Mem.bytes (s.pn p).mem (16 * (s.task p t).pc) 16) = w)
      && decide (wordOp w = some op) && !(readRange s p 14 (16 * (s.task p t).pc) 16).1.poison
      && decide (wordStatus (fetched s p t) p t op w = 0)) = true) : Presents s p op t w := by
  simp only [Bool.and_eq_true, Bool.not_eq_true', decide_eq_true_eq] at h
  obtain ⟨⟨⟨⟨⟨⟨⟨a, b⟩, c⟩, d⟩, e⟩, f⟩, g⟩, i⟩ := h
  exact ⟨a, b, c, d, e, f, g, i⟩

end Sys2Proof
end

