-- ==== Sys2Proof/Laws/StepColander.lean ====
section
/-! SUPPORT. Laws/StepColander.lean: the meanings of Machine/Colander.lean leave the queue of waiting commands alone and keep the commit
record legal. -/

namespace Sys2Proof.Machine

theorem execSelfTestDone_stays {a s : State} (t : SelfTest) (h : Stays a s) : StaysOut a (execSelfTestDone t s) := by
  unfold execSelfTestDone
  split
  · exact h
  · extract_lets s1
    have h1 : Stays a s1 := selfTested_stays t h
    clear_value s1
    split
    · exact staysOut_next (quarantine_stays h1)
    · exact staysOut_next (Stays.foldl (fun _ x ht => portUp_stays x ht) (commitTrial_stays (setLife_stays _ h1)))

theorem execHoleRequest_stays {a s : State} (r : Req) (h : Stays a s) :
    StaysOut a (execHoleRequest r s) := by
  unfold execHoleRequest
  repeat' first
    | with_reducible assumption
    | with_reducible apply staysOut_next
    | with_reducible apply serveWrite_stays
    | with_reducible apply wHoleRequest_stays
    | intro _

end Sys2Proof.Machine
end

