-- ==== Sys2Proof/Laws/StepGriddle.lean ====
section
/-! SUPPORT. Laws/StepGriddle.lean: the meanings of Machine/Griddle.lean leave the queue of waiting commands alone and keep the commit
record legal. -/

namespace Sys2Proof.Machine

theorem execPassIssue_stays {a s : State} (p : Pid) (h : Stays a s) :
    StaysOut a (execPassIssue p s) := by
  unfold execPassIssue
  repeat' first
    | with_reducible assumption
    | with_reducible refine fun _ => ?_
    | with_reducible apply staysOut_next
    | with_reducible apply finishWord_stays
    | with_reducible apply issueWord_stays
    | with_reducible apply modGr_stays
    | with_reducible apply readRange_stays
    | with_reducible apply rejectPass_stays
    | with_reducible apply waitTask_stays
    | (extract_lets +onlyGivenNames t; first
        | (refine Stays.cut (a := a) (t := t) ?_ (fun ht => ?_); on_goal 2 => clear_value t; on_goal 1 => (unfold t; clear t))
        | (have _ : Option State := t; unfold t; clear t)
        | clear_value t)
    | (split <;> try (rename_i hq; first
        | refine Stays.cut (Stays.ofPair (a := a) hq ?_) (fun _ => ?_)
        | refine Stays.cut (Stays.ofPair2 (a := a) hq ?_) (fun _ => ?_)
        | refine Stays.cut (Stays.ofPair3 (a := a) hq ?_) (fun _ => ?_)
        | refine Stays.cut (Stays.ofOpt (a := a) hq ?_) (fun _ => ?_)
        | refine Stays.cut (Stays.ofOptSnd (a := a) hq ?_) (fun _ => ?_)))

theorem execPassFlush_stays {a s : State} (p : Pid) (h : Stays a s) :
    StaysOut a (execPassFlush p s) := by
  unfold execPassFlush
  repeat' first
    | with_reducible assumption
    | with_reducible refine fun _ => ?_
    | with_reducible apply staysOut_next
    | with_reducible apply advance_stays
    | with_reducible apply doFlush_stays
    | with_reducible apply issueWord_stays
    | with_reducible apply modGr_stays
    | split
    | simp only [stays_upd]

theorem execStationaryLoadStart_stays {a s : State} (p : Pid) (g : Fin 4) (errs : List (Nat × Bool)) (h : Stays a s) :
    StaysOut a (execStationaryLoadStart p g errs s) := by
  unfold execStationaryLoadStart
  repeat' first
    | with_reducible assumption
    | with_reducible apply staysOut_next
    | with_reducible apply modGr_stays
    | with_reducible apply readTile_stays
    | with_reducible apply releaseOperand_stays
    | with_reducible apply strike_stays
    | (extract_lets +onlyGivenNames t; first
        | (refine Stays.cut (a := a) (t := t) ?_ (fun ht => ?_); on_goal 2 => clear_value t; on_goal 1 => (unfold t; clear t))
        | (have _ : Option State := t; unfold t; clear t)
        | clear_value t)
    | split

theorem execPassIssueBegin_stays {a s : State} (p : Pid) (g : Fin 4) (errs : List (Nat × Bool)) (accCorrected : Nat) (h : Stays a s) :
    StaysOut a (execPassIssueBegin p g errs accCorrected s) := by
  unfold execPassIssueBegin
  repeat' first
    | with_reducible assumption
    | with_reducible apply staysOut_next
    | with_reducible apply draw_stays
    | with_reducible apply emitEnter_stays
    | with_reducible apply emptyPass_stays
    | with_reducible apply initRows_stays
    | with_reducible apply modGr_stays
    | with_reducible apply raiseSk_stays
    | with_reducible apply readRows_stays
    | with_reducible apply readScales_stays
    | with_reducible apply strike_stays
    | with_reducible refine Stays.foldl (fun _ _ _ => ?_) ?_
    | with_reducible refine Stays.foldlSnd (fun _ _ _ _ => ?_) ?_
    | split
    | simp only [stays_upd]

theorem execPassDrainEnd_stays {a s : State} (p : Pid) (g : Fin 4) (h : Stays a s) :
    StaysOut a (execPassDrainEnd p g s) := by
  unfold execPassDrainEnd
  repeat' first
    | with_reducible assumption
    | with_reducible apply staysOut_next
    | with_reducible apply drainEnd_stays

theorem execPassEmitEnd_stays {a s : State} (p : Pid) (g : Fin 4) (h : Stays a s) :
    StaysOut a (execPassEmitEnd p g s) := by
  unfold execPassEmitEnd
  repeat' first
    | with_reducible assumption
    | with_reducible apply staysOut_next
    | with_reducible apply emitEnd_stays

end Sys2Proof.Machine
end

