-- ==== Sys2Proof/Laws/StepInput.lean ====
section
/-! SUPPORT. Laws/StepInput.lean: the meanings of Machine/Input.lean leave the queue of waiting commands alone and keep the commit
record legal. -/

namespace Sys2Proof.Machine

theorem execPwrEnAssert_stays {a s : State} (vinA10mV : Nat) (vinB10mV : Nat) (h : Stays a s) :
    StaysOut a (execPwrEnAssert vinA10mV vinB10mV s) := by
  unfold execPwrEnAssert
  repeat' first
    | with_reducible assumption
    | with_reducible apply staysOut_next
    | with_reducible apply modInput_stays
    | with_reducible apply tryStart_stays
    | split

theorem execSoftStartDone_stays {a s : State}  (h : Stays a s) :
    StaysOut a (execSoftStartDone s) := by
  unfold execSoftStartDone
  repeat' first
    | with_reducible assumption
    | with_reducible apply staysOut_next
    | with_reducible apply boot_stays
    | with_reducible apply modInput_stays
    | with_reducible apply shutDown_stays
    | split

theorem execStage2Start_stays {a s : State}  (h : Stays a s) :
    StaysOut a (execStage2Start s) := by
  unfold execStage2Start
  repeat' first
    | with_reducible assumption
    | with_reducible apply staysOut_next
    | with_reducible apply changeLife_stays
    | split

theorem execPwrEnDeassert_stays {a s : State}  (h : Stays a s) :
    StaysOut a (execPwrEnDeassert s) := by
  unfold execPwrEnDeassert
  repeat' first
    | with_reducible assumption
    | with_reducible apply staysOut_next
    | with_reducible apply modInput_stays
    | with_reducible apply shutDown_stays
    | split

theorem execInputLockout_stays {a s : State}  (h : Stays a s) :
    StaysOut a (execInputLockout s) := by
  unfold execInputLockout
  repeat' first
    | with_reducible assumption
    | with_reducible apply staysOut_next
    | with_reducible apply shutDown_stays
    | split

theorem execLockoutClear_stays {a s : State}  (h : Stays a s) :
    StaysOut a (execLockoutClear s) := by
  unfold execLockoutClear
  repeat' first
    | with_reducible assumption
    | with_reducible apply staysOut_next
    | with_reducible apply modInput_stays
    | split

theorem execInputPairLost_stays {a s : State} (x : PairReading) (h : Stays a s) :
    StaysOut a (execInputPairLost x s) := by
  unfold execInputPairLost
  repeat' first
    | with_reducible assumption
    | with_reducible apply staysOut_next
    | with_reducible apply modInput_stays
    | with_reducible apply raiseInput_stays
    | with_reducible apply setPair_stays
    | split

theorem execInputPairReturn_stays {a s : State} (x : PairReading) (h : Stays a s) :
    StaysOut a (execInputPairReturn x s) := by
  unfold execInputPairReturn
  repeat' first
    | with_reducible assumption
    | with_reducible apply staysOut_next
    | with_reducible apply modInput_stays
    | with_reducible apply setPair_stays
    | with_reducible apply tryStart_stays
    | split

theorem execResetN_stays {a s : State}  (h : Stays a s) :
    StaysOut a (execResetN s) := by
  unfold execResetN
  repeat' first
    | with_reducible assumption
    | with_reducible apply staysOut_next
    | with_reducible apply State.cleared_stays
    | with_reducible apply modInput_stays
    | split

theorem execResetNRelease_stays {a s : State}  (h : Stays a s) :
    StaysOut a (execResetNRelease s) := by
  unfold execResetNRelease
  repeat' first
    | with_reducible assumption
    | with_reducible apply staysOut_next
    | with_reducible apply boot_stays
    | with_reducible apply modInput_stays
    | split

theorem execModuleReset_stays {a s : State}  (h : Stays a s) :
    StaysOut a (execModuleReset s) := by
  unfold execModuleReset
  repeat' first
    | with_reducible assumption
    | with_reducible apply staysOut_next
    | with_reducible apply moduleReset_stays
    | split

theorem execStewardFault_stays {a s : State} (canLog : Bool) (h : Stays a s) :
    StaysOut a (execStewardFault canLog s) := by
  unfold execStewardFault
  repeat' first
    | with_reducible assumption
    | with_reducible apply staysOut_next
    | with_reducible apply modRecov_stays
    | with_reducible apply moduleReset_stays
    | split

theorem execCoolantRead_stays {a s : State} (x : Sensor) (h : Stays a s) :
    StaysOut a (execCoolantRead x s) := by
  unfold execCoolantRead
  repeat' first
    | with_reducible assumption
    | with_reducible apply staysOut_next
    | with_reducible apply draw_stays
    | with_reducible apply modInput_stays
    | with_reducible apply raiseCool_stays
    | with_reducible apply raiseInput_stays
    | split

end Sys2Proof.Machine
end

