-- ==== Sys2Proof/Laws/StepLadle.lean ====
section
/-! SUPPORT. Laws/StepLadle.lean: the meanings of Machine/Ladle.lean leave the queue of waiting commands alone and keep the commit
record legal. -/

namespace Sys2Proof.Machine

theorem execLadleArm_stays {a s : State} (p : Pid) (h : Stays a s) :
    StaysOut a (execLadleArm p s) := by
  unfold execLadleArm
  repeat' first
    | with_reducible assumption
    | with_reducible refine fun _ => ?_
    | with_reducible apply staysOut_next
    | with_reducible apply finishWord_stays
    | with_reducible apply issueWord_stays
    | with_reducible apply modLd_stays
    | with_reducible apply rejectArm_stays
    | with_reducible apply startStream_stays
    | with_reducible apply walkChain_stays
    | (split <;> try (rename_i hq; first
        | refine Stays.cut (Stays.ofPair (a := a) hq ?_) (fun _ => ?_)
        | refine Stays.cut (Stays.ofPair2 (a := a) hq ?_) (fun _ => ?_)
        | refine Stays.cut (Stays.ofPair3 (a := a) hq ?_) (fun _ => ?_)
        | refine Stays.cut (Stays.ofOpt (a := a) hq ?_) (fun _ => ?_)
        | refine Stays.cut (Stays.ofOptSnd (a := a) hq ?_) (fun _ => ?_)))
    | (lift_lets; intro t;
        clear_value t)
    | intro _

theorem execLadleStop_stays {a s : State} (p : Pid) (h : Stays a s) :
    StaysOut a (execLadleStop p s) := by
  unfold execLadleStop
  repeat' first
    | with_reducible assumption
    | with_reducible refine fun _ => ?_
    | with_reducible apply staysOut_next
    | with_reducible apply advance_stays
    | with_reducible apply issueWord_stays
    | with_reducible apply modLd_stays
    | with_reducible apply postCompletion_stays
    | with_reducible apply stopLadle_stays
    | split
    | simp only [stays_upd]

theorem execLadleStopDone_stays {a s : State} (p : Pid) (l : Fin 8) (h : Stays a s) :
    StaysOut a (execLadleStopDone p l s) := by
  unfold execLadleStopDone
  repeat' first
    | with_reducible assumption
    | with_reducible apply staysOut_next
    | with_reducible apply modLd_stays
    | with_reducible apply postCompletion_stays
    | with_reducible refine Stays.foldl (fun _ _ _ => ?_) ?_
    | with_reducible refine Stays.foldlSnd (fun _ _ _ _ => ?_) ?_
    | split
    | simp only [stays_upd]

theorem execLadleFault_stays {a s : State} (p : Pid) (l : Fin 8) (cause : Nat) (h : Stays a s) :
    StaysOut a (execLadleFault p l cause s) := by
  unfold execLadleFault
  repeat' first
    | with_reducible assumption
    | with_reducible apply staysOut_next
    | with_reducible apply faultLadle_stays
    | split
    | (lift_lets; intro t;
        clear_value t)

theorem execLadleBlockStart_stays {a s : State} (p : Pid) (l : Fin 8) (h : Stays a s) :
    StaysOut a (execLadleBlockStart p l s) := by
  unfold execLadleBlockStart
  repeat' first
    | with_reducible assumption
    | with_reducible apply staysOut_next
    | with_reducible apply draw_stays
    | with_reducible apply emptyBlock_stays
    | with_reducible apply finishStream_stays
    | with_reducible apply loadList_stays
    | with_reducible apply modLd_stays
    | with_reducible apply nextBlock_stays
    | split
    | simp only [stays_upd]

theorem execLadlePortionIssue_stays {a s : State} (p : Pid) (l : Fin 8) (h : Stays a s) :
    StaysOut a (execLadlePortionIssue p l s) := by
  unfold execLadlePortionIssue
  extract_lets d
  split
  · exact h
  · rename_i r _
    split
    · exact h
    · extract_lets b
      split
      rename_i rows rowLen _
      extract_lets len rowEnd last x
      split
      rename_i hc
      have h1 := Stays.ofPair hc (draw_stays h)
      split
      rename_i hc2
      have h2 := Stays.ofPair hc2 (draw_stays h1)
      extract_lets s1 s2 s3 s4
      have hs2 : Stays a s2 := readSource_stays p l _ b _ _ _ (modLd_stays p l _ h2)
      clear_value s2
      have hs3 : Stays a s3 := by
        unfold s3
        split
        · exact writeMemory_stays p l _ b _ _ _ hs2
        · exact sendReady_stays _ p l hs2
      split
      · exact hs3
      · have hs4 : Stays a s4 := by
          unfold s4
          split
          · exact slotRelease_stays p _ hs3
          · exact hs3
        exact staysOut_next (nextBlock_stays p l _ hs4)

theorem execLadlePortionComplete_stays {a s : State} (p : Pid) (l : Fin 8) (tag : Nat) (cycles : Nat) (h : Stays a s) :
    StaysOut a (execLadlePortionComplete p l tag cycles s) := by
  unfold execLadlePortionComplete
  repeat' first
    | with_reducible assumption
    | with_reducible apply staysOut_next
    | with_reducible apply finishBlock_stays
    | with_reducible apply finishStream_stays
    | with_reducible apply modLd_stays
    | with_reducible apply noteLatency_stays
    | with_reducible apply tapValues_stays
    | with_reducible apply writeLocal_stays
    | (split <;> try (rename_i hq; first
        | refine Stays.cut (Stays.ofPair (a := a) hq ?_) (fun _ => ?_)
        | refine Stays.cut (Stays.ofPair2 (a := a) hq ?_) (fun _ => ?_)
        | refine Stays.cut (Stays.ofPair3 (a := a) hq ?_) (fun _ => ?_)
        | refine Stays.cut (Stays.ofOpt (a := a) hq ?_) (fun _ => ?_)
        | refine Stays.cut (Stays.ofOptSnd (a := a) hq ?_) (fun _ => ?_)))
    | simp only [stays_upd]

theorem execMemTimeout_stays {a s : State} (p : Pid) (l : Fin 8) (tag : Nat) (h : Stays a s) :
    StaysOut a (execMemTimeout p l tag s) := by
  unfold execMemTimeout
  repeat' first
    | with_reducible assumption
    | with_reducible apply staysOut_next
    | with_reducible apply faultLadle_stays
    | with_reducible apply modLd_stays
    | split

end Sys2Proof.Machine
end

