-- ==== Sys2Proof/Laws/StepLinks.lean ====
section
/-! SUPPORT. Laws/StepLinks.lean: the meanings of Machine/Links.lean leave the queue of waiting commands alone and keep the commit
record legal. -/

namespace Sys2Proof.Machine

theorem execNakReceived_stays {a s : State} (port : Slice) (lane : Fin 32) (h : Stays a s) :
    StaysOut a (execNakReceived port lane s) := by
  unfold execNakReceived
  repeat' first
    | with_reducible assumption
    | with_reducible apply staysOut_next
    | with_reducible apply replayLane_stays
    | split

theorem execReplayTimeout_stays {a s : State} (port : Slice) (lane : Fin 32) (h : Stays a s) :
    StaysOut a (execReplayTimeout port lane s) := by
  unfold execReplayTimeout
  repeat' first
    | with_reducible assumption
    | with_reducible apply staysOut_next
    | with_reducible apply replayLane_stays
    | split

theorem execLinkFrameReceived_stays {a s : State} (port : Slice) (lane : Fin 32) (frame : Frame) (corrected crcOk : Bool) (h : Stays a s) :
    StaysOut a (execLinkFrameReceived port lane frame corrected crcOk s) := by
  unfold execLinkFrameReceived
  repeat' first
    | with_reducible assumption
    | with_reducible apply staysOut_next
    | with_reducible apply acceptFrame_stays
    | with_reducible apply draw_stays
    | with_reducible apply modPort_stays
    | with_reducible apply noteDiscard_stays
    | with_reducible apply takeLinkWord_stays
    | (split <;> try (rename_i hq; first
        | refine Stays.cut (Stays.ofPair (a := a) hq ?_) (fun _ => ?_)
        | refine Stays.cut (Stays.ofPair2 (a := a) hq ?_) (fun _ => ?_)
        | refine Stays.cut (Stays.ofPair3 (a := a) hq ?_) (fun _ => ?_)
        | refine Stays.cut (Stays.ofOpt (a := a) hq ?_) (fun _ => ?_)
        | refine Stays.cut (Stays.ofOptSnd (a := a) hq ?_) (fun _ => ?_)))
    | simp only [stays_upd]

theorem execLaneLockLost_stays {a s : State} (port : Slice) (_lane : Fin 32) (h : Stays a s) :
    StaysOut a (execLaneLockLost port _lane s) := by
  unfold execLaneLockLost
  repeat' first
    | with_reducible assumption
    | with_reducible apply staysOut_next
    | with_reducible apply failPort_stays
    | split

theorem execLaneBerWindow_stays {a s : State} (port : Slice) (lane : Fin 32) (ber : W32) (h : Stays a s) :
    StaysOut a (execLaneBerWindow port lane ber s) := by
  unfold execLaneBerWindow
  repeat' first
    | with_reducible assumption
    | with_reducible apply staysOut_next
    | with_reducible apply failPort_stays
    | with_reducible apply modPort_stays
    | with_reducible apply raisePort_stays
    | split
    | simp only [stays_upd]

theorem execPortFailedTimeout_stays {a s : State} (port : Slice) (h : Stays a s) :
    StaysOut a (execPortFailedTimeout port s) := by
  unfold execPortFailedTimeout
  repeat' first
    | with_reducible assumption
    | with_reducible apply staysOut_next
    | with_reducible apply modPort_stays
    | split

theorem execCodewordLock_stays {a s : State} (port : Slice) (h : Stays a s) :
    StaysOut a (execCodewordLock port s) := by
  unfold execCodewordLock
  repeat' first
    | with_reducible assumption
    | with_reducible apply staysOut_next
    | with_reducible apply modPort_stays
    | split

theorem execTrainingDone_stays {a s : State} (port : Slice) (rttNs : Nat) (h : Stays a s) :
    StaysOut a (execTrainingDone port rttNs s) := by
  unfold execTrainingDone
  repeat' first
    | with_reducible assumption
    | with_reducible apply staysOut_next
    | with_reducible apply modPort_stays
    | with_reducible apply raisePort_stays
    | with_reducible apply sendHello_stays
    | split

theorem execTrainingTimeout_stays {a s : State} (port : Slice) (h : Stays a s) :
    StaysOut a (execTrainingTimeout port s) := by
  unfold execTrainingTimeout
  repeat' first
    | with_reducible assumption
    | with_reducible apply staysOut_next
    | with_reducible apply modPort_stays
    | split

theorem execLinkHello_stays {a s : State} (port : Slice) (k : Nat) (h : Stays a s) :
    StaysOut a (execLinkHello port k s) := by
  unfold execLinkHello
  split
  · exact h
  · rename_i c _
    extract_lets s1 hb s2 coord was s3
    have h2 : Stays a s2 := noteIdentity_stays port _ (dropLanded_stays port k h)
    clear_value s2
    have h3 : Stays a s3 := modPort_stays port _ h2
    clear_value s3
    split
    · split
      · exact staysOut_next (discover_stays (joinDone_stays port (sendJoin_stays port (modPort_stays port _ h3))))
      · exact staysOut_next (raisePort_stays port _ _ (modPort_stays port _ h3))
    · refine staysOut_next ?_
      split
      · exact h3
      · exact modPort_stays port _ h3
    · exact staysOut_next (discover_stays h3)

theorem execHelloPeriod_stays {a s : State} (port : Slice) (h : Stays a s) :
    StaysOut a (execHelloPeriod port s) := by
  unfold execHelloPeriod
  repeat' first
    | with_reducible assumption
    | with_reducible apply staysOut_next
    | with_reducible apply sendHello_stays
    | split

theorem execJoin_stays {a s : State} (port : Slice) (k : Nat) (h : Stays a s) :
    StaysOut a (execJoin port k s) := by
  unfold execJoin
  repeat' first
    | with_reducible assumption
    | with_reducible apply staysOut_next
    | with_reducible apply discover_stays
    | with_reducible apply dropLanded_stays
    | with_reducible apply joinDone_stays
    | with_reducible apply modPort_stays
    | with_reducible apply sendJoin_stays
    | split

theorem execQuiesce_stays {a s : State} (port : Slice) (k : Nat) (h : Stays a s) :
    StaysOut a (execQuiesce port k s) := by
  unfold execQuiesce
  repeat' first
    | with_reducible assumption
    | with_reducible apply staysOut_next
    | with_reducible apply beginDrain_stays
    | with_reducible apply dropLanded_stays
    | split

theorem execLast_stays {a s : State} (port : Slice) (k : Nat) (h : Stays a s) :
    StaysOut a (execLast port k s) := by
  unfold execLast
  repeat' first
    | with_reducible assumption
    | with_reducible apply staysOut_next
    | with_reducible apply drainDone_stays
    | with_reducible apply dropLanded_stays
    | with_reducible apply modPort_stays
    | split

theorem execPortEnableWrite_stays {a s : State} (port : Slice) (r : Req) (h : Stays a s) :
    StaysOut a (execPortEnableWrite port r s) := by
  unfold execPortEnableWrite
  repeat' first
    | with_reducible assumption
    | with_reducible apply staysOut_next
    | with_reducible apply serveWrite_stays
    | with_reducible apply wPortEnable_stays
    | intro _

theorem execCartridgePrepare_stays {a s : State} (bay : Fin 16) (r : Req) (h : Stays a s) :
    StaysOut a (execCartridgePrepare bay r s) := by
  unfold execCartridgePrepare
  repeat' first
    | with_reducible assumption
    | with_reducible apply staysOut_next
    | with_reducible apply serveWrite_stays
    | with_reducible apply wCartridgePrepare_stays
    | intro _

theorem execCartridgeReady_stays {a s : State} (bay : Fin 16) (h : Stays a s) :
    StaysOut a (execCartridgeReady bay s) := by
  unfold execCartridgeReady
  repeat' first
    | with_reducible assumption
    | with_reducible apply staysOut_next
    | with_reducible apply bayReady_stays
    | split
    | (lift_lets; intro t;
        clear_value t)

theorem execCartridgeInserted_stays {a s : State} (bay : Fin 16) (serial : List Byte) (h : Stays a s) :
    StaysOut a (execCartridgeInserted bay serial s) := by
  unfold execCartridgeInserted
  repeat' first
    | with_reducible assumption
    | with_reducible apply staysOut_next
    | with_reducible apply modBay_stays
    | split

theorem execCartridgeLit_stays {a s : State} (bay : Fin 16) (h : Stays a s) :
    StaysOut a (execCartridgeLit bay s) := by
  unfold execCartridgeLit
  repeat' first
    | with_reducible assumption
    | with_reducible apply staysOut_next
    | with_reducible apply modBay_stays
    | with_reducible apply modPort_stays
    | with_reducible apply portUp_stays
    | with_reducible refine Stays.foldl (fun _ _ _ => ?_) ?_
    | with_reducible refine Stays.foldlSnd (fun _ _ _ _ => ?_) ?_
    | split

theorem execCartridgeFailed_stays {a s : State} (bay : Fin 16) (h : Stays a s) :
    StaysOut a (execCartridgeFailed bay s) := by
  unfold execCartridgeFailed
  repeat' first
    | with_reducible assumption
    | with_reducible apply staysOut_next
    | with_reducible apply modBay_stays
    | with_reducible apply portDark_stays
    | with_reducible apply raiseBay_stays
    | with_reducible refine Stays.foldl (fun _ _ _ => ?_) ?_
    | with_reducible refine Stays.foldlSnd (fun _ _ _ _ => ?_) ?_
    | split

theorem execCartridgeRemoved_stays {a s : State} (bay : Fin 16) (h : Stays a s) :
    StaysOut a (execCartridgeRemoved bay s) := by
  unfold execCartridgeRemoved
  repeat' first
    | with_reducible assumption
    | with_reducible apply staysOut_next
    | with_reducible apply disablePort_stays
    | with_reducible apply failPort_stays
    | with_reducible apply modBay_stays
    | with_reducible refine Stays.foldl (fun _ _ _ => ?_) ?_
    | with_reducible refine Stays.foldlSnd (fun _ _ _ _ => ?_) ?_
    | split

theorem execCartridgeWear_stays {a s : State} (bay : Fin 16) (bias : Nat) (h : Stays a s) :
    StaysOut a (execCartridgeWear bay bias s) := by
  unfold execCartridgeWear
  repeat' first
    | with_reducible assumption
    | with_reducible apply staysOut_next
    | with_reducible apply modBay_stays
    | with_reducible apply raiseBay_stays
    | split
    | simp only [stays_upd]

theorem execClaimPeriod_stays {a s : State}  (h : Stays a s) :
    StaysOut a (execClaimPeriod s) := by
  unfold execClaimPeriod
  repeat' first
    | with_reducible assumption
    | with_reducible apply staysOut_next
    | with_reducible apply sendNeighbour_stays
    | with_reducible refine Stays.foldl (fun _ _ _ => ?_) ?_
    | with_reducible refine Stays.foldlSnd (fun _ _ _ _ => ?_) ?_
    | split

theorem execClaim_stays {a s : State} (port : Slice) (k : Nat) (h : Stays a s) :
    StaysOut a (execClaim port k s) := by
  unfold execClaim
  repeat' first
    | with_reducible assumption
    | with_reducible apply staysOut_next
    | with_reducible apply discover_stays
    | with_reducible apply dropLanded_stays
    | with_reducible apply modPort_stays
    | with_reducible apply modTorus_stays
    | with_reducible apply raisePort_stays
    | split
    | simp only [stays_upd]

theorem execTorusSettingsWrite_stays {a s : State} (sub : Nat) (r : Req) (h : Stays a s) :
    StaysOut a (execTorusSettingsWrite sub r s) := by
  unfold execTorusSettingsWrite
  repeat' first
    | with_reducible assumption
    | with_reducible apply staysOut_next
    | with_reducible apply serveWrite_stays
    | with_reducible apply wTorus_stays
    | intro _

theorem execCoordConfirm_stays {a s : State} (r : Req) (h : Stays a s) :
    StaysOut a (execCoordConfirm r s) := by
  unfold execCoordConfirm
  repeat' first
    | with_reducible assumption
    | with_reducible apply staysOut_next
    | with_reducible apply serveWrite_stays
    | with_reducible apply wCoordConfirm_stays
    | intro _

end Sys2Proof.Machine
end

