-- ==== Sys2Proof/Laws/StepManage.lean ====
section
/-! SUPPORT. Laws/StepManage.lean: the meanings of Machine/Manage.lean leave the queue of waiting commands alone and keep the commit
record legal. -/

namespace Sys2Proof.Machine

theorem execShupoHello_stays {a s : State} (port : Fin 2) (clientKey clientEph clientNonce : List Byte) (h : Stays a s) :
    StaysOut a (execShupoHello port clientKey clientEph clientNonce s) := by
  unfold execShupoHello
  split
  · exact h
  · extract_lets s1
    have h1 : Stays a s1 := frameIn_stays h
    clear_value s1
    split
    · exact sendRefuse_stays _ h1
    · exact h1

theorem execProof_stays {a s : State} (session : Nat) (signature : List Byte) (h : Stays a s) :
    StaysOut a (execProof session signature s) := by
  unfold execProof
  repeat' first
    | with_reducible assumption
    | with_reducible apply staysOut_next
    | with_reducible apply endSession_stays
    | with_reducible apply frameBad_stays
    | with_reducible apply frameIn_stays
    | with_reducible apply modDict_stays
    | with_reducible apply sendRefuse_stays
    | split
    | simp only [stays_upd]

theorem execProofTimeout_stays {a s : State} (session : Nat) (h : Stays a s) :
    StaysOut a (execProofTimeout session s) := by
  unfold execProofTimeout
  repeat' first
    | with_reducible assumption
    | with_reducible apply staysOut_next
    | with_reducible apply endSession_stays
    | with_reducible apply refuse_stays
    | split

theorem execClose_stays {a s : State} (session : Nat) (tagOk : Bool) (h : Stays a s) :
    StaysOut a (execClose session tagOk s) := by
  unfold execClose
  repeat' first
    | with_reducible assumption
    | with_reducible apply staysOut_next
    | with_reducible apply endSession_stays
    | with_reducible apply frameBad_stays
    | with_reducible apply frameIn_stays
    | (extract_lets +onlyGivenNames t; first
        | (refine Stays.cut (a := a) (t := t) ?_ (fun ht => ?_); on_goal 2 => clear_value t; on_goal 1 => (unfold t; clear t))
        | (have _ : Option State := t; unfold t; clear t))
    | split

theorem execSessionTimeout_stays {a s : State} (session : Nat) (h : Stays a s) :
    StaysOut a (execSessionTimeout session s) := by
  unfold execSessionTimeout
  repeat' first
    | with_reducible assumption
    | with_reducible apply staysOut_next
    | with_reducible apply endSession_stays
    | split

theorem execSubscribe_stays {a s : State} (r : Req) (h : Stays a s) :
    StaysOut a (execSubscribe r s) := by
  unfold execSubscribe
  repeat' first
    | with_reducible assumption
    | with_reducible apply staysOut_next
    | with_reducible apply serveOp_stays
    | with_reducible apply subscribeOp_stays
    | split
    | intro _

theorem execChainFrame_stays {a s : State} (f : ChainFrame) (crcOk : Bool) (h : Stays a s) :
    StaysOut a (execChainFrame f crcOk s) := by
  unfold execChainFrame
  repeat' first
    | with_reducible assumption
    | with_reducible apply staysOut_next
    | with_reducible apply chainArrives_stays

theorem execAssign_stays {a s : State} (f : ChainFrame) (h : Stays a s) :
    StaysOut a (execAssign f s) := by
  unfold execAssign
  repeat' first
    | with_reducible assumption
    | with_reducible apply staysOut_next
    | with_reducible apply chainArrives_stays
    | split

theorem execClearAddress_stays {a s : State} (f : ChainFrame) (h : Stays a s) :
    StaysOut a (execClearAddress f s) := by
  unfold execClearAddress
  repeat' first
    | with_reducible assumption
    | with_reducible apply staysOut_next
    | with_reducible apply chainArrives_stays
    | split

theorem execChainInputLost_stays {a s : State}  (h : Stays a s) :
    StaysOut a (execChainInputLost s) := by
  unfold execChainInputLost
  repeat' first
    | with_reducible assumption
    | with_reducible apply staysOut_next
    | with_reducible apply modDict_stays
    | with_reducible apply raiseMod_stays
    | split

theorem execChainBypassOpen_stays {a s : State}  (h : Stays a s) :
    StaysOut a (execChainBypassOpen s) := by
  unfold execChainBypassOpen
  repeat' first
    | with_reducible assumption
    | with_reducible apply staysOut_next
    | with_reducible apply modDict_stays
    | split

theorem execNodeIdWrite_stays {a s : State} (r : Req) (h : Stays a s) :
    StaysOut a (execNodeIdWrite r s) := by
  unfold execNodeIdWrite
  repeat' first
    | with_reducible assumption
    | with_reducible apply staysOut_next
    | with_reducible apply serveWrite_stays
    | with_reducible apply wNodeId_stays
    | intro _

theorem execIpConfigWrite_stays {a s : State} (port : Fin 2) (r : Req) (h : Stays a s) :
    StaysOut a (execIpConfigWrite port r s) := by
  unfold execIpConfigWrite
  repeat' first
    | with_reducible assumption
    | with_reducible apply staysOut_next
    | with_reducible apply serveWrite_stays
    | with_reducible apply wIpConfig_stays
    | intro _

theorem execIpConfigApply_stays {a s : State} (port : Fin 2) (h : Stays a s) :
    StaysOut a (execIpConfigApply port s) := by
  unfold execIpConfigApply
  repeat' first
    | with_reducible assumption
    | with_reducible apply staysOut_next
    | with_reducible apply modDict_stays
    | split

theorem execCommandStart_stays {a s : State} (r : Req) (h : Stays a s) :
    StaysOut a (execCommandStart r s) := by
  unfold execCommandStart
  repeat' first
    | with_reducible assumption
    | with_reducible apply staysOut_next
    | with_reducible apply command_stays

theorem execCommandPause_stays {a s : State} (r : Req) (h : Stays a s) :
    StaysOut a (execCommandPause r s) := by
  unfold execCommandPause
  repeat' first
    | with_reducible assumption
    | with_reducible apply staysOut_next
    | with_reducible apply command_stays

theorem execCommandStop_stays {a s : State} (r : Req) (h : Stays a s) :
    StaysOut a (execCommandStop r s) := by
  unfold execCommandStop
  repeat' first
    | with_reducible assumption
    | with_reducible apply staysOut_next
    | with_reducible apply command_stays

theorem execCommandResume_stays {a s : State} (r : Req) (h : Stays a s) :
    StaysOut a (execCommandResume r s) := by
  unfold execCommandResume
  repeat' first
    | with_reducible assumption
    | with_reducible apply staysOut_next
    | with_reducible apply command_stays

theorem execEnterService_stays {a s : State} (r : Req) (h : Stays a s) :
    StaysOut a (execEnterService r s) := by
  unfold execEnterService
  repeat' first
    | with_reducible assumption
    | with_reducible apply staysOut_next
    | with_reducible apply command_stays

theorem execCommandReset_stays {a s : State} (r : Req) (h : Stays a s) :
    StaysOut a (execCommandReset r s) := by
  unfold execCommandReset
  repeat' first
    | with_reducible assumption
    | with_reducible apply staysOut_next
    | with_reducible apply command_stays

theorem write12_stays {a s : State} (index sub : Nat) (r : Req) (h : Stays a s) : Stays a (write12 index sub r s).2 := by
  unfold write12
  split
  · exact wNodeId_stays r h
  · exact wIpConfig_stays _ r h
  · exact wCommand_stays r h
  · exact wSparesLow_stays r h
  · exact wKept_stays _ _ r h
  · exact wHoleRequest_stays r h
  · exact wPlanOffset_stays r h
  · exact wPlanData_stays r h
  · exact wPlanCommand_stays r h
  · exact wJobSeed_stays r h
  · exact wJobStart_stays r h
  · exact wJobAddress_stays r h
  · exact wJobData_stays r h

theorem write34_stays {a s : State} (index sub : Nat) (r : Req) (h : Stays a s) : Stays a (write34 index sub r s).2 := by
  unfold write34
  split
  · exact wBaseCap_stays r h
  · exact wMaxPoint_stays r h
  · exact wCapProfile_stays _ r h
  · exact wThrottleTemp_stays r h
  · exact wRestoreLimit_stays r h
  · exact wBeatSource_stays r h
  · exact wBeatLinkPort_stays r h
  · exact wCbcLoad_stays r h
  · exact wMarkSource_stays r h
  · exact wMarkDelay_stays r h
  · exact wMarkSend_stays r h
  · exact wSchedEntry_stays _ r h
  · exact wPortEnable_stays _ r h
  · exact wCartridgePrepare_stays _ r h
  · exact wBerWarn_stays r h
  · exact wTorus_stays _ r h
  · exact wCoordConfirm_stays r h

theorem write58_stays {a s : State} (index sub : Nat) (r : Req) (h : Stays a s) : Stays a (write58 index sub r s).2 := by
  unfold write58
  split
  · exact wCeRowLimit_stays r h
  · exact wApplyStep_stays r h
  · exact wOptimizer_stays _ r h
  · exact wClassRange_stays _ r h
  · exact wCeRetire_stays r h
  · exact wKept_stays _ _ r h
  · exact wKept_stays _ _ r h
  · exact wQuietThreshold_stays r h
  · exact wQuietSteps_stays r h
  · exact wKept_stays _ _ r h
  · exact wClipNorm_stays r h
  · exact wSkipLimit_stays r h
  · exact wOrdered_stays r h
  · exact wCheckDivisor_stays r h
  · exact wStallLimit_stays r h
  · exact wStepLimit_stays r h
  · exact wKept_stays _ _ r h
  · exact wReduceEpoch_stays r h
  · exact wKept_stays _ _ r h
  · exact wKept_stays _ _ r h
  · exact wAlertAck_stays r h
  · exact wRollbackLimit_stays r h
  · exact wNonce_stays r h
  · exact wUpdateOffset_stays r h
  · exact wUpdateData_stays r h
  · exact wUpdateCommand_stays r h
  · exact wOwnerKey_stays r h

theorem execDictWrite_stays {a s : State} (index sub : Nat) (r : Req) (h : Stays a s) :
    StaysOut a (execDictWrite index sub r s) := by
  refine staysOut_next (serveWrite_stays r index sub _ h (fun t ht => ?_))
  split
  · exact write12_stays index sub r ht
  · split
    · exact write34_stays index sub r ht
    · split
      · exact write58_stays index sub r ht
      · exact ht

end Sys2Proof.Machine
end

