-- ==== Sys2Proof/Laws/StepMesh.lean ====
section
/-! SUPPORT. Laws/StepMesh.lean: the meanings of Machine/Mesh.lean leave the queue of waiting commands alone and keep the commit
record legal. -/

namespace Sys2Proof.Machine

theorem execFlitHop_stays {a s : State} (node : Fin 68) (out : Fin 16) (cls : TClass) (vc : Fin 3) (fails : Nat) (h : Stays a s) :
    StaysOut a (execFlitHop node out cls vc fails s) := by
  unfold execFlitHop
  repeat' first
    | with_reducible assumption
    | with_reducible apply staysOut_next
    | with_reducible apply cobaltHop_stays
    | with_reducible apply hopInject_stays
    | with_reducible apply hopLink_stays
    | with_reducible apply hopLocal_stays
    | with_reducible apply hopSeam_stays
    | with_reducible apply hopStrip_stays
    | split

theorem execMcastBranchRelease_stays {a s : State} (node : Fin 68) (out : Fin 16) (h : Stays a s) :
    StaysOut a (execMcastBranchRelease node out s) := by
  unfold execMcastBranchRelease
  repeat' first
    | with_reducible assumption
    | with_reducible apply staysOut_next
    | with_reducible apply releaseBranch_stays

theorem execRouterParity_stays {a s : State} (node : Fin 68) (cobalt : Bool) (h : Stays a s) :
    StaysOut a (execRouterParity node cobalt s) := by
  unfold execRouterParity
  repeat' first
    | with_reducible assumption
    | with_reducible apply staysOut_next
    | with_reducible apply modRt_stays
    | with_reducible apply raise_stays
    | split

theorem execFlitLanding_stays {a s : State} (p : Pid) (cls : TClass) (h : Stays a s) :
    StaysOut a (execFlitLanding p cls s) := by
  unfold execFlitLanding
  repeat' first
    | with_reducible assumption
    | with_reducible apply staysOut_next
    | with_reducible apply countLanded_stays
    | with_reducible apply landWrite_stays
    | with_reducible apply offDiscard_stays
    | with_reducible apply sendAcks_stays
    | with_reducible apply setLanding_stays
    | split

theorem execMergeLanding_stays {a s : State} (p : Pid) (h : Stays a s) :
    StaysOut a (execMergeLanding p s) := by
  unfold execMergeLanding
  repeat' first
    | with_reducible assumption
    | with_reducible apply staysOut_next
    | with_reducible apply countLanded_stays
    | with_reducible apply giveCredit_stays
    | with_reducible apply mergeWrite_stays
    | with_reducible apply modRt_stays
    | with_reducible apply noteMergeWait_stays
    | with_reducible apply offDiscard_stays
    | with_reducible apply refuseMerge_stays
    | with_reducible apply sendAcks_stays
    | with_reducible apply setLanding_stays
    | split

theorem execOrderedMerge_stays {a s : State} (p : Pid) (h : Stays a s) :
    StaysOut a (execOrderedMerge p s) := by
  unfold execOrderedMerge
  repeat' first
    | with_reducible assumption
    | with_reducible apply staysOut_next
    | with_reducible apply giveCredit_stays
    | with_reducible apply mergeWrite_stays
    | with_reducible apply modRt_stays
    | with_reducible refine Stays.foldl (fun _ _ _ => ?_) ?_
    | with_reducible refine Stays.foldlSnd (fun _ _ _ _ => ?_) ?_
    | split
    | simp only [stays_upd]

theorem execCancelReceived_stays {a s : State} (p : Pid) (cls : TClass) (h : Stays a s) :
    StaysOut a (execCancelReceived p cls s) := by
  unfold execCancelReceived
  repeat' first
    | with_reducible assumption
    | with_reducible apply staysOut_next
    | with_reducible apply countDiscard_stays
    | with_reducible apply setLanding_stays
    | split
    | (lift_lets; intro t;
        clear_value t)

theorem execMcastLag_stays {a s : State} (p : Pid) (l : Fin 8) (receiver : Pid) (h : Stays a s) :
    StaysOut a (execMcastLag p l receiver s) := by
  unfold execMcastLag
  repeat' first
    | with_reducible assumption
    | with_reducible apply staysOut_next
    | with_reducible apply draw_stays
    | with_reducible apply modLd_stays
    | with_reducible apply modRt_stays
    | with_reducible apply raiseRt_stays
    | (split <;> try (rename_i hq; first
        | refine Stays.cut (Stays.ofPair (a := a) hq ?_) (fun _ => ?_)
        | refine Stays.cut (Stays.ofPair2 (a := a) hq ?_) (fun _ => ?_)
        | refine Stays.cut (Stays.ofPair3 (a := a) hq ?_) (fun _ => ?_)
        | refine Stays.cut (Stays.ofOpt (a := a) hq ?_) (fun _ => ?_)
        | refine Stays.cut (Stays.ofOptSnd (a := a) hq ?_) (fun _ => ?_)))
    | simp only [stays_upd]

theorem execMeshHold_stays {a s : State}  (h : Stays a s) :
    StaysOut a (execMeshHold s) := by
  unfold execMeshHold
  repeat' first
    | with_reducible assumption
    | with_reducible apply staysOut_next
    | with_reducible apply holdMesh_stays
    | with_reducible apply sendReply_stays
    | split

theorem execMeshRelease_stays {a s : State}  (h : Stays a s) :
    StaysOut a (execMeshRelease s) := by
  unfold execMeshRelease
  repeat' first
    | with_reducible assumption
    | with_reducible apply staysOut_next
    | with_reducible apply releaseMesh_stays
    | with_reducible apply sendReply_stays
    | split

theorem execWestFullClock_stays {a s : State}  (h : Stays a s) :
    StaysOut a (execWestFullClock s) := by
  unfold execWestFullClock
  repeat' first
    | with_reducible assumption
    | with_reducible apply staysOut_next
    | with_reducible apply clockCtl_stays

theorem execWestHalfClock_stays {a s : State}  (h : Stays a s) :
    StaysOut a (execWestHalfClock s) := by
  unfold execWestHalfClock
  repeat' first
    | with_reducible assumption
    | with_reducible apply staysOut_next
    | with_reducible apply clockCtl_stays

theorem execEastFullClock_stays {a s : State}  (h : Stays a s) :
    StaysOut a (execEastFullClock s) := by
  unfold execEastFullClock
  repeat' first
    | with_reducible assumption
    | with_reducible apply staysOut_next
    | with_reducible apply clockCtl_stays

theorem execEastHalfClock_stays {a s : State}  (h : Stays a s) :
    StaysOut a (execEastHalfClock s) := by
  unfold execEastHalfClock
  repeat' first
    | with_reducible assumption
    | with_reducible apply staysOut_next
    | with_reducible apply clockCtl_stays

theorem execTableWrite_stays {a s : State} (node : Fin 68) (dest : Fin 128) (entry : W64) (h : Stays a s) :
    StaysOut a (execTableWrite node dest entry s) := by
  unfold execTableWrite
  repeat' first
    | with_reducible assumption
    | with_reducible apply staysOut_next
    | with_reducible apply modRt_stays
    | split
    | simp only [stays_upd]

end Sys2Proof.Machine
end

