-- ==== Sys2Proof/Laws/StepPantry.lean ====
section
/-! SUPPORT. Laws/StepPantry.lean: the meanings of Machine/Pantry.lean leave the queue of waiting commands alone and keep the commit
record legal. -/

namespace Sys2Proof.Machine

theorem execMemop_stays {a s : State} (p : Pid) (h : Stays a s) :
    StaysOut a (execMemop p s) := by
  unfold execMemop
  repeat' first
    | with_reducible assumption
    | with_reducible refine fun _ => ?_
    | with_reducible apply staysOut_next
    | with_reducible apply finishWord_stays
    | with_reducible apply issueWord_stays
    | with_reducible apply modPn_stays
    | with_reducible apply readRange_stays
    | split
    | simp only [stays_upd]

theorem execMemopDone_stays {a s : State} (p : Pid) (k : Nat) (h : Stays a s) :
    StaysOut a (execMemopDone p k s) := by
  unfold execMemopDone
  repeat' first
    | with_reducible assumption
    | with_reducible apply staysOut_next
    | with_reducible apply memopEnd_stays

theorem execSlotSet_stays {a s : State} (p : Pid) (h : Stays a s) :
    StaysOut a (execSlotSet p s) := by
  unfold execSlotSet
  repeat' first
    | with_reducible assumption
    | with_reducible refine fun _ => ?_
    | with_reducible apply staysOut_next
    | with_reducible apply finishWord_stays
    | with_reducible apply issueWord_stays
    | with_reducible apply modPn_stays
    | split
    | (lift_lets; intro t;
        clear_value t)

theorem execSlotReset_stays {a s : State} (p : Pid) (h : Stays a s) :
    StaysOut a (execSlotReset p s) := by
  unfold execSlotReset
  repeat' first
    | with_reducible assumption
    | with_reducible refine fun _ => ?_
    | with_reducible apply staysOut_next
    | with_reducible apply finishWord_stays
    | with_reducible apply issueWord_stays
    | with_reducible apply modPn_stays
    | split

theorem execSlotResetAll_stays {a s : State} (p : Pid) (h : Stays a s) :
    StaysOut a (execSlotResetAll p s) := by
  unfold execSlotResetAll
  repeat' first
    | with_reducible assumption
    | with_reducible refine fun _ => ?_
    | with_reducible apply staysOut_next
    | with_reducible apply finishWord_stays
    | with_reducible apply issueWord_stays
    | with_reducible apply modPn_stays
    | split

theorem execSlotComplete_stays {a s : State} (p : Pid) (h : Stays a s) :
    StaysOut a (execSlotComplete p s) := by
  unfold execSlotComplete
  repeat' first
    | with_reducible assumption
    | with_reducible refine fun _ => ?_
    | with_reducible apply staysOut_next
    | with_reducible apply finishWord_stays
    | with_reducible apply issueWord_stays
    | with_reducible apply slotCompletion_stays

theorem execSlotRelease_stays {a s : State} (p : Pid) (h : Stays a s) :
    StaysOut a (execSlotRelease p s) := by
  unfold execSlotRelease
  repeat' first
    | with_reducible assumption
    | with_reducible refine fun _ => ?_
    | with_reducible apply staysOut_next
    | with_reducible apply finishWord_stays
    | with_reducible apply issueWord_stays
    | with_reducible apply slotRelease_stays

theorem execSlotDrainDone_stays {a s : State} (p : Pid) (slot : Fin 4096) (h : Stays a s) :
    StaysOut a (execSlotDrainDone p slot s) := by
  unfold execSlotDrainDone
  repeat' first
    | with_reducible assumption
    | with_reducible apply staysOut_next
    | with_reducible apply modPn_stays
    | split

theorem execShelfOpen_stays {a s : State} (p : Pid) (steward : Option Nat) (h : Stays a s) :
    StaysOut a (execShelfOpen p steward s) := by
  refine staysOut_next ?_
  split
  · split
    · exact h
    · exact sendReply_stays _ _ _ (openShelf_stays p _ (recvCobalt_stays _ h))
  · exact issueWord_stays p _ _ h (fun t n w ht => shelfWord_stays p n w _ _ _ (openShelf_stays p _ ht))

theorem execShelfClose_stays {a s : State} (p : Pid) (steward : Option Nat) (h : Stays a s) :
    StaysOut a (execShelfClose p steward s) := by
  refine staysOut_next ?_
  split
  · split
    · exact h
    · exact sendReply_stays _ _ _ (closeShelf_stays p _ (recvCobalt_stays _ h))
  · exact issueWord_stays p _ _ h (fun t n w ht => shelfWord_stays p n w _ _ _ (closeShelf_stays p _ ht))

theorem execShelfWakeDone_stays {a s : State} (p : Pid) (shelf : Fin 15) (h : Stays a s) :
    StaysOut a (execShelfWakeDone p shelf s) := by
  unfold execShelfWakeDone
  repeat' first
    | with_reducible assumption
    | with_reducible apply staysOut_next
    | with_reducible apply releaseHold_stays
    | with_reducible apply setShelf_stays
    | with_reducible apply zeroShelf_stays
    | split

theorem execShelfCloseDone_stays {a s : State} (p : Pid) (shelf : Fin 15) (h : Stays a s) :
    StaysOut a (execShelfCloseDone p shelf s) := by
  unfold execShelfCloseDone
  repeat' first
    | with_reducible assumption
    | with_reducible apply staysOut_next
    | with_reducible apply releaseHold_stays
    | with_reducible apply setShelf_stays
    | with_reducible apply zeroShelf_stays
    | split

theorem execSlotLoad_stays {a s : State} (p : Pid) (errs : List (Nat × Bool)) (h : Stays a s) :
    StaysOut a (execSlotLoad p errs s) := by
  unfold execSlotLoad
  repeat' first
    | with_reducible assumption
    | with_reducible refine fun _ => ?_
    | with_reducible apply staysOut_next
    | with_reducible apply countOrder_stays
    | with_reducible apply finishWord_stays
    | with_reducible apply issueWord_stays
    | with_reducible apply readRange_stays
    | with_reducible apply setTr_stays
    | with_reducible apply strike_stays
    | with_reducible apply taskFault_stays
    | (split <;> try (rename_i hq; first
        | refine Stays.cut (Stays.ofPair (a := a) hq ?_) (fun _ => ?_)
        | refine Stays.cut (Stays.ofPair2 (a := a) hq ?_) (fun _ => ?_)
        | refine Stays.cut (Stays.ofPair3 (a := a) hq ?_) (fun _ => ?_)
        | refine Stays.cut (Stays.ofOpt (a := a) hq ?_) (fun _ => ?_)
        | refine Stays.cut (Stays.ofOptSnd (a := a) hq ?_) (fun _ => ?_)))

theorem execSlotStore_stays {a s : State} (p : Pid) (h : Stays a s) :
    StaysOut a (execSlotStore p s) := by
  unfold execSlotStore
  repeat' first
    | with_reducible assumption
    | with_reducible refine fun _ => ?_
    | with_reducible apply staysOut_next
    | with_reducible apply countOrder_stays
    | with_reducible apply finishWord_stays
    | with_reducible apply issueWord_stays
    | with_reducible apply produceWrite_stays
    | split

theorem execCorrectionWriteback_stays {a s : State} (p : Pid) (granule : Nat) (h : Stays a s) :
    StaysOut a (execCorrectionWriteback p granule s) := by
  unfold execCorrectionWriteback
  repeat' first
    | with_reducible assumption
    | with_reducible apply staysOut_next
    | with_reducible apply countCe_stays
    | with_reducible apply modPn_stays
    | split

theorem execScrubForce_stays {a s : State} (p : Pid) (bank : Fin 256) (h : Stays a s) :
    StaysOut a (execScrubForce p bank s) := by
  unfold execScrubForce
  repeat' first
    | with_reducible assumption
    | with_reducible apply staysOut_next
    | with_reducible apply modPn_stays
    | split

theorem execCeWindowEnd_stays {a s : State}  (h : Stays a s) :
    StaysOut a (execCeWindowEnd s) := h

end Sys2Proof.Machine
end

