-- ==== Sys2Proof/Laws/StepPlans.lean ====
section
/-! SUPPORT. Laws/StepPlans.lean: the meanings of Machine/Plans.lean leave the queue of waiting commands alone and keep the commit
record legal. -/

namespace Sys2Proof.Machine

theorem execLoadPlanDone_stays {a s : State}  (h : Stays a s) :
    StaysOut a (execLoadPlanDone s) := by
  unfold execLoadPlanDone
  repeat' first
    | with_reducible assumption
    | with_reducible apply staysOut_next
    | with_reducible apply endPlan_stays
    | with_reducible apply installPlan_stays
    | split

theorem execLoadJobDone_stays {a s : State}  (h : Stays a s) :
    StaysOut a (execLoadJobDone s) := by
  unfold execLoadJobDone
  repeat' first
    | with_reducible assumption
    | with_reducible apply staysOut_next
    | with_reducible apply endPlan_stays
    | split

theorem execPlanData_stays {a s : State} (r : Req) (h : Stays a s) :
    StaysOut a (execPlanData r s) := by
  unfold execPlanData
  repeat' first
    | with_reducible assumption
    | with_reducible apply staysOut_next
    | with_reducible apply serveWrite_stays
    | with_reducible apply wPlanData_stays
    | intro _

theorem execLoadPlan_stays {a s : State} (r : Req) (h : Stays a s) :
    StaysOut a (execLoadPlan r s) := by
  unfold execLoadPlan
  repeat' first
    | with_reducible assumption
    | with_reducible apply staysOut_next
    | with_reducible apply planCommand_stays

theorem execUnload_stays {a s : State} (r : Req) (h : Stays a s) :
    StaysOut a (execUnload r s) := by
  unfold execUnload
  repeat' first
    | with_reducible assumption
    | with_reducible apply staysOut_next
    | with_reducible apply planCommand_stays

theorem execLoadJob_stays {a s : State} (r : Req) (h : Stays a s) :
    StaysOut a (execLoadJob r s) := by
  unfold execLoadJob
  repeat' first
    | with_reducible assumption
    | with_reducible apply staysOut_next
    | with_reducible apply planCommand_stays

theorem execPlanDiscard_stays {a s : State} (r : Req) (h : Stays a s) :
    StaysOut a (execPlanDiscard r s) := by
  unfold execPlanDiscard
  repeat' first
    | with_reducible assumption
    | with_reducible apply staysOut_next
    | with_reducible apply planCommand_stays

theorem execJobAddressWrite_stays {a s : State} (r : Req) (h : Stays a s) :
    StaysOut a (execJobAddressWrite r s) := by
  unfold execJobAddressWrite
  repeat' first
    | with_reducible assumption
    | with_reducible apply staysOut_next
    | with_reducible apply serveWrite_stays
    | with_reducible apply wJobAddress_stays
    | intro _

theorem execJobData_stays {a s : State} (r : Req) (h : Stays a s) :
    StaysOut a (execJobData r s) := by
  unfold execJobData
  repeat' first
    | with_reducible assumption
    | with_reducible apply staysOut_next
    | with_reducible apply serveWrite_stays
    | with_reducible apply wJobData_stays
    | intro _

end Sys2Proof.Machine
end

