-- ==== Sys2Proof/Laws/StepPower.lean ====
section
/-! SUPPORT. Laws/StepPower.lean: the meanings of Machine/Power.lean leave the queue of waiting commands alone and keep the commit
record legal. -/

namespace Sys2Proof.Machine

theorem execDroopDetect_stays {a s : State} (p : Pid) (h : Stays a s) :
    StaysOut a (execDroopDetect p s) := by
  unfold execDroopDetect
  repeat' first
    | with_reducible assumption
    | with_reducible apply staysOut_next
    | with_reducible apply modMon_stays
    | split

theorem execDroopEnd_stays {a s : State} (p : Pid) (cycles : Nat) (h : Stays a s) :
    StaysOut a (execDroopEnd p cycles s) := by
  unfold execDroopEnd
  repeat' first
    | with_reducible assumption
    | with_reducible apply staysOut_next
    | with_reducible apply modMon_stays
    | split

theorem execDroopWindow_stays {a s : State} (p : Pid) (cycles : Nat) (stretched : Nat) (h : Stays a s) :
    StaysOut a (execDroopWindow p cycles stretched s) := by
  unfold execDroopWindow
  repeat' first
    | with_reducible assumption
    | with_reducible apply staysOut_next
    | with_reducible apply modMon_stays
    | with_reducible apply raiseMon_stays
    | with_reducible apply settle_stays
    | split
    | simp only [stays_upd]

theorem execBudgetEstimate_stays {a s : State} (p : Pid) (counts : List Nat) (tempC : Nat) (h : Stays a s) :
    StaysOut a (execBudgetEstimate p counts tempC s) := by
  unfold execBudgetEstimate
  repeat' first
    | with_reducible assumption
    | with_reducible apply staysOut_next
    | with_reducible apply climb_stays
    | with_reducible apply modMon_stays
    | with_reducible apply settle_stays
    | split
    | simp only [stays_upd]

theorem execLevelRampDone_stays {a s : State} (p : Pid) (h : Stays a s) :
    StaysOut a (execLevelRampDone p s) := by
  unfold execLevelRampDone
  repeat' first
    | with_reducible assumption
    | with_reducible apply staysOut_next
    | with_reducible apply modMon_stays
    | with_reducible apply setLevel_stays
    | split

theorem execModulePowerPeriod_stays {a s : State} (rimMw vinMin10mV busbarMw : Nat) (h : Stays a s) :
    StaysOut a (execModulePowerPeriod rimMw vinMin10mV busbarMw s) := by
  unfold execModulePowerPeriod
  split
  · exact h
  · extract_lets totals average s1 s2 s3 pool limited was src s4 s5 bs s6 above
    have h3 : Stays a s3 :=
      setCap_stays (Stays.foldl (fun _ p ht => settle_stays p (modMon_stays p _ ht)) (modPower_stays _ h))
    clear_value s3
    have h4 : Stays a s4 := h3
    clear_value s4
    have h5 : Stays a s5 := by
      unfold s5
      split
      · exact raiseInput_stays _ _ h4
      · exact h4
    clear_value s5
    have h6 : Stays a s6 := modPower_stays _ h5
    clear_value s6
    refine staysOut_next ?_
    split
    · exact raiseMod_stays _ _ (modPower_stays _ h6)
    · exact h6

theorem execPowerSet_stays {a s : State} (p : Pid) (budget : Nat) (limit : Nat) (thermal : Nat) (measured : Bool) (force : Nat) (rsv : Nat) (h : Stays a s) :
    StaysOut a (execPowerSet p budget limit thermal measured force rsv s) := by
  unfold execPowerSet
  repeat' first
    | with_reducible assumption
    | with_reducible apply staysOut_next
    | with_reducible apply modMon_stays
    | with_reducible apply recvCobalt_stays
    | with_reducible apply sendReply_stays
    | with_reducible apply settle_stays
    | (extract_lets +onlyGivenNames t; first
        | (refine Stays.cut (a := a) (t := t) ?_ (fun ht => ?_); on_goal 2 => clear_value t; on_goal 1 => (unfold t; clear t))
        | (have _ : Option State := t; unfold t; clear t)
        | clear_value t)
    | split

theorem execComputeOff_stays {a s : State} (p : Pid) (h : Stays a s) :
    StaysOut a (execComputeOff p s) := by
  unfold execComputeOff
  repeat' first
    | with_reducible assumption
    | with_reducible apply staysOut_next
    | with_reducible apply domainOff_stays
    | with_reducible apply modMon_stays
    | with_reducible apply modPower_stays
    | with_reducible apply raiseMon_stays
    | with_reducible apply recvCobalt_stays
    | with_reducible apply sendReply_stays
    | split
    | simp only [stays_upd]

theorem execComputeOn_stays {a s : State} (p : Pid) (h : Stays a s) :
    StaysOut a (execComputeOn p s) := by
  unfold execComputeOn
  repeat' first
    | with_reducible assumption
    | with_reducible apply staysOut_next
    | with_reducible apply domainOn_stays
    | with_reducible apply recvCobalt_stays
    | with_reducible apply restoreRegion_stays
    | with_reducible apply sendReply_stays
    | (extract_lets +onlyGivenNames t; first
        | (refine Stays.cut (a := a) (t := t) ?_ (fun ht => ?_); on_goal 2 => clear_value t; on_goal 1 => (unfold t; clear t))
        | (have _ : Option State := t; unfold t; clear t))
    | split

theorem execPowerCoeff_stays {a s : State} (p : Pid) (first : Nat) (coeffs : List W16) (h : Stays a s) :
    StaysOut a (execPowerCoeff p first coeffs s) := by
  unfold execPowerCoeff
  repeat' first
    | with_reducible assumption
    | with_reducible apply staysOut_next
    | with_reducible apply modMon_stays
    | with_reducible apply recvCobalt_stays
    | with_reducible apply sendReply_stays
    | with_reducible refine Stays.foldl (fun _ _ _ => ?_) ?_
    | with_reducible refine Stays.foldlSnd (fun _ _ _ _ => ?_) ?_
    | split
    | simp only [stays_upd]

theorem execCheckWindow_stays {a s : State} (scope : Option Pid) (estimate : Nat) (measuredMw : Nat) (h : Stays a s) :
    StaysOut a (execCheckWindow scope estimate measuredMw s) := by
  unfold execCheckWindow
  repeat' first
    | with_reducible assumption
    | with_reducible apply staysOut_next
    | with_reducible apply modMon_stays
    | with_reducible apply modPower_stays
    | with_reducible apply raiseMod_stays
    | with_reducible apply raise_stays
    | split

theorem execMeasuredPeriod_stays {a s : State} (p : Pid) (powerMw : Nat) (h : Stays a s) :
    StaysOut a (execMeasuredPeriod p powerMw s) := by
  unfold execMeasuredPeriod
  repeat' first
    | with_reducible assumption
    | with_reducible apply staysOut_next
    | with_reducible apply climb_stays
    | with_reducible apply draw_stays
    | with_reducible apply modMon_stays
    | with_reducible apply settle_stays
    | split

theorem execMarginMeasure_stays {a s : State} (p : Pid) (mhz : Nat) (h : Stays a s) :
    StaysOut a (execMarginMeasure p mhz s) := by
  unfold execMarginMeasure
  repeat' first
    | with_reducible assumption
    | with_reducible apply staysOut_next
    | with_reducible apply applyMargin_stays
    | split

theorem execThermalDownPeriod_stays {a s : State} (temps : List Nat) (h : Stays a s) :
    StaysOut a (execThermalDownPeriod temps s) := by
  unfold execThermalDownPeriod
  split
  · exact h
  · extract_lets s1 lim s2 off s3 s4
    have h1 : Stays a s1 := readTemps_stays temps (modPower_stays _ h)
    clear_value s1
    have h2 : Stays a s2 := by
      unfold s2
      split
      · exact modPower_stays _ h1
      · exact h1
    clear_value s2
    have h3 : Stays a s3 := Stays.foldl (fun t p ht => heatOff_stays p ht) h2
    clear_value s3
    have h4 : Stays a s4 := by
      unfold s4
      split
      · exact throttle_stays _ h3
      · exact h3
    clear_value s4
    exact staysOut_next (Stays.foldl (fun t p ht => restoreRegion_stays p ht) h4)

theorem execThermalUpPeriod_stays {a s : State} (temps : List Nat) (h : Stays a s) :
    StaysOut a (execThermalUpPeriod temps s) := by
  unfold execThermalUpPeriod
  split
  · exact h
  · extract_lets s1 lim cool s2 hot s3
    have h1 : Stays a s1 := readTemps_stays temps (modPower_stays _ h)
    have h2 : Stays a s2 := by
      unfold s2
      clear_value s1 cool
      split
      · exact modPower_stays _ h1
      · exact h1
    clear_value s2
    have h3 : Stays a s3 := modPower_stays _ h2
    clear_value s3
    split
    · exact h3
    · split
      · exact h3
      · extract_lets s4
        have h4 : Stays a s4 := modMon_stays _ _ h3
        clear_value s4
        refine staysOut_next ?_
        split
        · exact raiseMon_stays _ _ _ (modMon_stays _ _ h4)
        · exact h4

theorem execRegionTrip_stays {a s : State} (x : RegionReading) (h : Stays a s) :
    StaysOut a (execRegionTrip x s) := by
  unfold execRegionTrip
  repeat' first
    | with_reducible assumption
    | with_reducible apply staysOut_next
    | with_reducible apply domainOff_stays
    | with_reducible apply modMon_stays
    | with_reducible apply modPower_stays
    | with_reducible apply raiseMon_stays
    | split
    | simp only [stays_upd]

theorem execHeatIsolation_stays {a s : State} (p : Pid) (h : Stays a s) :
    StaysOut a (execHeatIsolation p s) := by
  unfold execHeatIsolation
  repeat' first
    | with_reducible assumption
    | with_reducible apply staysOut_next
    | with_reducible apply isolateRegion_stays
    | with_reducible apply raiseMon_stays
    | split
    | (lift_lets; intro t;
        clear_value t)
    | intro _

theorem execMeshHeatEmergency_stays {a s : State} (east : Bool) (tempC : Nat) (h : Stays a s) :
    StaysOut a (execMeshHeatEmergency east tempC s) := by
  unfold execMeshHeatEmergency
  repeat' first
    | with_reducible assumption
    | with_reducible apply staysOut_next
    | with_reducible apply modPower_stays
    | with_reducible apply setHalf_stays
    | split
    | simp only [stays_upd]

theorem execStackThrottle_stays {a s : State}  (h : Stays a s) :
    StaysOut a (execStackThrottle s) := by
  unfold execStackThrottle
  repeat' first
    | with_reducible assumption
    | with_reducible refine fun _ => ?_
    | with_reducible apply staysOut_next
    | with_reducible apply modPower_stays
    | with_reducible apply raiseMod_stays
    | split

theorem execBaseCapWrite_stays {a s : State} (r : Req) (h : Stays a s) :
    StaysOut a (execBaseCapWrite r s) := by
  unfold execBaseCapWrite
  repeat' first
    | with_reducible assumption
    | with_reducible apply staysOut_next
    | with_reducible apply serveWrite_stays
    | with_reducible apply wBaseCap_stays
    | intro _

theorem execCapProfileWrite_stays {a s : State} (i : Fin 16) (r : Req) (h : Stays a s) :
    StaysOut a (execCapProfileWrite i r s) := by
  unfold execCapProfileWrite
  repeat' first
    | with_reducible assumption
    | with_reducible apply staysOut_next
    | with_reducible apply serveWrite_stays
    | with_reducible apply wCapProfile_stays
    | intro _

theorem execMaxPointWrite_stays {a s : State} (r : Req) (h : Stays a s) :
    StaysOut a (execMaxPointWrite r s) := by
  unfold execMaxPointWrite
  repeat' first
    | with_reducible assumption
    | with_reducible apply staysOut_next
    | with_reducible apply serveWrite_stays
    | with_reducible apply wMaxPoint_stays
    | intro _

end Sys2Proof.Machine
end

