-- ==== Sys2Proof/Laws/StepRecovery.lean ====
section
/-! SUPPORT. Laws/StepRecovery.lean: the meanings of Machine/Recovery.lean leave the queue of waiting commands alone and keep the commit
record legal. -/

namespace Sys2Proof.Machine

theorem execEventRecord_stays {a s : State} (node : Fin 69) (h : Stays a s) :
    StaysOut a (execEventRecord node s) := by
  unfold execEventRecord
  repeat' first
    | with_reducible assumption
    | with_reducible apply staysOut_next
    | with_reducible apply handleRecord_stays
    | with_reducible apply stewardTake_stays
    | (split <;> try (rename_i hq; first
        | refine Stays.cut (Stays.ofPair (a := a) hq ?_) (fun _ => ?_)
        | refine Stays.cut (Stays.ofPair2 (a := a) hq ?_) (fun _ => ?_)
        | refine Stays.cut (Stays.ofPair3 (a := a) hq ?_) (fun _ => ?_)
        | refine Stays.cut (Stays.ofOpt (a := a) hq ?_) (fun _ => ?_)
        | refine Stays.cut (Stays.ofOptSnd (a := a) hq ?_) (fun _ => ?_)))

theorem execEventsSuppressed_stays {a s : State}  (h : Stays a s) :
    StaysOut a (execEventsSuppressed s) := by
  unfold execEventsSuppressed
  repeat' first
    | with_reducible assumption
    | with_reducible apply staysOut_next
    | with_reducible apply handleRecord_stays
    | with_reducible apply modRecov_stays
    | with_reducible apply passFrac_stays
    | with_reducible apply rollWindow_stays
    | split
    | simp only [stays_upd]

theorem execAlertAck_stays {a s : State} (r : Req) (h : Stays a s) :
    StaysOut a (execAlertAck r s) := by
  unfold execAlertAck
  repeat' first
    | with_reducible assumption
    | with_reducible apply staysOut_next
    | with_reducible apply serveWrite_stays
    | with_reducible apply wAlertAck_stays
    | intro _

theorem execRegionShort_stays {a s : State} (p : Pid) (h : Stays a s) :
    StaysOut a (execRegionShort p s) := by
  unfold execRegionShort
  repeat' first
    | with_reducible assumption
    | with_reducible apply staysOut_next
    | with_reducible apply isolateRegion_stays
    | with_reducible apply raise_stays
    | split

theorem execRollback_stays {a s : State} (port : Slice) (k : Nat) (h : Stays a s) :
    StaysOut a (execRollback port k s) := by
  unfold execRollback
  repeat' first
    | with_reducible assumption
    | with_reducible apply staysOut_next
    | with_reducible apply dropLanded_stays
    | with_reducible apply modRecov_stays
    | with_reducible apply startRecovery_stays
    | split
    | simp only [stays_upd]

theorem execState_stays {a s : State} (port : Slice) (f : StateFrame) (h : Stays a s) :
    StaysOut a (execState port f s) := by
  unfold execState
  repeat' first
    | with_reducible assumption
    | with_reducible apply staysOut_next
    | with_reducible apply dropLanded_stays
    | with_reducible apply keepState_stays
    | with_reducible apply noteProgress_stays
    | with_reducible apply stateLost_stays
    | split

theorem execRestoreReq_stays {a s : State} (port : Slice) (k : Nat) (h : Stays a s) :
    StaysOut a (execRestoreReq port k s) := by
  unfold execRestoreReq
  repeat' first
    | with_reducible assumption
    | with_reducible apply staysOut_next
    | with_reducible apply dropLanded_stays
    | with_reducible apply sendRestore_stays
    | (extract_lets +onlyGivenNames t; first
        | (refine Stays.cut (a := a) (t := t) ?_ (fun ht => ?_); on_goal 2 => clear_value t; on_goal 1 => (unfold t; clear t))
        | (have _ : Option State := t; unfold t; clear t)
        | clear_value t)
    | split

theorem execRollbackDone_stays {a s : State}  (h : Stays a s) :
    StaysOut a (execRollbackDone s) := by
  unfold execRollbackDone
  repeat' first
    | with_reducible assumption
    | with_reducible apply staysOut_next
    | with_reducible apply beginStep6_stays
    | split
    | (lift_lets; intro t;
        clear_value t)

theorem execRestore_stays {a s : State} (port : Slice) (k : Nat) (h : Stays a s) :
    StaysOut a (execRestore port k s) := by
  unfold execRestore
  repeat' first
    | with_reducible assumption
    | with_reducible apply staysOut_next
    | with_reducible apply checkLoop_stays
    | with_reducible apply dropLanded_stays
    | with_reducible apply dropStale_stays
    | with_reducible apply modPort_stays
    | with_reducible apply modRecov_stays
    | with_reducible apply planWrite_stays
    | with_reducible refine Stays.foldl (fun _ _ _ => ?_) ?_
    | with_reducible refine Stays.foldlSnd (fun _ _ _ _ => ?_) ?_
    | split
    | simp only [stays_upd]

theorem execResumeRule_stays {a s : State}  (h : Stays a s) :
    StaysOut a (execResumeRule s) := by
  unfold execResumeRule
  repeat' first
    | with_reducible assumption
    | with_reducible apply staysOut_next
    | with_reducible apply applyRule_stays
    | with_reducible apply stateLost_stays
    | split

theorem execSpareAdopt_stays {a s : State} (h : Stays a s) : StaysOut a (execSpareAdopt s) := by
  unfold execSpareAdopt
  split
  · exact h
  · split
    · exact h
    · rename_i n event coord _ _
      extract_lets s1 s2 s3 src s4
      have h3 : Stays a s3 := modRed_stays _ (modRecov_stays _ (enterRecovering_stays n event coord h))
      clear_value s3
      have h4 : Stays a s4 := stays_commit h3 id
      exact noteProgress_stays 5 (sendState_stays h4)

end Sys2Proof.Machine
end

