-- ==== Sys2Proof/Laws/StepReduce.lean ====
section
/-! SUPPORT. Laws/StepReduce.lean: the meanings of Machine/Reduce.lean leave the queue of waiting commands alone and keep the commit
record legal. -/

namespace Sys2Proof.Machine

theorem execBucketLaunch_stays {a s : State} (sl : Slice) (b : Nat) (h : Stays a s) :
    StaysOut a (execBucketLaunch sl b s) := by
  unfold execBucketLaunch
  repeat' first
    | with_reducible assumption
    | with_reducible apply staysOut_next
    | with_reducible apply finalize_stays
    | with_reducible apply launchRings_stays
    | with_reducible apply modRedSl_stays
    | with_reducible apply noteProgress_stays
    | with_reducible apply sendCopy_stays
    | with_reducible apply writeBlock_stays
    | with_reducible refine Stays.foldl (fun _ _ _ => ?_) ?_
    | with_reducible refine Stays.foldlSnd (fun _ _ _ _ => ?_) ?_
    | split
    | simp only [stays_upd]

theorem execRsReceived_stays {a s : State} (port : Slice) (k : Nat) (h : Stays a s) :
    StaysOut a (execRsReceived port k s) := by
  unfold execRsReceived
  repeat' first
    | with_reducible assumption
    | with_reducible apply staysOut_next
    | with_reducible apply dropStale_stays
    | with_reducible apply modRedSl_stays
    | with_reducible apply noteProgress_stays
    | with_reducible apply takeLanded_stays
    | with_reducible refine Stays.foldl (fun _ _ _ => ?_) ?_
    | with_reducible refine Stays.foldlSnd (fun _ _ _ _ => ?_) ?_
    | split
    | (lift_lets; intro t;
        clear_value t)

theorem execLinkAdd_stays {a s : State} (sl : Slice) (k : Nat) (h : Stays a s) :
    StaysOut a (execLinkAdd sl k s) := by
  unfold execLinkAdd
  repeat' first
    | with_reducible assumption
    | with_reducible apply staysOut_next
    | with_reducible apply countLinkAdd_stays
    | with_reducible apply leaveHeld_stays
    | with_reducible apply queueRa_stays
    | with_reducible apply sendRing_stays
    | with_reducible apply sendYReady_stays
    | with_reducible apply sendY_stays
    | with_reducible apply takeBlock_stays
    | with_reducible apply traceOutput_stays
    | split
    | simp only [stays_upd]

theorem execLinkAdderParity_stays {a s : State} (port : Slice) (h : Stays a s) :
    StaysOut a (execLinkAdderParity port s) := by
  unfold execLinkAdderParity
  repeat' first
    | with_reducible assumption
    | with_reducible refine fun _ => ?_
    | with_reducible apply staysOut_next
    | with_reducible apply leaveHeld_stays
    | with_reducible apply raisePort_stays
    | split
    | (lift_lets; intro t;
        clear_value t)

theorem execRaBlockOp_stays {a s : State} (sl : Slice) (block : Nat) (h : Stays a s) :
    StaysOut a (execRaBlockOp sl block s) := by
  unfold execRaBlockOp
  repeat' first
    | with_reducible assumption
    | with_reducible apply staysOut_next
    | with_reducible apply applyRa_stays
    | with_reducible apply ringDelivered_stays
    | with_reducible apply takeRa_stays
    | (split <;> try (rename_i hq; first
        | refine Stays.cut (Stays.ofPair (a := a) hq ?_) (fun _ => ?_)
        | refine Stays.cut (Stays.ofPair2 (a := a) hq ?_) (fun _ => ?_)
        | refine Stays.cut (Stays.ofPair3 (a := a) hq ?_) (fun _ => ?_)
        | refine Stays.cut (Stays.ofOpt (a := a) hq ?_) (fun _ => ?_)
        | refine Stays.cut (Stays.ofOptSnd (a := a) hq ?_) (fun _ => ?_)))

theorem execBucketReduced_stays {a s : State} (sl : Slice) (b : Nat) (h : Stays a s) :
    StaysOut a (execBucketReduced sl b s) := by
  unfold execBucketReduced
  repeat' first
    | with_reducible assumption
    | with_reducible apply staysOut_next
    | with_reducible apply modRedSl_stays
    | with_reducible apply noteProgress_stays
    | split
    | simp only [stays_upd]

theorem execCheckReceived_stays {a s : State} (port : Slice) (k : Nat) (h : Stays a s) :
    StaysOut a (execCheckReceived port k s) := by
  unfold execCheckReceived
  repeat' first
    | with_reducible assumption
    | with_reducible apply staysOut_next
    | with_reducible apply dropLanded_stays
    | with_reducible apply dropStale_stays
    | with_reducible apply noteProgress_stays
    | with_reducible apply storeCopy_stays
    | with_reducible refine Stays.foldl (fun _ _ _ => ?_) ?_
    | with_reducible refine Stays.foldlSnd (fun _ _ _ _ => ?_) ?_
    | split
    | (lift_lets; intro t;
        clear_value t)
    | intro _

theorem execCheckCompare_stays {a s : State} (sl : Slice) (block : Nat) (h : Stays a s) :
    StaysOut a (execCheckCompare sl block s) := by
  unfold execCheckCompare
  repeat' first
    | with_reducible assumption
    | with_reducible apply staysOut_next
    | with_reducible apply judgeTrace_stays
    | with_reducible apply modRedSl_stays
    | with_reducible apply modRed_stays
    | with_reducible apply noteProgress_stays
    | with_reducible apply raiseMc_stays
    | with_reducible apply takeBlock_stays
    | (split <;> try (rename_i hq; first
        | refine Stays.cut (Stays.ofPair (a := a) hq ?_) (fun _ => ?_)
        | refine Stays.cut (Stays.ofPair2 (a := a) hq ?_) (fun _ => ?_)
        | refine Stays.cut (Stays.ofPair3 (a := a) hq ?_) (fun _ => ?_)
        | refine Stays.cut (Stays.ofOpt (a := a) hq ?_) (fun _ => ?_)
        | refine Stays.cut (Stays.ofOptSnd (a := a) hq ?_) (fun _ => ?_)))
    | simp only [stays_upd]

theorem execTraceReceived_stays {a s : State} (port : Slice) (k : Nat) (h : Stays a s) :
    StaysOut a (execTraceReceived port k s) := by
  unfold execTraceReceived
  repeat' first
    | with_reducible assumption
    | with_reducible apply staysOut_next
    | with_reducible apply dropLanded_stays
    | with_reducible apply dropStale_stays
    | with_reducible apply judgeTrace_stays
    | with_reducible apply modRed_stays
    | with_reducible refine Stays.foldl (fun _ _ _ => ?_) ?_
    | with_reducible refine Stays.foldlSnd (fun _ _ _ _ => ?_) ?_
    | split

theorem execFuse_stays {a s : State} (side : Fin 4) (h : Stays a s) :
    StaysOut a (execFuse side s) := by
  unfold execFuse
  repeat' first
    | with_reducible assumption
    | with_reducible refine fun _ => ?_
    | with_reducible apply staysOut_next
    | with_reducible apply countSent_stays
    | with_reducible apply modRed_stays
    | with_reducible refine Stays.foldl (fun _ _ _ => ?_) ?_
    | with_reducible refine Stays.foldlSnd (fun _ _ _ _ => ?_) ?_
    | split
    | simp only [stays_upd]

theorem execFusedRecordForm_stays {a s : State}  (h : Stays a s) :
    StaysOut a (execFusedRecordForm s) := by
  unfold execFusedRecordForm
  repeat' first
    | with_reducible assumption
    | with_reducible apply staysOut_next
    | with_reducible apply clearLoss_stays
    | with_reducible apply modRed_stays
    | with_reducible apply recvCobalt_stays
    | with_reducible apply sendFused_stays
    | with_reducible apply sendRow_stays
    | with_reducible refine Stays.foldl (fun _ _ _ => ?_) ?_
    | with_reducible refine Stays.foldlSnd (fun _ _ _ _ => ?_) ?_
    | split

theorem execFusedReceived_stays {a s : State} (port : Slice) (k : Nat) (h : Stays a s) :
    StaysOut a (execFusedReceived port k s) := by
  unfold execFusedReceived
  repeat' first
    | with_reducible assumption
    | with_reducible apply staysOut_next
    | with_reducible apply dropLanded_stays
    | with_reducible apply dropStale_stays
    | with_reducible apply modRed_stays
    | with_reducible apply noteProgress_stays
    | with_reducible apply sendFused_stays
    | with_reducible apply sendRow_stays
    | split
    | simp only [stays_upd]

theorem execWatchdogStall_stays {a s : State} (point : Fin 6) (h : Stays a s) :
    StaysOut a (execWatchdogStall point s) := by
  unfold execWatchdogStall
  repeat' first
    | with_reducible assumption
    | with_reducible apply staysOut_next
    | with_reducible apply modRed_stays
    | with_reducible apply modRun_stays
    | with_reducible apply raiseMod_stays
    | split
    | simp only [stays_upd]

theorem execWatchdogStep_stays {a s : State}  (h : Stays a s) :
    StaysOut a (execWatchdogStep s) := by
  unfold execWatchdogStep
  repeat' first
    | with_reducible assumption
    | with_reducible apply staysOut_next
    | with_reducible apply modRed_stays
    | with_reducible apply modRun_stays
    | with_reducible apply raiseMod_stays
    | split

theorem execClipNormWrite_stays {a s : State} (r : Req) (h : Stays a s) :
    StaysOut a (execClipNormWrite r s) := by
  unfold execClipNormWrite
  repeat' first
    | with_reducible assumption
    | with_reducible apply staysOut_next
    | with_reducible apply serveWrite_stays
    | with_reducible apply wClipNorm_stays
    | intro _

theorem execSkipLimitWrite_stays {a s : State} (r : Req) (h : Stays a s) :
    StaysOut a (execSkipLimitWrite r s) := by
  unfold execSkipLimitWrite
  repeat' first
    | with_reducible assumption
    | with_reducible apply staysOut_next
    | with_reducible apply serveWrite_stays
    | with_reducible apply wSkipLimit_stays
    | intro _

theorem execOrderedWrite_stays {a s : State} (r : Req) (h : Stays a s) :
    StaysOut a (execOrderedWrite r s) := by
  unfold execOrderedWrite
  repeat' first
    | with_reducible assumption
    | with_reducible apply staysOut_next
    | with_reducible apply serveWrite_stays
    | with_reducible apply wOrdered_stays
    | intro _

theorem execCheckDivisorWrite_stays {a s : State} (r : Req) (h : Stays a s) :
    StaysOut a (execCheckDivisorWrite r s) := by
  unfold execCheckDivisorWrite
  repeat' first
    | with_reducible assumption
    | with_reducible apply staysOut_next
    | with_reducible apply serveWrite_stays
    | with_reducible apply wCheckDivisor_stays
    | intro _

theorem execReduceEpochWrite_stays {a s : State} (r : Req) (h : Stays a s) :
    StaysOut a (execReduceEpochWrite r s) := by
  unfold execReduceEpochWrite
  repeat' first
    | with_reducible assumption
    | with_reducible apply staysOut_next
    | with_reducible apply serveWrite_stays
    | with_reducible apply wReduceEpoch_stays
    | intro _

end Sys2Proof.Machine
end

