-- ==== Sys2Proof/Laws/StepRegs.lean ====
section
/-! SUPPORT. Laws/StepRegs.lean: the meanings of Machine/Regs.lean leave the queue of waiting commands alone and keep the commit
record legal. -/

namespace Sys2Proof.Machine

theorem execReadreg_stays {a s : State} (p : Pid) (h : Stays a s) :
    StaysOut a (execReadreg p s) := by
  unfold execReadreg
  repeat' first
    | with_reducible assumption
    | with_reducible refine fun _ => ?_
    | with_reducible apply staysOut_next
    | with_reducible apply advance_stays
    | with_reducible apply draw_stays
    | with_reducible apply issueWord_stays
    | with_reducible apply setTr_stays

theorem execRegRead_stays {a s : State} (node : Fin 69) (unit : Fin 32) (offset : Nat) (h : Stays a s) :
    StaysOut a (execRegRead node unit offset s) := by
  unfold execRegRead
  repeat' first
    | with_reducible assumption
    | with_reducible apply staysOut_next
    | with_reducible apply draw_stays
    | with_reducible apply passRefreshes_stays
    | with_reducible apply recvCobalt_stays
    | with_reducible apply sendReply_stays
    | (extract_lets +onlyGivenNames t; first
        | (refine Stays.cut (a := a) (t := t) ?_ (fun ht => ?_); on_goal 2 => clear_value t; on_goal 1 => (unfold t; clear t))
        | (have _ : Option State := t; unfold t; clear t)
        | clear_value t)
    | split

theorem execRegWrite_stays {a s : State} (node : Fin 69) (unit : Fin 32) (offset : Nat) (value : W64) (h : Stays a s) :
    StaysOut a (execRegWrite node unit offset value s) := by
  unfold execRegWrite
  repeat' first
    | with_reducible assumption
    | with_reducible apply staysOut_next
    | with_reducible apply draw_stays
    | with_reducible apply recvCobalt_stays
    | with_reducible apply sendReply_stays
    | with_reducible apply writeReg_stays
    | (extract_lets +onlyGivenNames t; first
        | (refine Stays.cut (a := a) (t := t) ?_ (fun ht => ?_); on_goal 2 => clear_value t; on_goal 1 => (unfold t; clear t))
        | (have _ : Option State := t; unfold t; clear t))
    | (split <;> try (rename_i hq; first
        | refine Stays.cut (Stays.ofPair (a := a) hq ?_) (fun _ => ?_)
        | refine Stays.cut (Stays.ofPair2 (a := a) hq ?_) (fun _ => ?_)
        | refine Stays.cut (Stays.ofPair3 (a := a) hq ?_) (fun _ => ?_)
        | refine Stays.cut (Stays.ofOpt (a := a) hq ?_) (fun _ => ?_)
        | refine Stays.cut (Stays.ofOptSnd (a := a) hq ?_) (fun _ => ?_)))

theorem execReply_stays {a s : State} (node : Fin 69) (h : Stays a s) :
    StaysOut a (execReply node s) := by
  unfold execReply
  repeat' first
    | with_reducible assumption
    | with_reducible apply staysOut_next
    | with_reducible apply stewardTake_stays
    | (split <;> try (rename_i hq; first
        | refine Stays.cut (Stays.ofPair (a := a) hq ?_) (fun _ => ?_)
        | refine Stays.cut (Stays.ofPair2 (a := a) hq ?_) (fun _ => ?_)
        | refine Stays.cut (Stays.ofPair3 (a := a) hq ?_) (fun _ => ?_)
        | refine Stays.cut (Stays.ofOpt (a := a) hq ?_) (fun _ => ?_)
        | refine Stays.cut (Stays.ofOptSnd (a := a) hq ?_) (fun _ => ?_)))

end Sys2Proof.Machine
end

