-- ==== Sys2Proof/Laws/StepRim.lean ====
section
/-! SUPPORT. Laws/StepRim.lean: the meanings of Machine/Rim.lean leave the queue of waiting commands alone and keep the commit
record legal. -/

namespace Sys2Proof.Machine

theorem execStackTempRead_stays {a s : State} (sl : Slice) (temp : Nat) (h : Stays a s) :
    StaysOut a (execStackTempRead sl temp s) := by
  unfold execStackTempRead
  repeat' first
    | with_reducible assumption
    | with_reducible apply staysOut_next
    | with_reducible apply modMc_stays
    | with_reducible apply raiseMc_stays
    | split

theorem execEcsRead_stays {a s : State} (sl : Slice) (corrected : Nat) (h : Stays a s) :
    StaysOut a (execEcsRead sl corrected s) := by
  unfold execEcsRead
  repeat' first
    | with_reducible assumption
    | with_reducible apply staysOut_next
    | with_reducible apply modMc_stays
    | split

theorem execStackScrub_stays {a s : State} (sl : Slice) (burst : Nat) (e : Ecc) (h : Stays a s) :
    StaysOut a (execStackScrub sl burst e s) := by
  unfold execStackScrub
  repeat' first
    | with_reducible assumption
    | with_reducible apply staysOut_next
    | with_reducible apply stackCorrected_stays
    | with_reducible apply stackUncorrectable_stays
    | split

theorem execStackRowWindowEnd_stays {a s : State}  (h : Stays a s) :
    StaysOut a (execStackRowWindowEnd s) := by
  unfold execStackRowWindowEnd
  repeat' first
    | with_reducible assumption
    | with_reducible apply staysOut_next
    | with_reducible apply modMc_stays
    | with_reducible refine Stays.foldl (fun _ _ _ => ?_) ?_

theorem execStackFailed_stays {a s : State} (sl : Slice) (channels : BitVec 32) (h : Stays a s) :
    StaysOut a (execStackFailed sl channels s) := by
  unfold execStackFailed
  repeat' first
    | with_reducible assumption
    | with_reducible apply staysOut_next
    | with_reducible apply modMc_stays
    | with_reducible apply raiseMc_stays
    | split

theorem execScrubAccess_stays {a s : State} (node : Fin 68) (word : Nat) (granule : Fin 64) (e : Ecc) (passDone : Bool) (h : Stays a s) :
    StaysOut a (execScrubAccess node word granule e passDone s) := by
  unfold execScrubAccess
  repeat' first
    | with_reducible assumption
    | with_reducible apply staysOut_next
    | with_reducible apply passDone_stays
    | with_reducible apply scrubBuffer_stays
    | with_reducible apply scrubPantry_stays
    | split

theorem execMemRead_stays {a s : State} (sl : Fin 36) (errs : List (Nat × Bool)) (h : Stays a s) :
    StaysOut a (execMemRead sl errs s) := by
  unfold execMemRead
  repeat' first
    | with_reducible assumption
    | with_reducible apply staysOut_next
    | with_reducible apply readBuffer_stays
    | with_reducible apply readPart_stays
    | with_reducible apply refusePart_stays
    | with_reducible apply rimTake_stays
    | with_reducible apply sendDone_stays
    | (split <;> try (rename_i hq; first
        | refine Stays.cut (Stays.ofPair (a := a) hq ?_) (fun _ => ?_)
        | refine Stays.cut (Stays.ofPair2 (a := a) hq ?_) (fun _ => ?_)
        | refine Stays.cut (Stays.ofPair3 (a := a) hq ?_) (fun _ => ?_)
        | refine Stays.cut (Stays.ofOpt (a := a) hq ?_) (fun _ => ?_)
        | refine Stays.cut (Stays.ofOptSnd (a := a) hq ?_) (fun _ => ?_)))

theorem execMemWrite_stays {a s : State} (sl : Fin 36) (h : Stays a s) :
    StaysOut a (execMemWrite sl s) := by
  unfold execMemWrite
  repeat' first
    | with_reducible assumption
    | with_reducible apply staysOut_next
    | with_reducible apply modBuffer_stays
    | with_reducible apply modMc_stays
    | with_reducible apply refusePart_stays
    | with_reducible apply rimTake_stays
    | with_reducible apply sendDone_stays
    | with_reducible apply writeStack_stays
    | with_reducible refine Stays.foldl (fun _ _ _ => ?_) ?_
    | with_reducible refine Stays.foldlSnd (fun _ _ _ _ => ?_) ?_
    | (split <;> try (rename_i hq; first
        | refine Stays.cut (Stays.ofPair (a := a) hq ?_) (fun _ => ?_)
        | refine Stays.cut (Stays.ofPair2 (a := a) hq ?_) (fun _ => ?_)
        | refine Stays.cut (Stays.ofPair3 (a := a) hq ?_) (fun _ => ?_)
        | refine Stays.cut (Stays.ofOpt (a := a) hq ?_) (fun _ => ?_)
        | refine Stays.cut (Stays.ofOptSnd (a := a) hq ?_) (fun _ => ?_)))

theorem execRimWrite_stays {a s : State} (sl : Slice) (h : Stays a s) :
    StaysOut a (execRimWrite sl s) := by
  unfold execRimWrite
  repeat' first
    | with_reducible assumption
    | with_reducible apply staysOut_next
    | with_reducible apply rimOp_stays

theorem execRimAdd_stays {a s : State} (sl : Slice) (h : Stays a s) :
    StaysOut a (execRimAdd sl s) := by
  unfold execRimAdd
  repeat' first
    | with_reducible assumption
    | with_reducible apply staysOut_next
    | with_reducible apply rimOp_stays

theorem execRaFault_stays {a s : State} (sl : Slice) (block : Nat) (h : Stays a s) :
    StaysOut a (execRaFault sl block s) := by
  unfold execRaFault
  repeat' first
    | with_reducible assumption
    | with_reducible apply staysOut_next
    | with_reducible apply raiseMc_stays
    | with_reducible apply takeRa_stays
    | (split <;> try (rename_i hq; first
        | refine Stays.cut (Stays.ofPair (a := a) hq ?_) (fun _ => ?_)
        | refine Stays.cut (Stays.ofPair2 (a := a) hq ?_) (fun _ => ?_)
        | refine Stays.cut (Stays.ofPair3 (a := a) hq ?_) (fun _ => ?_)
        | refine Stays.cut (Stays.ofOpt (a := a) hq ?_) (fun _ => ?_)
        | refine Stays.cut (Stays.ofOptSnd (a := a) hq ?_) (fun _ => ?_)))

theorem execOptimizerWrite_stays {a s : State} (sub : Nat) (r : Req) (h : Stays a s) :
    StaysOut a (execOptimizerWrite sub r s) := by
  unfold execOptimizerWrite
  repeat' first
    | with_reducible assumption
    | with_reducible apply staysOut_next
    | with_reducible apply serveWrite_stays
    | with_reducible apply wOptimizer_stays
    | intro _

theorem execApplyStep_stays {a s : State} (r : Req) (h : Stays a s) :
    StaysOut a (execApplyStep r s) := by
  unfold execApplyStep
  repeat' first
    | with_reducible assumption
    | with_reducible apply staysOut_next
    | with_reducible apply serveWrite_stays
    | with_reducible apply wApplyStep_stays
    | intro _

theorem execClassRangeWrite_stays {a s : State} (i : Fin 64) (r : Req) (h : Stays a s) :
    StaysOut a (execClassRangeWrite i r s) := by
  unfold execClassRangeWrite
  repeat' first
    | with_reducible assumption
    | with_reducible apply staysOut_next
    | with_reducible apply serveWrite_stays
    | with_reducible apply wClassRange_stays
    | intro _

end Sys2Proof.Machine
end

