-- ==== Sys2Proof/Laws/StepRuntime.lean ====
section
/-! SUPPORT. Laws/StepRuntime.lean: the meanings of Machine/Runtime.lean leave the queue of waiting commands alone and keep the commit
record legal. -/

namespace Sys2Proof.Machine

theorem execPassBoundary_stays {a s : State} (p : Pid) (g : Fin 4) (skipped : Nat) (h : Stays a s) :
    StaysOut a (execPassBoundary p g skipped s) := by
  unfold execPassBoundary
  repeat' first
    | with_reducible assumption
    | with_reducible apply staysOut_next
    | with_reducible apply passBoundary_stays
    | with_reducible apply takeStop_stays
    | (split <;> try (rename_i hq; first
        | refine Stays.cut (Stays.ofPair (a := a) hq ?_) (fun _ => ?_)
        | refine Stays.cut (Stays.ofPair2 (a := a) hq ?_) (fun _ => ?_)
        | refine Stays.cut (Stays.ofPair3 (a := a) hq ?_) (fun _ => ?_)
        | refine Stays.cut (Stays.ofOpt (a := a) hq ?_) (fun _ => ?_)
        | refine Stays.cut (Stays.ofOptSnd (a := a) hq ?_) (fun _ => ?_)))

theorem execGriddleFault_stays {a s : State} (p : Pid) (g : Fin 4) (cause : Nat) (col : Fin 256) (h : Stays a s) :
    StaysOut a (execGriddleFault p g cause col s) := by
  unfold execGriddleFault
  repeat' first
    | with_reducible assumption
    | with_reducible apply staysOut_next
    | with_reducible apply griddleFault_stays
    | with_reducible apply takeStop_stays

end Sys2Proof.Machine
end

