-- ==== Sys2Proof/Laws/StepSecurity.lean ====
section
/-! SUPPORT. Laws/StepSecurity.lean: the meanings of Machine/Security.lean leave the queue of waiting commands alone and keep the commit
record legal. -/

namespace Sys2Proof.Machine

theorem execUpdateData_stays {a s : State} (r : Req) (h : Stays a s) :
    StaysOut a (execUpdateData r s) := by
  unfold execUpdateData
  repeat' first
    | with_reducible assumption
    | with_reducible apply staysOut_next
    | with_reducible apply serveWrite_stays
    | with_reducible apply wUpdateData_stays
    | intro _

theorem execUpdateVerify_stays {a s : State} (r : Req) (h : Stays a s) :
    StaysOut a (execUpdateVerify r s) := by
  unfold execUpdateVerify
  repeat' first
    | with_reducible assumption
    | with_reducible apply staysOut_next
    | with_reducible apply serveWrite_stays
    | with_reducible apply wUpdateCommand_stays
    | split
    | intro _

theorem execUpdateDiscard_stays {a s : State} (r : Req) (h : Stays a s) :
    StaysOut a (execUpdateDiscard r s) := by
  unfold execUpdateDiscard
  repeat' first
    | with_reducible assumption
    | with_reducible apply staysOut_next
    | with_reducible apply serveWrite_stays
    | with_reducible apply wUpdateCommand_stays
    | split
    | intro _

theorem execUpdateVerifyDone_stays {a s : State}  (h : Stays a s) :
    StaysOut a (execUpdateVerifyDone s) := by
  unfold execUpdateVerifyDone
  repeat' first
    | with_reducible assumption
    | with_reducible apply staysOut_next
    | with_reducible apply modSec_stays
    | with_reducible apply rejectImage_stays
    | with_reducible apply stageBundle_stays
    | split
    | simp only [stays_upd]

theorem execOwnerKey_stays {a s : State} (r : Req) (h : Stays a s) :
    StaysOut a (execOwnerKey r s) := by
  unfold execOwnerKey
  repeat' first
    | with_reducible assumption
    | with_reducible apply staysOut_next
    | with_reducible apply serveWrite_stays
    | with_reducible apply wOwnerKey_stays
    | intro _

theorem execNonce_stays {a s : State} (r : Req) (h : Stays a s) :
    StaysOut a (execNonce r s) := by
  unfold execNonce
  repeat' first
    | with_reducible assumption
    | with_reducible apply staysOut_next
    | with_reducible apply serveWrite_stays
    | with_reducible apply wNonce_stays
    | intro _

theorem execReportReady_stays {a s : State} (session : Nat) (h : Stays a s) :
    StaysOut a (execReportReady session s) := by
  unfold execReportReady
  repeat' first
    | with_reducible assumption
    | with_reducible apply staysOut_next
    | with_reducible apply passFrac_stays
    | split
    | simp only [stays_upd]

end Sys2Proof.Machine
end

