-- ==== Sys2Proof/Laws/StepSequencer.lean ====
section
/-! SUPPORT. Laws/StepSequencer.lean: the meanings of Machine/Sequencer.lean leave the queue of waiting commands alone and keep the commit
record legal. -/

namespace Sys2Proof.Machine

theorem execTaskStart_stays {a s : State} (p : Pid) (task : Fin 16) (pc : BitVec 25) (arg : W64) (h : Stays a s) :
    StaysOut a (execTaskStart p task pc arg s) := by
  unfold execTaskStart
  repeat' first
    | with_reducible assumption
    | with_reducible apply staysOut_next
    | with_reducible apply recvCobalt_stays
    | with_reducible apply sendReply_stays
    | with_reducible apply startTask_stays
    | split

theorem execHaltAll_stays {a s : State} (p : Pid) (h : Stays a s) :
    StaysOut a (execHaltAll p s) := by
  unfold execHaltAll
  repeat' first
    | with_reducible assumption
    | with_reducible apply staysOut_next
    | with_reducible apply haltAll_stays
    | with_reducible apply recvCobalt_stays
    | split

theorem execClearLoss_stays {a s : State} (p : Pid) (h : Stays a s) :
    StaysOut a (execClearLoss p s) := by
  unfold execClearLoss
  repeat' first
    | with_reducible assumption
    | with_reducible apply staysOut_next
    | with_reducible apply clearLoss_stays
    | with_reducible apply recvCobalt_stays
    | split

theorem execSliceExpired_stays {a s : State} (p : Pid) (h : Stays a s) :
    StaysOut a (execSliceExpired p s) := by
  unfold execSliceExpired
  repeat' first
    | with_reducible assumption
    | with_reducible apply staysOut_next
    | with_reducible apply leaveRunning_stays
    | with_reducible apply modSq_stays
    | split

theorem execTaskWake_stays {a s : State} (p : Pid) (t : Fin 16) (frac : Fin 1024) (h : Stays a s) :
    StaysOut a (execTaskWake p t frac s) := by
  unfold execTaskWake
  repeat' first
    | with_reducible assumption
    | with_reducible apply staysOut_next
    | with_reducible apply State.atFrac_stays
    | with_reducible apply kick_stays
    | with_reducible apply modTask_stays
    | (extract_lets +onlyGivenNames t; first
        | (refine Stays.cut (a := a) (t := t) ?_ (fun ht => ?_); on_goal 2 => clear_value t; on_goal 1 => (unfold t; clear t))
        | (have _ : Option State := t; unfold t; clear t))
    | split

theorem execWaitSlotFull_stays {a s : State} (p : Pid) (h : Stays a s) :
    StaysOut a (execWaitSlotFull p s) := by
  unfold execWaitSlotFull
  repeat' first
    | with_reducible assumption
    | with_reducible refine fun _ => ?_
    | with_reducible apply staysOut_next
    | with_reducible apply advance_stays
    | with_reducible apply issueWord_stays
    | with_reducible apply waitTask_stays
    | split

theorem execWaitSlotEmpty_stays {a s : State} (p : Pid) (h : Stays a s) :
    StaysOut a (execWaitSlotEmpty p s) := by
  unfold execWaitSlotEmpty
  repeat' first
    | with_reducible assumption
    | with_reducible refine fun _ => ?_
    | with_reducible apply staysOut_next
    | with_reducible apply advance_stays
    | with_reducible apply issueWord_stays
    | with_reducible apply waitTask_stays
    | split

theorem execWaitCounter_stays {a s : State} (p : Pid) (h : Stays a s) :
    StaysOut a (execWaitCounter p s) := by
  unfold execWaitCounter
  repeat' first
    | with_reducible assumption
    | with_reducible refine fun _ => ?_
    | with_reducible apply staysOut_next
    | with_reducible apply advance_stays
    | with_reducible apply issueWord_stays
    | with_reducible apply modTask_stays
    | with_reducible apply waitTask_stays
    | split
    | simp only [stays_upd]

theorem execWaitSignal_stays {a s : State} (p : Pid) (h : Stays a s) :
    StaysOut a (execWaitSignal p s) := by
  unfold execWaitSignal
  repeat' first
    | with_reducible assumption
    | with_reducible refine fun _ => ?_
    | with_reducible apply staysOut_next
    | with_reducible apply advance_stays
    | with_reducible apply issueWord_stays
    | with_reducible apply modSq_stays
    | with_reducible apply waitTask_stays
    | split
    | simp only [stays_upd]

theorem execTimeatAbs_stays {a s : State} (p : Pid) (frac : Fin 1024) (h : Stays a s) :
    StaysOut a (execTimeatAbs p frac s) := by
  unfold execTimeatAbs
  repeat' first
    | with_reducible assumption
    | with_reducible refine fun _ => ?_
    | with_reducible apply staysOut_next
    | with_reducible apply issueWord_stays
    | with_reducible apply timeAt_stays

theorem execTimeatRel_stays {a s : State} (p : Pid) (frac : Fin 1024) (h : Stays a s) :
    StaysOut a (execTimeatRel p frac s) := by
  unfold execTimeatRel
  repeat' first
    | with_reducible assumption
    | with_reducible refine fun _ => ?_
    | with_reducible apply staysOut_next
    | with_reducible apply issueWord_stays
    | with_reducible apply timeAt_stays

theorem execSignalSend_stays {a s : State} (p : Pid) (h : Stays a s) :
    StaysOut a (execSignalSend p s) := by
  unfold execSignalSend
  repeat' first
    | with_reducible assumption
    | with_reducible refine fun _ => ?_
    | with_reducible apply staysOut_next
    | with_reducible apply countSignal_stays
    | with_reducible apply finishWord_stays
    | with_reducible apply sendSignal_stays
    | with_reducible apply sendingWord_stays

theorem execRemoteComplete_stays {a s : State} (p : Pid) (h : Stays a s) :
    StaysOut a (execRemoteComplete p s) := by
  unfold execRemoteComplete
  repeat' first
    | with_reducible assumption
    | with_reducible refine fun _ => ?_
    | with_reducible apply staysOut_next
    | with_reducible apply countSignal_stays
    | with_reducible apply finishWord_stays
    | with_reducible apply sendSk_stays
    | with_reducible apply sendingWord_stays
    | (extract_lets +onlyGivenNames t; first
        | (refine Stays.cut (a := a) (t := t) ?_ (fun ht => ?_); on_goal 2 => clear_value t; on_goal 1 => (unfold t; clear t))
        | (refine Stays.cut (a := a) (t := t.2) ?_ (fun ht => ?_); on_goal 2 => clear_value t; on_goal 1 => (unfold t; clear t))
        | (refine Stays.cut (a := a) (t := t.2.2) ?_ (fun ht => ?_); on_goal 2 => clear_value t; on_goal 1 => (unfold t; clear t))
        | (have _ : Option State := t; unfold t; clear t)
        | (have _ : Option (_ × State) := t; unfold t; clear t)
        | (have _ := fun x => t x; unfold t; clear t)
        | clear_value t)
    | split

theorem execRemoteRelease_stays {a s : State} (p : Pid) (h : Stays a s) :
    StaysOut a (execRemoteRelease p s) := by
  unfold execRemoteRelease
  repeat' first
    | with_reducible assumption
    | with_reducible refine fun _ => ?_
    | with_reducible apply staysOut_next
    | with_reducible apply countSignal_stays
    | with_reducible apply finishWord_stays
    | with_reducible apply sendSk_stays
    | with_reducible apply sendingWord_stays
    | (extract_lets +onlyGivenNames t; first
        | (refine Stays.cut (a := a) (t := t) ?_ (fun ht => ?_); on_goal 2 => clear_value t; on_goal 1 => (unfold t; clear t))
        | (refine Stays.cut (a := a) (t := t.2) ?_ (fun ht => ?_); on_goal 2 => clear_value t; on_goal 1 => (unfold t; clear t))
        | (refine Stays.cut (a := a) (t := t.2.2) ?_ (fun ht => ?_); on_goal 2 => clear_value t; on_goal 1 => (unfold t; clear t))
        | (have _ : Option State := t; unfold t; clear t)
        | (have _ : Option (_ × State) := t; unfold t; clear t)
        | (have _ := fun x => t x; unfold t; clear t)
        | clear_value t)
    | split

theorem execSignalReceived_stays {a s : State} (p src : Pid) (h : Stays a s) :
    StaysOut a (execSignalReceived p src s) := by
  unfold execSignalReceived
  repeat' first
    | with_reducible assumption
    | with_reducible refine fun _ => ?_
    | with_reducible apply staysOut_next
    | with_reducible apply bumpSG_stays
    | with_reducible apply modSq_stays
    | with_reducible apply receiveMsg_stays

theorem execRemoteCompleteReceived_stays {a s : State} (p src : Pid) (h : Stays a s) :
    StaysOut a (execRemoteCompleteReceived p src s) := by
  unfold execRemoteCompleteReceived
  repeat' first
    | with_reducible assumption
    | with_reducible refine fun _ => ?_
    | with_reducible apply staysOut_next
    | with_reducible apply receiveMsg_stays
    | with_reducible apply slotCompletion_stays

theorem execRemoteReleaseReceived_stays {a s : State} (p src : Pid) (h : Stays a s) :
    StaysOut a (execRemoteReleaseReceived p src s) := by
  unfold execRemoteReleaseReceived
  repeat' first
    | with_reducible assumption
    | with_reducible refine fun _ => ?_
    | with_reducible apply staysOut_next
    | with_reducible apply receiveMsg_stays
    | with_reducible apply slotRelease_stays

theorem execLoopFor_stays {a s : State} (p : Pid) (h : Stays a s) :
    StaysOut a (execLoopFor p s) := by
  unfold execLoopFor
  repeat' first
    | with_reducible assumption
    | with_reducible refine fun _ => ?_
    | with_reducible apply staysOut_next
    | with_reducible apply advance_stays
    | with_reducible apply issueWord_stays
    | with_reducible apply jumpTo_stays
    | with_reducible apply modTask_stays
    | split
    | simp only [stays_upd]

theorem execLoopNext_stays {a s : State} (p : Pid) (h : Stays a s) :
    StaysOut a (execLoopNext p s) := by
  unfold execLoopNext
  repeat' first
    | with_reducible assumption
    | with_reducible refine fun _ => ?_
    | with_reducible apply staysOut_next
    | with_reducible apply advance_stays
    | with_reducible apply issueWord_stays
    | with_reducible apply jumpTo_stays
    | with_reducible apply modTask_stays
    | split

theorem execJump_stays {a s : State} (p : Pid) (h : Stays a s) :
    StaysOut a (execJump p s) := by
  unfold execJump
  repeat' first
    | with_reducible assumption
    | with_reducible refine fun _ => ?_
    | with_reducible apply staysOut_next
    | with_reducible apply issueWord_stays
    | with_reducible apply jumpTo_stays

theorem execJumpIf_stays {a s : State} (p : Pid) (h : Stays a s) :
    StaysOut a (execJumpIf p s) := by
  unfold execJumpIf
  repeat' first
    | with_reducible assumption
    | with_reducible refine fun _ => ?_
    | with_reducible apply staysOut_next
    | with_reducible apply advance_stays
    | with_reducible apply issueWord_stays
    | with_reducible apply jumpTo_stays
    | with_reducible apply modTask_stays
    | split

theorem execLoadi_stays {a s : State} (p : Pid) (h : Stays a s) :
    StaysOut a (execLoadi p s) := by
  unfold execLoadi
  repeat' first
    | with_reducible assumption
    | with_reducible refine fun _ => ?_
    | with_reducible apply staysOut_next
    | with_reducible apply advance_stays
    | with_reducible apply issueWord_stays
    | with_reducible apply setTr_stays

theorem execAddi_stays {a s : State} (p : Pid) (h : Stays a s) :
    StaysOut a (execAddi p s) := by
  unfold execAddi
  repeat' first
    | with_reducible assumption
    | with_reducible refine fun _ => ?_
    | with_reducible apply staysOut_next
    | with_reducible apply advance_stays
    | with_reducible apply issueWord_stays
    | with_reducible apply setTr_stays

theorem execSpawn_stays {a s : State} (p : Pid) (h : Stays a s) :
    StaysOut a (execSpawn p s) := by
  unfold execSpawn
  repeat' first
    | with_reducible assumption
    | with_reducible refine fun _ => ?_
    | with_reducible apply staysOut_next
    | with_reducible apply advance_stays
    | with_reducible apply issueWord_stays
    | with_reducible apply modTask_stays

theorem execEndTask_stays {a s : State} (p : Pid) (h : Stays a s) :
    StaysOut a (execEndTask p s) := by
  unfold execEndTask
  repeat' first
    | with_reducible assumption
    | with_reducible refine fun _ => ?_
    | with_reducible apply staysOut_next
    | with_reducible apply issueWord_stays
    | with_reducible apply leaveRunning_stays
    | with_reducible apply modTask_stays

theorem execYieldTask_stays {a s : State} (p : Pid) (h : Stays a s) :
    StaysOut a (execYieldTask p s) := by
  unfold execYieldTask
  repeat' first
    | with_reducible assumption
    | with_reducible refine fun _ => ?_
    | with_reducible apply staysOut_next
    | with_reducible apply advance_stays
    | with_reducible apply issueWord_stays
    | with_reducible apply leaveRunning_stays

theorem execPlanEvent_stays {a s : State} (p : Pid) (h : Stays a s) :
    StaysOut a (execPlanEvent p s) := by
  unfold execPlanEvent
  repeat' first
    | with_reducible assumption
    | with_reducible refine fun _ => ?_
    | with_reducible apply staysOut_next
    | with_reducible apply advance_stays
    | with_reducible apply raiseAs_stays
    | with_reducible apply sendingWord_stays

theorem execTaskTableParity_stays {a s : State} (p : Pid) (t : Fin 16) (h : Stays a s) :
    StaysOut a (execTaskTableParity p t s) := by
  unfold execTaskTableParity
  repeat' first
    | with_reducible assumption
    | with_reducible apply staysOut_next
    | with_reducible apply taskFault_stays
    | split

end Sys2Proof.Machine
end

