-- ==== Sys2Proof/Laws/StepTime.lean ====
section
/-! SUPPORT. Laws/StepTime.lean: the meanings of Machine/Time.lean leave the queue of waiting commands alone and keep the commit
record legal. -/

namespace Sys2Proof.Machine

theorem execSyncInRise_stays {a s : State} (ps sinceBeat : Nat) (h : Stays a s) :
    StaysOut a (execSyncInRise ps sinceBeat s) := by
  unfold execSyncInRise
  repeat' first
    | with_reducible assumption
    | with_reducible apply staysOut_next
    | with_reducible apply edge_stays
    | with_reducible apply modTime_stays
    | (split <;> try (rename_i hq; first
        | refine Stays.cut (Stays.ofPair (a := a) hq ?_) (fun _ => ?_)
        | refine Stays.cut (Stays.ofPair2 (a := a) hq ?_) (fun _ => ?_)
        | refine Stays.cut (Stays.ofPair3 (a := a) hq ?_) (fun _ => ?_)
        | refine Stays.cut (Stays.ofOpt (a := a) hq ?_) (fun _ => ?_)
        | refine Stays.cut (Stays.ofOptSnd (a := a) hq ?_) (fun _ => ?_)))

theorem execSyncInFall_stays {a s : State} (highNs : Nat) (h : Stays a s) :
    StaysOut a (execSyncInFall highNs s) := by
  unfold execSyncInFall
  repeat' first
    | with_reducible assumption
    | with_reducible apply staysOut_next
    | with_reducible apply anomaly_stays
    | with_reducible apply modTime_stays
    | split

theorem execLate_stays {a s : State}  (h : Stays a s) :
    StaysOut a (execLate s) := by
  unfold execLate
  repeat' first
    | with_reducible assumption
    | with_reducible apply staysOut_next
    | with_reducible apply anomaly_stays
    | with_reducible apply countBeat_stays
    | with_reducible apply modTime_stays
    | split

theorem execWide_stays {a s : State}  (h : Stays a s) :
    StaysOut a (execWide s) := by
  unfold execWide
  repeat' first
    | with_reducible assumption
    | with_reducible apply staysOut_next
    | with_reducible apply anomaly_stays
    | with_reducible apply modTime_stays
    | split

theorem execStuck_stays {a s : State}  (h : Stays a s) :
    StaysOut a (execStuck s) := by
  unfold execStuck
  repeat' first
    | with_reducible assumption
    | with_reducible apply staysOut_next
    | with_reducible apply anomaly_stays
    | with_reducible apply modTime_stays
    | split

theorem execTrainRestart_stays {a s : State}  (h : Stays a s) :
    StaysOut a (execTrainRestart s) := by
  unfold execTrainRestart
  repeat' first
    | with_reducible assumption
    | with_reducible apply staysOut_next
    | with_reducible apply modTime_stays
    | split

theorem execOscillatorBeat_stays {a s : State}  (h : Stays a s) :
    StaysOut a (execOscillatorBeat s) := by
  unfold execOscillatorBeat
  repeat' first
    | with_reducible assumption
    | with_reducible apply staysOut_next
    | with_reducible apply countBeat_stays
    | with_reducible apply modTime_stays
    | split
    | simp only [stays_upd]

theorem execHoldoverEntry_stays {a s : State}  (h : Stays a s) :
    StaysOut a (execHoldoverEntry s) := by
  unfold execHoldoverEntry
  repeat' first
    | with_reducible assumption
    | with_reducible apply staysOut_next
    | with_reducible apply enterHoldover_stays
    | split
    | (lift_lets; intro t;
        clear_value t)
    | intro _

theorem execLockingEntry_stays {a s : State}  (h : Stays a s) :
    StaysOut a (execLockingEntry s) := by
  unfold execLockingEntry
  repeat' first
    | with_reducible assumption
    | with_reducible apply staysOut_next
    | with_reducible apply modTime_stays
    | with_reducible apply setLock_stays
    | split
    | simp only [stays_upd]

theorem execSlewingEntry_stays {a s : State} (edgeOffset : Int) (h : Stays a s) :
    StaysOut a (execSlewingEntry edgeOffset s) := by
  unfold execSlewingEntry
  repeat' first
    | with_reducible assumption
    | with_reducible apply staysOut_next
    | with_reducible apply modTime_stays
    | with_reducible apply timeSplit_stays
    | split
    | (lift_lets; intro t;
        clear_value t)
    | intro _

theorem execSlewEnd_stays {a s : State}  (h : Stays a s) :
    StaysOut a (execSlewEnd s) := by
  unfold execSlewEnd
  repeat' first
    | with_reducible assumption
    | with_reducible apply staysOut_next
    | with_reducible apply modTime_stays
    | with_reducible apply raiseMod_stays
    | with_reducible apply setLock_stays
    | split

theorem execHoldoverLong_stays {a s : State}  (h : Stays a s) :
    StaysOut a (execHoldoverLong s) := by
  unfold execHoldoverLong
  repeat' first
    | with_reducible assumption
    | with_reducible apply staysOut_next
    | with_reducible apply modTime_stays
    | with_reducible apply raiseMod_stays
    | split
    | simp only [stays_upd]

theorem execStampReceived_stays {a s : State} (port : Slice) (k : Nat) (h : Stays a s) :
    StaysOut a (execStampReceived port k s) := by
  unfold execStampReceived
  repeat' first
    | with_reducible assumption
    | with_reducible apply staysOut_next
    | with_reducible apply compareStamp_stays
    | with_reducible apply dropLanded_stays
    | with_reducible apply modTime_stays
    | with_reducible apply setValid_stays
    | with_reducible apply timeSplit_stays
    | split
    | simp only [stays_upd]

theorem execBeatSymbolReceived_stays {a s : State} (port : Slice) (ps sinceBeat : Nat) (h : Stays a s) :
    StaysOut a (execBeatSymbolReceived port ps sinceBeat s) := by
  unfold execBeatSymbolReceived
  repeat' first
    | with_reducible assumption
    | with_reducible apply staysOut_next
    | with_reducible apply edge_stays
    | (split <;> try (rename_i hq; first
        | refine Stays.cut (Stays.ofPair (a := a) hq ?_) (fun _ => ?_)
        | refine Stays.cut (Stays.ofPair2 (a := a) hq ?_) (fun _ => ?_)
        | refine Stays.cut (Stays.ofPair3 (a := a) hq ?_) (fun _ => ?_)
        | refine Stays.cut (Stays.ofOpt (a := a) hq ?_) (fun _ => ?_)
        | refine Stays.cut (Stays.ofOptSnd (a := a) hq ?_) (fun _ => ?_)))

theorem execCbcLoad_stays {a s : State} (r : Req) (h : Stays a s) :
    StaysOut a (execCbcLoad r s) := by
  unfold execCbcLoad
  repeat' first
    | with_reducible assumption
    | with_reducible apply staysOut_next
    | with_reducible apply serveWrite_stays
    | with_reducible apply wCbcLoad_stays
    | intro _

theorem execBeatSourceWrite_stays {a s : State} (r : Req) (h : Stays a s) :
    StaysOut a (execBeatSourceWrite r s) := by
  unfold execBeatSourceWrite
  repeat' first
    | with_reducible assumption
    | with_reducible apply staysOut_next
    | with_reducible apply serveWrite_stays
    | with_reducible apply wBeatSource_stays
    | intro _

theorem execBeatLinkPortWrite_stays {a s : State} (r : Req) (h : Stays a s) :
    StaysOut a (execBeatLinkPortWrite r s) := by
  unfold execBeatLinkPortWrite
  repeat' first
    | with_reducible assumption
    | with_reducible apply staysOut_next
    | with_reducible apply serveWrite_stays
    | with_reducible apply wBeatLinkPort_stays
    | intro _

theorem execSchedEntryWrite_stays {a s : State} (i : Fin 64) (r : Req) (h : Stays a s) :
    StaysOut a (execSchedEntryWrite i r s) := by
  unfold execSchedEntryWrite
  repeat' first
    | with_reducible assumption
    | with_reducible apply staysOut_next
    | with_reducible apply serveWrite_stays
    | with_reducible apply wSchedEntry_stays
    | intro _

theorem execStepMarkRise_stays {a s : State}  (h : Stays a s) :
    StaysOut a (execStepMarkRise s) := by
  unfold execStepMarkRise
  repeat' first
    | with_reducible assumption
    | with_reducible apply staysOut_next
    | with_reducible apply applyMarker_stays
    | with_reducible apply modSched_stays
    | split
    | simp only [stays_upd]

theorem execStepMarkFall_stays {a s : State} (highNs : Nat) (h : Stays a s) :
    StaysOut a (execStepMarkFall highNs s) := by
  unfold execStepMarkFall
  repeat' first
    | with_reducible assumption
    | with_reducible apply staysOut_next
    | with_reducible apply modSched_stays
    | split

theorem execMarkStuck_stays {a s : State}  (h : Stays a s) :
    StaysOut a (execMarkStuck s) := by
  unfold execMarkStuck
  repeat' first
    | with_reducible assumption
    | with_reducible apply staysOut_next
    | with_reducible apply modSched_stays
    | split

theorem execMarkerReceived_stays {a s : State} (port : Slice) (k : Nat) (h : Stays a s) :
    StaysOut a (execMarkerReceived port k s) := by
  unfold execMarkerReceived
  repeat' first
    | with_reducible assumption
    | with_reducible apply staysOut_next
    | with_reducible apply dropLanded_stays
    | with_reducible apply takeMarker_stays
    | split

theorem execMarkSend_stays {a s : State} (r : Req) (h : Stays a s) :
    StaysOut a (execMarkSend r s) := by
  unfold execMarkSend
  repeat' first
    | with_reducible assumption
    | with_reducible apply staysOut_next
    | with_reducible apply serveWrite_stays
    | with_reducible apply wMarkSend_stays
    | intro _

end Sys2Proof.Machine
end

