-- ==== Sys2Proof/Laws/StepTrain.lean ====
section
/-! SUPPORT. Laws/StepTrain.lean: the meanings of Machine/Train.lean leave the queue of waiting commands alone and keep the commit
record legal. -/

namespace Sys2Proof.Machine

theorem execWindowClose_stays {a s : State} (i : Fin 64) (h : Stays a s) :
    StaysOut a (execWindowClose i s) := by
  unfold execWindowClose
  repeat' first
    | with_reducible assumption
    | with_reducible apply staysOut_next
    | with_reducible apply capMoved_stays
    | with_reducible apply modSched_stays
    | split

theorem execSchedEntryFire_stays {a s : State} (i : Fin 64) (h : Stays a s) :
    StaysOut a (execSchedEntryFire i s) := by
  unfold execSchedEntryFire
  repeat' first
    | with_reducible assumption
    | with_reducible apply staysOut_next
    | with_reducible apply boundaryDue_stays
    | with_reducible apply capMoved_stays
    | with_reducible apply modSched_stays
    | with_reducible apply openEval_stays
    | with_reducible apply raiseMod_stays
    | split
    | simp only [stays_upd]

theorem execGateEvaluate_stays {a s : State}  (h : Stays a s) :
    StaysOut a (execGateEvaluate s) := by
  unfold execGateEvaluate
  repeat' first
    | with_reducible assumption
    | with_reducible apply staysOut_next
    | with_reducible apply beginStep_stays
    | with_reducible apply modRed_stays
    | with_reducible apply modRun_stays
    | with_reducible apply raiseMod_stays
    | with_reducible apply raiseOutcome_stays
    | with_reducible apply writeLast_stays
    | split
    | (lift_lets; intro t;
        clear_value t)
    | intro _
    | simp only [stays_upd]

theorem execStepFlip_stays {a s : State}  (h : Stays a s) :
    StaysOut a (execStepFlip s) := by
  unfold execStepFlip
  repeat' first
    | with_reducible assumption
    | with_reducible refine fun _ => ?_
    | with_reducible apply staysOut_next
    | with_reducible apply afterFlip_stays
    | with_reducible apply boundaryTaken_stays
    | with_reducible apply flipWatch_stays
    | with_reducible apply flip_stays
    | with_reducible apply modRun_stays
    | with_reducible apply takeUeBanks_stays
    | split
    | simp only [stays_upd]

theorem execAgReceived_stays {a s : State} (port : Slice) (k : Nat) (h : Stays a s) :
    StaysOut a (execAgReceived port k s) := by
  unfold execAgReceived
  repeat' first
    | with_reducible assumption
    | with_reducible apply staysOut_next
    | with_reducible apply agPump_stays
    | with_reducible apply dropLanded_stays
    | with_reducible apply dropStale_stays
    | with_reducible apply finishA_stays
    | with_reducible apply modRedSl_stays
    | with_reducible apply noteProgress_stays
    | with_reducible apply planWrite_stays
    | with_reducible apply sendAg_stays
    | with_reducible refine Stays.foldl (fun _ _ _ => ?_) ?_
    | with_reducible refine Stays.foldlSnd (fun _ _ _ _ => ?_) ?_
    | split

theorem execBuddyReceived_stays {a s : State} (port : Slice) (k : Nat) (h : Stays a s) :
    StaysOut a (execBuddyReceived port k s) := by
  unfold execBuddyReceived
  repeat' first
    | with_reducible assumption
    | with_reducible apply staysOut_next
    | with_reducible apply dropLanded_stays
    | with_reducible apply dropStale_stays
    | with_reducible apply modRedSl_stays
    | with_reducible apply planWrite_stays
    | with_reducible refine Stays.foldl (fun _ _ _ => ?_) ?_
    | with_reducible refine Stays.foldlSnd (fun _ _ _ _ => ?_) ?_
    | split
    | simp only [stays_upd]

theorem execBuddyCopyComplete_stays {a s : State}  (h : Stays a s) :
    StaysOut a (execBuddyCopyComplete s) := by
  unfold execBuddyCopyComplete
  repeat' first
    | with_reducible assumption
    | with_reducible apply staysOut_next
    | with_reducible apply modRedSl_stays
    | with_reducible apply sendBundle_stays
    | with_reducible refine Stays.foldl (fun _ _ _ => ?_) ?_
    | with_reducible refine Stays.foldlSnd (fun _ _ _ _ => ?_) ?_
    | split
    | simp only [stays_upd]

theorem execBuddyAck_stays {a s : State} (port : Slice) (k : Nat) (h : Stays a s) :
    StaysOut a (execBuddyAck port k s) := by
  unfold execBuddyAck
  repeat' first
    | with_reducible assumption
    | with_reducible apply staysOut_next
    | with_reducible apply dropLanded_stays
    | with_reducible apply dropStale_stays
    | with_reducible apply noteProgress_stays
    | split
    | simp only [stays_upd]

theorem execReadyTaskStart_stays {a s : State} (b : Nat) (h : Stays a s) :
    StaysOut a (execReadyTaskStart b s) := by
  unfold execReadyTaskStart
  repeat' first
    | with_reducible assumption
    | with_reducible refine fun _ => ?_
    | with_reducible apply staysOut_next
    | with_reducible apply modRun_stays
    | with_reducible apply raiseMod_stays
    | with_reducible apply recvCobalt_stays
    | with_reducible apply sendReply_stays
    | with_reducible apply startTask_stays
    | with_reducible refine Stays.foldl (fun _ _ _ => ?_) ?_
    | with_reducible refine Stays.foldlSnd (fun _ _ _ _ => ?_) ?_
    | split
    | simp only [stays_upd]

end Sys2Proof.Machine
end

