-- ==== Sys2Proof/Laws/StepUpdate.lean ====
section
/-! SUPPORT. Laws/StepUpdate.lean: the meanings of Machine/Update.lean leave the queue of waiting commands alone and keep the commit
record legal. -/

namespace Sys2Proof.Machine

theorem execUpdateStart_stays {a s : State}  (h : Stays a s) :
    StaysOut a (execUpdateStart s) := by
  unfold execUpdateStart
  repeat' first
    | with_reducible assumption
    | with_reducible apply staysOut_next
    | with_reducible apply beginUpdate_stays
    | with_reducible apply modRun_stays
    | with_reducible refine Stays.foldl (fun _ _ _ => ?_) ?_
    | with_reducible refine Stays.foldlSnd (fun _ _ _ _ => ?_) ?_
    | split
    | simp only [stays_upd]

theorem execUeGComplete_stays {a s : State} (sl : Slice) (h : Stays a s) :
    StaysOut a (execUeGComplete sl s) := by
  unfold execUeGComplete
  repeat' first
    | with_reducible assumption
    | with_reducible apply staysOut_next
    | with_reducible apply modUe_stays
    | with_reducible apply ueRun_stays
    | split
    | simp only [stays_upd]

theorem execUeFault_stays {a s : State} (sl : Slice) (cause : Nat) (block : Nat) (h : Stays a s) :
    StaysOut a (execUeFault sl cause block s) := by
  unfold execUeFault
  repeat' first
    | with_reducible assumption
    | with_reducible apply staysOut_next
    | with_reducible apply modUe_stays
    | with_reducible apply raiseUe_stays
    | with_reducible apply ueReach_stays
    | split
    | (lift_lets; intro t;
        clear_value t)
    | intro _

end Sys2Proof.Machine
end

