-- ==== Sys2Proof/Laws/StepWatch.lean ====
section
/-! SUPPORT. Laws/StepWatch.lean: the meanings of Machine/Watch.lean leave the queue of waiting commands alone and keep the commit
record legal. -/

namespace Sys2Proof.Machine

theorem execTapSwitch_stays {a s : State} (p : Pid) (h : Stays a s) :
    StaysOut a (execTapSwitch p s) := by
  unfold execTapSwitch
  repeat' first
    | with_reducible assumption
    | with_reducible apply staysOut_next
    | with_reducible apply recvCobalt_stays
    | with_reducible apply tapSwitch_stays
    | split

theorem execTapClearIdle_stays {a s : State} (p : Pid) (h : Stays a s) :
    StaysOut a (execTapClearIdle p s) := by
  unfold execTapClearIdle
  repeat' first
    | with_reducible assumption
    | with_reducible apply staysOut_next
    | with_reducible apply clearIdle_stays
    | with_reducible apply recvCobalt_stays
    | split

theorem execTapClearActive_stays {a s : State} (p : Pid) (h : Stays a s) :
    StaysOut a (execTapClearActive p s) := by
  unfold execTapClearActive
  repeat' first
    | with_reducible assumption
    | with_reducible apply staysOut_next
    | with_reducible apply clearActive_stays
    | with_reducible apply recvCobalt_stays
    | split

end Sys2Proof.Machine
end

