-- ==== Sys2Proof/Laws/StepWhisk.lean ====
section
/-! SUPPORT. Laws/StepWhisk.lean: the meanings of Machine/Whisk.lean leave the queue of waiting commands alone and keep the commit
record legal. -/

namespace Sys2Proof.Machine

theorem execWhiskRun_stays {a s : State} (p : Pid) (h : Stays a s) :
    StaysOut a (execWhiskRun p s) := by
  unfold execWhiskRun
  repeat' first
    | with_reducible assumption
    | with_reducible refine fun _ => ?_
    | with_reducible apply staysOut_next
    | with_reducible apply finishWord_stays
    | with_reducible apply issueWord_stays
    | with_reducible apply modWh_stays
    | with_reducible apply raiseSk_stays
    | with_reducible apply readRange_stays
    | with_reducible apply waitTask_stays
    | split
    | simp only [stays_upd]

theorem execWhiskOpStart_stays {a s : State} (p : Pid) (errs : List (Nat × Bool)) (h : Stays a s) :
    StaysOut a (execWhiskOpStart p errs s) := by
  unfold execWhiskOpStart
  repeat' first
    | with_reducible assumption
    | with_reducible apply staysOut_next
    | with_reducible apply countOrder_stays
    | with_reducible apply modWh_stays
    | with_reducible apply postCompletion_stays
    | with_reducible apply startWhisk_stays
    | with_reducible apply strike_stays
    | with_reducible apply whiskSlots_stays
    | split
    | simp only [stays_upd]

theorem execWhiskOpEnd_stays {a s : State} (p : Pid) (h : Stays a s) :
    StaysOut a (execWhiskOpEnd p s) := by
  unfold execWhiskOpEnd
  repeat' first
    | with_reducible assumption
    | with_reducible apply staysOut_next
    | with_reducible apply whiskEnd_stays

theorem execWhiskFault_stays {a s : State} (p : Pid) (cause : Nat) (h : Stays a s) :
    StaysOut a (execWhiskFault p cause s) := by
  unfold execWhiskFault
  repeat' first
    | with_reducible assumption
    | with_reducible apply staysOut_next
    | with_reducible apply modWh_stays
    | with_reducible apply raiseSk_stays
    | split
    | simp only [stays_upd]

end Sys2Proof.Machine
end

