-- ==== Sys2Proof/WellFormed.lean ====
section
/-! DEFINITION. WellFormed.lean: which terms of Instr spell a happening that can arrive: every field within the width that
the spec gives it on the wire, in a frame or in a message. The meanings are total and ask for none of it. -/

namespace Sys2Proof

/-- A dictionary operation (17 R501, R507-R509): its session, source, number, place, type and value fit their fields. -/
def reqWf (r : Req) : Bool :=
  r.session < 2 ^ 32 && r.src < 2 ^ 16 && r.seq < 2 ^ 64 && r.op < 32 && r.typ < 256 && r.value.length ≤ 4400

/-- A rack-chain frame (17 R501). -/
def chainFrameWf (f : ChainFrame) : Bool :=
  f.dest < 2 ^ 16 && f.src < 2 ^ 16 && f.ctype < 256 && f.hops < 256 && f.body.length ≤ 4448

/-- The content of a link frame (11 R337, 12 R366, R380, R384). -/
def contentWf (c : Content) : Bool :=
  c.repoch < 256 && c.step < 2 ^ 16 && c.hop < 32 && c.origin < 1024 && c.count < 4 && c.block < 2 ^ 36 && c.sub < 4
    && c.destX < 32 && c.destY < 32 && c.srcX < 32 && c.srcY < 32 && c.hops < 64 && c.len < 32 && c.region < 16
    && c.addr < 2 ^ 36 && c.kind < 256 && c.nport < 256 && c.headers.length ≤ 4 && c.bytes.length ≤ 256

/-- A link frame (12 R367). -/
def frameWf (f : Frame) : Bool := f.seq < 256 && f.ack < 256 && f.credit < 256 && contentWf f.content

/-- What SELF_TEST may report (03 R80, R82, R84, 10 R283): logic, column and bank defects; the three reasons of a failed
adoption; a stack with a failed channel; the four directions of a link. -/
def selfTestWf (t : SelfTest) : Bool :=
  t.defects.all (fun d => 1 ≤ d.kind && d.kind ≤ 3 && d.a < 256 && d.b < 256)
    && t.adoptFails.all (fun f => 1 ≤ f.2 && f.2 ≤ 3) && t.failedStacks.all (fun f => 0 < f.2 && f.2 < 2 ^ 32)
    && t.linksDown.all (fun l => l.2 < 4)

/-- A reading of the carrier sensor: 16-bit registers (18 R531). -/
def sensorWf (x : Sensor) : Bool :=
  x.vinA < 65536 && x.vinB < 65536 && x.iinA < 65536 && x.iinB < 65536 && x.pin < 65536 && x.flow < 65536
    && decide (-32768 ≤ x.tInlet) && decide (x.tInlet < 32768) && decide (-32768 ≤ x.tOutlet) && decide (x.tOutlet < 32768)

/-- The granules in which an access meets an error: each at most once (06 R180). -/
def errsWf (errs : List (Nat × Bool)) : Bool := (errs.map (fun e => e.1)).eraseDups.length = errs.length

/-- The readings of the junction sensors of the 64 regions and the 4 rim strips (14 R434). -/
def tempsWf (temps : List Nat) : Bool := temps.length = 68 && temps.all (fun t => t < 256)

/-- The ARG of the steward's SHELF message (09 R277): the shelf's number fits its 4 bits. -/
def shelfWf (steward : Option Nat) : Bool := steward.all (fun n => n < 16)

/-- Whether a command is well formed. -/
def Instr.wf : Instr → Bool
  | .syncInRise _ _ => true
  | .syncInFall _ => true
  | .late => true
  | .wide => true
  | .stuck => true
  | .trainRestart => true
  | .oscillatorBeat => true
  | .holdoverEntry => true
  | .lockingEntry => true
  | .slewingEntry _ => true
  | .slewEnd => true
  | .holdoverLong => true
  | .stampReceived _ _ => true
  | .beatSymbolReceived _ _ _ => true
  | .cbcLoad r => reqWf r
  | .beatSourceWrite r => reqWf r
  | .beatLinkPortWrite r => reqWf r
  | .schedEntryWrite _ r => reqWf r
  | .schedEntryFire _ => true
  | .windowClose _ => true
  | .stepMarkRise => true
  | .markStuck => true
  | .markerReceived _ _ => true
  | .markSend r => reqWf r
  | .gateEvaluate => true
  | .updateStart => true
  | .ueGComplete _ => true
  | .stepFlip => true
  | .agReceived _ _ => true
  | .buddyReceived _ _ => true
  | .buddyCopyComplete => true
  | .buddyAck _ _ => true
  | .readyTaskStart b => b < 4096
  | .selfTestDone t => selfTestWf t
  | .holeRequest r => reqWf r
  | .passIssue _ => true
  | .passFlush _ => true
  | .stationaryLoadStart _ _ errs => errsWf errs
  | .passIssueBegin _ _ errs _ => errsWf errs
  | .passBoundary _ _ _ => true
  | .passDrainEnd _ _ => true
  | .passEmitEnd _ _ => true
  | .griddleFault _ _ cause _ => cause < 16
  | .memop _ => true
  | .memopDone _ _ => true
  | .slotSet _ => true
  | .slotReset _ => true
  | .slotResetAll _ => true
  | .slotComplete _ => true
  | .slotRelease _ => true
  | .slotDrainDone _ _ => true
  | .shelfOpen _ steward => shelfWf steward
  | .shelfClose _ steward => shelfWf steward
  | .shelfWakeDone _ _ => true
  | .shelfCloseDone _ _ => true
  | .slotLoad _ errs => errsWf errs
  | .slotStore _ => true
  | .correctionWriteback _ _ => true
  | .scrubAccess _ _ _ _ _ => true
  | .scrubForce _ _ => true
  | .ceWindowEnd => true
  | .ladleArm _ => true
  | .ladleStop _ => true
  | .ladleStopDone _ _ => true
  | .ladleBlockStart _ _ => true
  | .ladlePortionIssue _ _ => true
  | .ladlePortionComplete _ _ _ _ => true
  | .memTimeout _ _ _ => true
  | .ladleFault _ _ cause => cause < 16
  | .taskStart _ _ _ _ => true
  | .haltAll _ => true
  | .clearLoss _ => true
  | .sliceExpired _ => true
  | .taskWake _ _ _ => true
  | .waitSlotFull _ => true
  | .waitSlotEmpty _ => true
  | .waitCounter _ => true
  | .waitSignal _ => true
  | .signalSend _ => true
  | .signalReceived _ _ => true
  | .remoteComplete _ => true
  | .remoteRelease _ => true
  | .remoteCompleteReceived _ _ => true
  | .remoteReleaseReceived _ _ => true
  | .loopFor _ => true
  | .loopNext _ => true
  | .jump _ => true
  | .jumpIf _ => true
  | .loadi _ => true
  | .addi _ => true
  | .readreg _ => true
  | .spawn _ => true
  | .endTask _ => true
  | .yieldTask _ => true
  | .timeatAbs _ _ => true
  | .timeatRel _ _ => true
  | .planEvent _ => true
  | .whiskRun _ => true
  | .whiskOpStart _ errs => errsWf errs
  | .whiskOpEnd _ => true
  | .whiskFault _ cause => cause < 16
  | .tapSwitch _ => true
  | .tapClearIdle _ => true
  | .tapClearActive _ => true
  | .flitHop _ _ _ _ fails => fails ≤ 4
  | .routerParity _ _ => true
  | .flitLanding _ _ => true
  | .mergeLanding _ => true
  | .orderedMerge _ => true
  | .cancelReceived _ _ => true
  | .mcastBranchRelease _ _ => true
  | .mcastLag _ _ _ => true
  | .meshHold => true
  | .meshRelease => true
  | .westFullClock => true
  | .westHalfClock => true
  | .eastFullClock => true
  | .eastHalfClock => true
  | .tableWrite _ _ _ => true
  | .regRead _ _ offset => offset < 4096
  | .regWrite _ _ offset _ => offset < 4096
  | .reply _ => true
  | .eventRecord _ => true
  | .eventsSuppressed => true
  | .stackTempRead _ _ => true
  | .ecsRead _ _ => true
  | .stackScrub _ _ _ => true
  | .stackRowWindowEnd => true
  | .stackFailed _ _ => true
  | .memRead _ errs => errsWf errs
  | .memWrite _ => true
  | .rimWrite _ => true
  | .rimAdd _ => true
  | .raBlockOp _ block => block < 2 ^ 36
  | .raFault _ block => block < 2 ^ 36
  | .ueFault _ cause block => cause < 16 && block < 2 ^ 36
  | .optimizerWrite sub r => sub < 256 && reqWf r
  | .applyStep r => reqWf r
  | .classRangeWrite _ r => reqWf r
  | .bucketLaunch _ b => b < 4096
  | .bucketReduced _ b => b < 4096
  | .rsReceived _ _ => true
  | .linkAdd _ _ => true
  | .linkAdderParity _ => true
  | .checkReceived _ _ => true
  | .checkCompare _ block => block < 2 ^ 36
  | .traceReceived _ _ => true
  | .fuse _ => true
  | .fusedRecordForm => true
  | .fusedReceived _ _ => true
  | .watchdogStall _ => true
  | .watchdogStep => true
  | .clipNormWrite r => reqWf r
  | .skipLimitWrite r => reqWf r
  | .orderedWrite r => reqWf r
  | .checkDivisorWrite r => reqWf r
  | .reduceEpochWrite r => reqWf r
  | .linkFrameReceived _ _ frame _ _ => frameWf frame
  | .nakReceived _ _ => true
  | .replayTimeout _ _ => true
  | .laneLockLost _ _ => true
  | .laneBerWindow _ _ _ => true
  | .portFailedTimeout _ => true
  | .codewordLock _ => true
  | .trainingDone _ _ => true
  | .trainingTimeout _ => true
  | .linkHello _ _ => true
  | .helloPeriod _ => true
  | .join _ _ => true
  | .quiesce _ _ => true
  | .last _ _ => true
  | .portEnableWrite _ r => reqWf r
  | .cartridgePrepare _ r => reqWf r
  | .cartridgeReady _ => true
  | .cartridgeInserted _ serial => serial.length ≤ 64
  | .cartridgeLit _ => true
  | .cartridgeFailed _ => true
  | .cartridgeWear _ bias => bias ≤ 100
  | .claimPeriod => true
  | .claim _ _ => true
  | .torusSettingsWrite sub r => sub < 256 && reqWf r
  | .coordConfirm r => reqWf r
  | .restore _ _ => true
  | .droopDetect _ => true
  | .droopEnd _ _ => true
  | .droopWindow _ _ _ => true
  | .budgetEstimate _ counts _ => counts.length = 48
  | .levelRampDone _ => true
  | .modulePowerPeriod _ _ _ => true
  | .powerSet _ budget limit thermal _ force rsv => budget < 2 ^ 32 && limit < 32 && thermal < 32 && force < 32 && rsv < 2 ^ 16
  | .computeOff _ => true
  | .computeOn _ => true
  | .powerCoeff _ first coeffs => first < 64 && coeffs.length = 24
  | .checkWindow _ _ _ => true
  | .measuredPeriod _ _ => true
  | .marginMeasure _ _ => true
  | .thermalDownPeriod temps => tempsWf temps
  | .thermalUpPeriod temps => tempsWf temps
  | .regionTrip _ => true
  | .heatIsolation _ => true
  | .meshHeatEmergency _ _ => true
  | .stackThrottle => true
  | .baseCapWrite r => reqWf r
  | .capProfileWrite _ r => reqWf r
  | .maxPointWrite r => reqWf r
  | .pwrEnAssert _ _ => true
  | .softStartDone => true
  | .stage2Start => true
  | .pwrEnDeassert => true
  | .inputLockout => true
  | .lockoutClear => true
  | .inputPairLost _ => true
  | .inputPairReturn _ => true
  | .coolantRead x => sensorWf x
  | .resetN => true
  | .moduleReset => true
  | .stewardFault _ => true
  | .regionShort _ => true
  | .rollback _ _ => true
  | .state _ _ => true
  | .resumeRule => true
  | .rollbackDone => true
  | .restoreReq _ _ => true
  | .spareAdopt => true
  | .alertAck r => reqWf r
  | .nonce r => reqWf r
  | .reportReady session => session < 2 ^ 32
  | .updateData r => reqWf r
  | .updateVerify r => reqWf r
  | .updateVerifyDone => true
  | .updateDiscard r => reqWf r
  | .ownerKey r => reqWf r
  | .shupoHello _ clientKey clientEph clientNonce => clientKey.length = 32 && clientEph.length = 32 && clientNonce.length = 32
  | .proof session signature => session < 2 ^ 32 && signature.length = 64
  | .proofTimeout session => session < 2 ^ 32
  | .close session _ => session < 2 ^ 32
  | .sessionTimeout session => session < 2 ^ 32
  | .dictWrite index sub r => index < 2 ^ 16 && sub < 256 && reqWf r
  | .subscribe r => reqWf r
  | .assign f => chainFrameWf f
  | .clearAddress f => chainFrameWf f
  | .chainInputLost => true
  | .chainBypassOpen => true
  | .commandStart r => reqWf r
  | .commandPause r => reqWf r
  | .commandStop r => reqWf r
  | .commandResume r => reqWf r
  | .enterService r => reqWf r
  | .commandReset r => reqWf r
  | .nodeIdWrite r => reqWf r
  | .ipConfigWrite _ r => reqWf r
  | .planData r => reqWf r
  | .loadPlan r => reqWf r
  | .loadPlanDone => true
  | .unload r => reqWf r
  | .loadJob r => reqWf r
  | .loadJobDone => true
  | .planDiscard r => reqWf r
  | .jobAddressWrite r => reqWf r
  | .jobData r => reqWf r
  | .cartridgeRemoved _ => true
  | .resetNRelease => true
  | .stepMarkFall _ => true
  | .taskTableParity _ _ => true
  | .chainFrame f _ => chainFrameWf f
  | .ipConfigApply _ => true

end Sys2Proof
end

