-- ==== Sys2Proof/Tests/Slice0.lean ====
section
/-! SUPPORT. Tests/Slice0.lean: the model's own tests. First small states and requests; then the terms that WellFormed
refuses; then decoding and single steps whose results the spec gives; then, for each statement with hypotheses, a state and
operands that meet them. -/

set_option maxRecDepth 100000

namespace Sys2Proof.Tests
open Sys2Proof.Machine

/-- An open session of the service class. -/
def w0 : Session := { num := 1, open_ := true, cls := .service }

/-- A state in a lifecycle state, with that session open. -/
def st (l : Life) : State := { State.reset with life := { st := l }, dict := { sessions := [w0] } }

/-- A WRITE in that session. -/
def rq (typ : Nat) (v : List Byte) : Req :=
  { via := .eth0, session := 1, src := 0, seq := 1, op := 0, tagOk := true, typ := typ, value := v }

end Sys2Proof.Tests

namespace Sys2Proof.Tests
open Sys2Proof.Machine

/-- Skillet 0 with its compute domain on, task 15 running at PC 2 with the word there, changed by f. -/
def sqw (w : Nat) (f : Skillet → Skillet) : State :=
  (st .running).modSk 0 (fun k => f { k with
    computeOn := true
    pantry := { k.pantry with mem := Mem.store [] 32 (leBytes 16 w) }
    seq := { k.seq with current := some 15, tasks := vset k.seq.tasks 15 { pc := 2, st := .running } } })

/-- A plan word: family, operation and the field [111:0]. -/
def wd (family op field : Nat) : Nat := family * 2 ^ 124 + op * 2 ^ 120 + field

/-- Skillet 0 as above with the bytes of a descriptor from address 64 on. -/
def sqd (w : Nat) (bs : List Byte) : State :=
  sqw w (fun k => { k with pantry := { k.pantry with mem := Mem.store k.pantry.mem 64 bs } })

/-- A descriptor from its words. -/
def ds (ws : List Nat) : List Byte := ws.flatMap (leBytes 8)

end Sys2Proof.Tests

namespace Sys2Proof.Tests
open Sys2Proof Sys2Proof.Machine

/-! ### Terms that WellFormed refuses -/

theorem test_wf_req : (Instr.baseCapWrite (rq 3 [0#8, 80#8])).wf = true
    ∧ (Instr.baseCapWrite { rq 3 [] with op := 32 }).wf = false := by decide
theorem test_wf_bucket : (Instr.bucketLaunch 0 4095).wf = true ∧ (Instr.bucketLaunch 0 4096).wf = false := by decide
theorem test_wf_block : (Instr.raBlockOp 0 (2 ^ 36 - 1)).wf = true ∧ (Instr.raBlockOp 0 (2 ^ 36)).wf = false := by decide
theorem test_wf_cause : (Instr.ladleFault 0 0 16).wf = false ∧ (Instr.ueFault 0 16 0).wf = false := by decide
theorem test_wf_fails : (Instr.flitHop 0 4 .amber 0 4).wf = true ∧ (Instr.flitHop 0 4 .amber 0 5).wf = false := by decide
theorem test_wf_offset : (Instr.regRead 0 0 4095).wf = true ∧ (Instr.regRead 0 0 4096).wf = false := by decide
theorem test_wf_errs : (Instr.slotLoad 0 [(0, true), (1, false)]).wf = true ∧ (Instr.slotLoad 0 [(0, true), (0, false)]).wf = false := by
  decide
theorem test_wf_shelf : (Instr.shelfOpen 0 (some 15)).wf = true ∧ (Instr.shelfOpen 0 (some 16)).wf = false := by decide
theorem test_wf_selfTest : (Instr.selfTestDone ⟨[⟨3, 0, 255, 0⟩], [], [], [], []⟩).wf = true
    ∧ (Instr.selfTestDone ⟨[⟨4, 0, 0, 0⟩], [], [], [], []⟩).wf = false := by decide
theorem test_wf_frame : (Instr.linkFrameReceived 0 0 ⟨255, 0, false, .ash, 0, blankContent⟩ true true).wf = true
    ∧ (Instr.linkFrameReceived 0 0 ⟨256, 0, false, .ash, 0, blankContent⟩ true true).wf = false := by decide
theorem test_wf_content : (Instr.linkFrameReceived 0 0 ⟨0, 0, false, .ash, 0, { blankContent with hop := 32 }⟩ true true).wf = false := by
  decide
theorem test_wf_cartridge : (Instr.cartridgeWear 0 100).wf = true ∧ (Instr.cartridgeWear 0 101).wf = false := by decide
theorem test_wf_serial : (Instr.cartridgeInserted 0 (List.replicate 65 0)).wf = false := by decide
theorem test_wf_counts : (Instr.budgetEstimate 0 (List.replicate 48 0) 0).wf = true
    ∧ (Instr.budgetEstimate 0 (List.replicate 47 0) 0).wf = false := by decide
theorem test_wf_powerSet : (Instr.powerSet 0 0 31 0 false 0 0).wf = true ∧ (Instr.powerSet 0 0 32 0 false 0 0).wf = false := by
  decide
theorem test_wf_coeff : (Instr.powerCoeff 0 24 (List.replicate 24 0)).wf = true ∧ (Instr.powerCoeff 0 24 []).wf = false := by decide
theorem test_wf_temps : (Instr.thermalUpPeriod (List.replicate 68 80)).wf = true ∧ (Instr.thermalUpPeriod []).wf = false := by decide
theorem test_wf_sensor : (Instr.coolantRead ⟨5300, 5300, 1, 1, 1, -32768, 0, 0, false⟩).wf = true
    ∧ (Instr.coolantRead ⟨65536, 0, 0, 0, 0, 0, 0, 0, false⟩).wf = false := by decide
theorem test_wf_session : (Instr.proof (2 ^ 32) (List.replicate 64 0)).wf = false ∧ (Instr.proof 1 []).wf = false := by decide
theorem test_wf_hello : (Instr.shupoHello 0 [] [] []).wf = false := by decide
theorem test_wf_chain : (Instr.chainFrame ⟨0xFFFF, 0, 3, 255, []⟩ true).wf = true
    ∧ (Instr.chainFrame ⟨0x10000, 0, 3, 0, []⟩ true).wf = false := by decide

/-! ### Decoding, values and single steps, with results from the spec's text -/

/-- The table gives no row any bits, so no word spells a command. -/
theorem test_no_word_spells : decodeTableWord 0 0 = none ∧ decodeTableWord 32 0xFFFFFFFF = none
    ∧ State.reset.withFetchWord 8 1 = State.reset := ⟨rfl, rfl, rfl⟩

/-- 15 R450's example: ladle 5 of SK(2,6) is PLOC 0xD90D. -/
theorem test_ploc : plocUnit 50 (ldUnit 5) = 0xD90D := by decide

/-- The operand word of chapter 04's worked example: CHK 1, REL 1, SLOT 0x040, ADDR 0x30_0000, STRIDE 8. -/
theorem test_operandWord : bit 0xC100003000000008 63 = true ∧ bit 0xC100003000000008 62 = true
    ∧ bits 0xC100003000000008 61 50 = 0x040 ∧ bits 0xC100003000000008 15 0 = 8 := by decide

/-- The first pass of chapter 04's worked example: NATIVE, ZERO, no emit, N 248, K 256, M 512. -/
theorem test_passWord : (let d := passDescOf (leBytes 8 0x1114000F82000200 ++ List.replicate 56 0)
    d.m = 512 ∧ d.n = 248 ∧ d.k = 256 ∧ d.emit = false ∧ d.load = .native ∧ d.init = .zero) := by decide

/-- The last pass of that example: CONTINUE and EMIT. -/
theorem test_passWord_emit : (let d := passDescOf (leBytes 8 0x1115800F82000200 ++ List.replicate 56 0)
    d.emit = true ∧ d.init = .continue_) := by decide

/-- Chapter 03's worked example: with PIDs 3, 46 and 57 holes and PID 26 a new one, L25 moves to PID 59, at distance 5. -/
theorem test_relocation :
    (let holes : List Pid := [3, 46, 57, 26]
     let e : Effective := {
       sk := Vector.ofFn (fun p => if holes.contains p then { hole := some 1 } else {})
       map := Vector.ofFn (fun l => Fin.ofNat 64 (if l.val < 3 then l.val else if l.val < 45 then l.val + 1
         else if l.val < 55 then l.val + 2 else l.val + 3)) }
     vget e.map 25 = 26 ∧ e.nearest 26 = some 59 ∧ pidDist 26 59 = 5) := by decide

/-- 11 R325: a sum out of range raises the exponent once, and ties go to even. -/
theorem test_raise : G16.add ⟨5, 0, false, false, false, [32767, 1]⟩ ⟨5, 0, false, false, false, [2, 2]⟩
    = ⟨6, 1, false, false, false, [16384, 2]⟩ := by decide

/-- 01 R23: a flag at the limit of skips is HALT, below it SKIP, and a limit of 0 disables HALT. -/
theorem test_gate : gateOutcome 4 16 15 = .halt ∧ gateOutcome 4 16 14 = .skip ∧ gateOutcome 4 0 99 = .skip
    ∧ gateOutcome 0 1 99 = .commit := by decide

/-- 02 R47: a counted beat of a powered module advances COUNT from its top to 0. -/
theorem test_beat_wraps : (countBeat ((st .running).modTime (fun t => { t with count := 2 ^ 64 - 1 }))).time.count = 0 := by decide

/-- 14 R423: BASE_CAP 301 is refused, and the cap stays. -/
theorem test_baseCap : (serveWrite (st .running) (rq 3 [1#8, 45#8]) 0x3000 1 wBaseCap).power.baseCap = 270
    ∧ (serveWrite (st .running) (rq 3 [1#8, 44#8]) 0x3000 1 wBaseCap).power.baseCap = 300 := by decide

/-- 06 R157: a store is little-endian, and its neighbours stay. -/
theorem test_store : Mem.get (Mem.store [] 8 (leBytes 8 0x0102030405060708)) 8 = 8#8
    ∧ Mem.get (Mem.store [] 8 (leBytes 8 0x0102030405060708)) 15 = 1#8 ∧ Mem.get (Mem.store [] 8 (leBytes 8 7)) 16 = 0#8 := by decide

/-- Writing what an unlisted byte reads as removes its entry. -/
theorem test_canonical : Mem.store (Mem.store [] 4 [7#8]) 4 [0#8] = [] := by decide

/-! ### States that meet the hypotheses of the statements -/

/-- A queue of two commands, and the empty queue of the reset state. -/
theorem witness_StepRunsFrontCommand :
    ({ State.reset with pending := [Instr.gateEvaluate, Instr.stepFlip] }.pending = Instr.gateEvaluate :: [Instr.stepFlip])
    ∧ State.reset.pending = [] := by decide

/-- A command that answers a next state with a command waiting, and a step. -/
theorem witness_QueueIsTheSendersAlone :
    let s : State := { st .running with pending := [Instr.gateEvaluate, Instr.stepFlip] }
    exec .gateEvaluate s = .next s ∧ step s = .next { s with pending := [Instr.stepFlip] } := ⟨rfl, rfl⟩

/-- The reset state with a command waiting meets the hypotheses. -/
theorem witness_StepKeepsCommitLegal :
    let s : State := { State.reset with pending := [Instr.gateEvaluate] }
    CommitLegal s ∧ step s = .next { s with pending := [] } := ⟨by unfold CommitLegal; decide, rfl⟩

/-- A write of a read-only entry, one above its range, a repeated one and one numbered below the last. -/
theorem witness_DictionaryWritesTurnedAway :
    (servedWrite (st .running) (rq 3 [0#8, 1#8]) 0x1200 = true ∧ (st .running).session (rq 3 [0#8, 1#8]) = some w0
      ∧ writeChecks (st .running) (rq 3 [0#8, 1#8]) w0 0x1200 1 = 0x0201)
    ∧ (Passes (st .running) (rq 3 [1#8, 45#8]) 0x3000 1 w0 ∧ (wBaseCap (rq 3 [1#8, 45#8]) (st .running)).1 = 0x0304)
    ∧ (let x : Session := { w0 with lastSeq := 1, answers := [(0, 0)] }
       let s : State := { st .running with dict := { sessions := [x] } }
       let y : Session := { w0 with lastSeq := 9 }
       let u : State := { st .running with dict := { sessions := [y] } }
       servedWrite s (rq 3 []) 0x3000 = true ∧ s.session (rq 3 []) = some x ∧ opDiscarded (rq 3 []) x = false
         ∧ (rq 3 []).seq = x.lastSeq ∧ x.answers.any (fun a => a.1 == (rq 3 []).op) = true
         ∧ servedWrite u (rq 3 []) 0x3000 = true ∧ u.session (rq 3 []) = some y ∧ (rq 3 []).seq < y.lastSeq) :=
  ⟨by decide, ⟨.of_checks (by decide), by decide⟩, by decide⟩

/-- Two blocks whose sum stays, two whose sum raises, two at RAISES 15 and two at EXP 0xFE, and a header with EXP 0xFF. -/
theorem witness_GradientAdditionRule :
    let g (e n : Nat) (x : Int) : G16 := ⟨e, n, false, false, false, List.replicate 32 x⟩
    (g 3 0 1).exp ≤ (g 5 0 1).exp
    ∧ G16.add (g 5 0 3) (g 4 0 1) = g 5 0 4
    ∧ G16.add (g 5 0 32767) (g 5 0 32767) = g 6 1 32767
    ∧ G16.add (g 5 15 32767) (g 5 0 1) = { g 5 15 32767 with sat := true }
    ∧ G16.add (g 0xFE 2 32767) (g 0xFE 0 1) = { g 0xFE 2 32767 with sovf := true }
    ∧ (G16.ofBytes 0xFF00#16 []).nonfinite = true ∧ (0xFF00#16).toNat / 256 = 0xFF := by decide

/-- A hole at PID 0 that carries logical number 0, with the eight spares of the last row left. -/
theorem witness_NearestSpareTakesOver :
    let s : State := { st .recovering with col := { eff := { sk := vmod (Vector.replicate 64 {}) 0 (fun k => { k with hole := some 1 }) } } }
    s.col.eff.isHole (vget s.col.eff.map 0) = true ∧ s.col.eff.nearest (vget s.col.eff.map 0) = some 56
    ∧ s.col.eff.spares ≠ [] ∧ (adoptCheck (some []) 56 s).1 = 0 := by decide

/-- States that meet the hypotheses of each clause. -/
theorem witness_BeatInputEdgesComplete :
    ((st .linkUp).time.syncHigh = false ∧ (st .linkUp).powered = true ∧ (st .linkUp).time.source = 0
      ∧ (st .linkUp).time.train.hasRef = false ∧ (st .linkUp).time.follows = false)
    ∧ (let s := (st .linkUp).modTime (fun t => { t with train := { hasRef := true } })
       s.time.syncHigh = false ∧ s.powered = true ∧ s.time.source = 0 ∧ s.time.train.hasRef = true
         ∧ s.time.follows = false ∧ s.time.source ≠ 2)
    ∧ (let s := (st .linkUp).modTime (fun t => { t with syncHigh := true, highAccepted := true })
       s.powered = true ∧ s.time.syncHigh = true ∧ s.time.highAccepted = true ∧ s.time.wideSeen = false
         ∧ s.time.stuckSeen = false ∧ s.time.source = 0) := by decide

/-- States that meet the hypotheses of each clause. -/
theorem witness_BeatCountingComplete :
    (let s := (st .linkUp).modTime (fun t => { t with train := { missed := 16 } })
     s.time.follows = false ∧ s.powered = true ∧ s.time.lock ≠ .slewing ∧ s.time.steer = false ∧ s.time.source ≠ 2
       ∧ 16 ≤ s.time.train.missed)
    ∧ ((st .linkUp).beatDue = false)
    ∧ (let s := (st .linkUp).modTime (fun t => { t with lock := .slewing })
       s.time.follows = false ∧ s.powered = true ∧ s.time.lock = .slewing ∧ s.time.steer = false ∧ s.beatDue = false)
    ∧ (let s := ((st .linkUp).modTime (fun t => { t with source := 1, linkPort := 3, train := { hasRef := true } })).modPort 3
         (fun p => { p with st := .inService })
       s.time.source = 1 ∧ s.time.linkPort = 3 ∧ (3 : Slice) ∈ livePorts s ∧ s.time.train.hasRef = true
         ∧ s.time.follows = false) := by decide

/-- States that meet the hypotheses of each clause. -/
theorem witness_LockStatesComplete :
    (let s := (st .linkUp).modTime (fun t => { t with lock := .locked, anomalies := List.replicate 16 0 })
     16 ≤ (s.time.anomalies.filter (fun a => s.time.ticks < a + 1000)).length ∧ s.time.source ≠ 2 ∧ s.time.follows = true)
    ∧ (let s := (st .linkUp).modTime (fun t => { t with train := { run := 64 } })
       s.time.lock = .unlocked ∧ s.time.source ≠ 2 ∧ 64 ≤ s.time.train.run)
    ∧ (let s := (st .linkUp).modTime (fun t => { t with lock := .holdover, train := { run := 256 }, refOffset := some 0 })
       s.time.lock = .holdover ∧ s.time.source ≠ 2 ∧ 256 ≤ s.time.train.run ∧ s.time.refOffset = some 0)
    ∧ (let s := (st .linkUp).modTime (fun t => { t with lock := .slewing, slewOffset := -8 })
       s.time.lock = .slewing ∧ s.time.slewOffset.natAbs ≤ 8)
    ∧ (let s := (st .linkUp).modTime (fun t => { t with lock := .holdover, holdoverBeats := 400001 })
       s.time.lock = .holdover ∧ 400000 < s.time.holdoverBeats ∧ s.time.longSeen = false ∧ s.time.awaitLoad = false
         ∧ s.time.refLoaded = false)
    ∧ (let s := (st .linkUp).modTime (fun t => { t with lock := .holdover, holdoverBeats := 400001, awaitLoad := true })
       s.time.lock = .holdover ∧ 400000 < s.time.holdoverBeats ∧ s.time.longSeen = false ∧ s.time.awaitLoad = true) := by
  decide

/-- A state and requests that meet the hypotheses of each clause. -/
theorem witness_TimeWritesComplete :
    let s := st .service
    let v := s.modTime (fun t => { t with valid := true })
    let h := s.modTime (fun t => { t with lock := .holdover, awaitStamp := true })
    let z := rq 5 (List.replicate 8 0)
    let e := rq 10 (List.replicate 16 0)
    let a := rq 10 (leBytes 16 (5 * 2 ^ 64 + 4 * 256 + 1))
    (Passes s z 0x3200 5 w0 ∧ s.time.awaits = false ∧ loadState s.life.st = true ∧ s.time.valid = false)
    ∧ (Passes v z 0x3200 5 w0 ∧ v.time.awaits = false ∧ loadState v.life.st = true ∧ v.time.valid = true
      ∧ v.time.count ≤ reqNat z)
    ∧ (Passes h z 0x3200 5 w0 ∧ h.time.awaits = true)
    ∧ (Passes s (rq 2 [1]) 0x3200 1 w0 ∧ s.runningOrPaused = false ∧ reqNat (rq 2 [1]) ≠ s.time.source)
    ∧ (Passes s (rq 2 [31]) 0x3200 2 w0 ∧ s.runningOrPaused = false ∧ reqNat (rq 2 [31]) ≠ s.time.linkPort ∧ s.time.source ≠ 1)
    ∧ (Passes s e 0x3210 63 w0 ∧ (vget s.sched.entries 63).arm = false ∧ (schedOf (leNat e.value)).arm = false
      ∧ (schedOf (leNat e.value)).kind ≤ 4)
    ∧ (Passes v a 0x3210 0 w0 ∧ (schedOf (leNat a.value)).arm = true
      ∧ armStatus v 0 (schedOf (leNat a.value)) = 0)
    ∧ Passes s z 0x3202 7 w0 :=
  ⟨⟨.of_checks (by decide), by decide⟩, ⟨.of_checks (by decide), by decide⟩, ⟨.of_checks (by decide), by decide⟩,
    ⟨.of_checks (by decide), by decide⟩, ⟨.of_checks (by decide), by decide⟩, ⟨.of_checks (by decide), by decide⟩,
    ⟨.of_checks (by decide), by decide⟩, .of_checks (by decide)⟩

/-- Frames of each kind at a port of a module whose A runs, a ring of two whose copy is held, and a bucket that is ready. -/
theorem witness_PhaseAComplete :
    (let fr (kind epoch : Nat) : Content := { blankContent with ftype := .reduce, kind := kind, repoch := epoch }
     let q (kind epoch : Nat) : State := { (st .running).modPort 3 (fun p => { p with landing := [fr kind epoch] }) with
       commit := { step := 1, loaded := true }, run := { aRunning := true } }
     landedReduce (q 3 0) 3 0 [3, 4] = some (fr 3 0) ∧ (q 3 0).run.aRunning = true ∧ (fr 3 0).repoch = (q 3 0).red.epoch
       ∧ (fr 3 0).step = (q 3 0).run.aStep % 65536
       ∧ landedReduce (q 7 0) 3 0 [7] = some (fr 7 0) ∧ (q 7 0).commit.loaded = true
       ∧ (fr 7 0).step = stepBefore (q 7 0).commit.step % 65536
       ∧ landedReduce (q 8 0) 3 0 [8] = some (fr 8 0) ∧ landedReduce (q 8 1) 3 0 [8] = some (fr 8 1)
       ∧ (fr 8 1).repoch ≠ (q 8 1).red.epoch)
    ∧ (let s := { (st .running).modRed (fun r => { r with buckets := [⟨0, 0, 0, true, 0, 0, 0⟩] }) with
        run := { active := true, ready := [0] } }
       s.red.buckets[0]? = some ⟨0, 0, 0, true, 0, 0, 0⟩ ∧ s.run.active = true ∧ s.life.st = .running
         ∧ s.run.ready.contains 0 = true ∧ s.run.readyNow = false ∧ ∀ sl : Slice, agHas s 0 sl = true)
    ∧ (({ readyNow := true, ready := [0] } : StepSt).readyNow = true
       ∧ ({ readyNow := true, ready := [0] } : StepSt).ready.head? = some 0) :=
  ⟨by decide, ⟨by decide, by decide, by decide, by decide, by decide, fun sl => by
    simp [agHas, agBlocks, State.padding, State.modRed, st, State.reset]⟩, by decide⟩

/-- Every record of the blocks of shard 1's first stripe in a stack. -/
def heldRecords (sl : Slice) : List (Nat × Nat) := (stripeBlocks 1 sl).flatMap (fun j => [(j, 0), (j, 1), (j, 2), (j, 3)])

/-- A ring of two that holds every record of the copy of step 0 of its -X neighbour's one stripe. -/
def ringHolding : State :=
  { ((st .running).modRed (fun r => { r with pTotal := 2048 })).modTorus (fun t => { t with x := 2, coord := 0 }) with
    commit := { step := 1, loaded := true }
    rim := { slices := Vector.ofFn (fun sl => { red := { buddyGot := heldRecords sl } }) } }
theorem ringHolding_slice (sl : Slice) : (ringHolding.slice sl).red.buddyGot = heldRecords sl := by
  simp [ringHolding, State.slice, vget]

theorem witness_PhaseAComplete_copy :
    1 < ringHolding.modules ∧ ringHolding.commit.loaded = true ∧ 0 < ringHolding.ownedStripes ∧
      ∀ sl : Slice, copyHeld ringHolding (ringHolding.slice 0).red.buddyStep sl = true := by
  refine ⟨by decide, by decide, by decide, fun sl => ?_⟩
  have h1 : (ringHolding.slice sl).red.buddyStep = (ringHolding.slice 0).red.buddyStep := by
    simp [ringHolding, State.slice, vget]
  have h2 : (List.range ringHolding.ownedStripes).flatMap (fun u => stripeBlocks (wardShard ringHolding + u * ringHolding.modules) sl)
      = stripeBlocks 1 sl := by
    have : ringHolding.ownedStripes = 1 ∧ wardShard ringHolding = 1 := by decide
    simp [this.1, this.2]
  simp only [copyHeld, h1, h2, ringHolding_slice]
  simp [heldRecords]

/-- A self-test that finds nothing. -/
def emptyTest : SelfTest := ⟨[], [], [], [], []⟩

/-- A module in SELF_TEST whose boot ends in quarantine, one that passes, and hole requests in SERVICE. -/
theorem witness_SelfTestComplete :
    (let s := { st .selfTest with sec := { quarantineBoot := true } }
     s.life.st = .selfTest ∧ (selfTested emptyTest s).sec.quarantineBoot = true)
    ∧ ((st .selfTest).life.st ≠ .quarantined ∧ 56 ≤ (selfTested emptyTest (st .selfTest)).col.eff.healthy
       ∧ (selfTested emptyTest (st .selfTest)).sec.quarantineBoot = false ∧ emptyTest.failedStacks = [])
    ∧ (Passes (st .service) (rq 2 [63#8]) 0x2006 1 w0 ∧ reqNat (rq 2 [63#8]) = (63 : Pid).val
       ∧ (st .service).isHole 63 = false ∧ 57 ≤ (st .service).col.eff.healthy)
    ∧ (let s := { st .service with col := { eff := ({} : Effective).apply (mkRec 1 1 63 0 0 0 0) } }
       Passes s (rq 2 [63#8]) 0x2006 1 w0 ∧ s.isHole 63 = true)
    ∧ (Passes (st .service) (rq 2 [64#8]) 0x2006 1 w0 ∧ reqNat (rq 2 [64#8]) = 64)
    ∧ (headerStatus { rq 0 [] with typ := 0 } = 0 ∧ (st .service).col.journal.length ≤ w0.journalIndex
       ∧ ({ journal := [mkRec 1 1 63 0 0 0 0] } : ColSt).journal[w0.journalIndex]? = some (mkRec 1 1 63 0 0 0 0)) :=
  ⟨by decide, by decide, ⟨.of_checks (by decide), by decide, by decide, by decide⟩, ⟨.of_checks (by decide), by decide⟩,
    ⟨.of_checks (by decide), by decide⟩, by decide⟩

/-- States that meet the hypotheses of each clause. -/
theorem witness_ScheduleAndMarkersComplete :
    (let w : Window := ⟨3, 5, 3, 0⟩
     let s := (st .running).modSched (fun c => { c with windows := [w] })
     let t := s.modTime (fun t => { t with count := 5 })
     t.sched.windows.any (fun w => w.entry = 3 && w.close ≤ t.time.count) = true)
    ∧ (let e (k : Nat) : SchedEntry := { time := 1, kind := k, arm := true, state := .armed }
       let at1 (k : Nat) : State := { (st .running).modSched (fun c => { c with entries := vset c.entries 63 (e k) }) with
         commit := { loaded := true }, time := { count := 1 } }
       (nextDue (at1 1) = some 63 ∧ (at1 1).commit.loaded = true ∧ (at1 1).life.st = .running ∧ (at1 1).run.boundary = none)
       ∧ nextDue ((at1 1).modRun (fun r => { r with boundary := some 1 })) = some 63
       ∧ nextDue (at1 2) = some 63 ∧ nextDue (at1 3) = some 63 ∧ nextDue (at1 4) = some 63)
    ∧ (let f (n : Nat) : Content := { blankContent with kind := n, bytes := List.replicate 8 0 ++ [2#8, 1#8] }
       let s := (st .linkUp).modPort 31 (fun p => { p with landing := [f 3, f 4] })
       landedNeighbour s 31 0 3 = some (f 3) ∧ landedNeighbour s 31 1 4 = some (f 4) ∧ s.time.valid = false
         ∧ s.time.source ≠ 2 ∧ s.sched.markHigh = false ∧ s.powered = true)
    ∧ (let s := (st .linkUp).modSched (fun c => { c with markHigh := true })
       s.sched.markHigh = true ∧ s.sched.markStuckSeen = false) := by decide

/-- A single module whose record is held. -/
theorem witness_GateDecidesTheStep :
    let f : Fused := { step := 0, sumsq := 0, loss := 0, tokens := 1, clipNorm := 0, skipLimit := 0, flags := 0, shard := 0, watch := [] }
    let s : State := { st .running with
      links := { torus := { x := 1, y := 1, coord := 0 } }, red := { gathered := [(0, f)], sent := true }, run := { active := true } }
    (allShards s).filterMap (fun k => Tab.find s.red.gathered k) = [f] ∧ [f].length = s.modules ∧ s.run.active = true
      ∧ s.red.sent = true := by decide

/-- States that meet the hypotheses of each clause. -/
theorem witness_UpdateCompletes :
    let e (o : Outcome) : Ended := { step := 0, outcome := o, clip := 0, tokens := 0, cOver := [], cQuiet := [], threshold := 0, quietSteps := 1, ownThreshold := 0, ownSteps := 1, sums := [] }
    let s : State := { st .running with run := { ended := [e .commit] }, rim := { acked := true } }
    let u : State := s.modUe 31 (fun u => { u with phase := 2 })
    let g : State := { s with run := { s.run with gRunning := true, boundary := some 1 } }
    let d : State := allSlices.foldl (fun t sl => t.modUe sl (fun u => { u with gDone := true })) g
    (s.run.ended = [e .commit] ∧ s.run.gRunning = false ∧ s.run.aRunning = false ∧ s.life.st = .running ∧ s.rim.acked = true)
    ∧ ((u.slice 31).ue.phase = 2 ∧ (u.slice 31).ue.gDone = false
      ∧ ((ueRun u 31 (engineBlocks u 31).length).slice 31).ue.goes = true)
    ∧ (d.life.held = none ∧ d.run.boundary = some 1 ∧ d.run.gRunning = true ∧ allSlices.all (fun sl => (d.slice sl).ue.gDone) = true)
    ∧ ({ g with run := { g.run with ended := [e .skip] } }.run.ended = [e .skip]) := by decide

/-- States that meet the hypotheses of each clause. -/
theorem witness_GriddleQueueComplete :
    (let s := sqd (wd 1 0 (2 ^ 87)) (ds [2 ^ 50, 0, 0, 0, 0, 0, 0, 0])
     Presents s 0 .issue 15 (wd 1 0 (2 ^ 87)) ∧ ((fetched s 0 15).gr 0 0).queue.length < 4 ∧ bits (wd 1 0 (2 ^ 87)) 109 87 = 1
       ∧ (let r := readRange (fetched s 0 15) 0 0 64 64; passStatus r.2 0 0 1 (passDescOf r.1.bytes) = 0))
    ∧ Presents (sqw (wd 1 1 (3 * 2 ^ 110)) id) 0 .flush 15 (wd 1 1 (3 * 2 ^ 110))
    ∧ (let i : Issuer := ⟨0, 0, false, 0, false⟩
       let d : PassDesc := { passDescOf (List.replicate 64 0) with m := 1, n := 1, k := 1, load := .native }
       let q : Pass := { desc := d, issuer := i, id := 7 }
       let z : Pass := { desc := passDescOf (List.replicate 64 0), issuer := i, id := 8 }
       let s (q : Pass) : State := (sqw 0 id).modGr 0 3 (fun x => { x with queue := [q] })
       ((s q).gr 0 3).waiting.find? (fun q => q.desc.loads) = some q ∧ q.desc.w2.chk = false ∧ (s q).computeOn 0 = true
         ∧ ((s z).gr 0 3).waiting.head? = some z ∧ passReady (s z) 0 3 z = true ∧ z.desc.empty = true) :=
  ⟨⟨.of_checks (by decide), by decide, by decide, by decide⟩, .of_checks (by decide), by decide⟩

/-- A descriptor of a pass on one row, one column and one product, and a griddle in each state. -/
theorem witness_GriddlePassComplete :
    let i : Issuer := ⟨0, 0, false, 0, false⟩
    let d (e : Bool) : PassDesc := { passDescOf (List.replicate 64 0) with m := 1, n := 1, k := 1, emit := e, load := .reuse, noRetry := true }
    let q (e : Bool) : Pass := { desc := d e, issuer := i, id := 7 }
    let w : Win := { id := 1, base := 0, rows := 1, m := 1, n := 1, aFmt := 0, wFmt := 0, oFmt := 0, passes := [q true], vals := [[0]] }
    let s (f : Griddle → Griddle) : State := (sqw 0 id).modGr 0 3 f
    (((s (fun x => { x with queue := [q false] })).gr 0 3).waiting.head? = some (q false)
      ∧ passReady (s (fun x => { x with queue := [q false] })) 0 3 (q false) = true ∧ (q false).desc.empty = false)
    ∧ (((s (fun x => { x with active := [⟨q true, .issue, 1, 0⟩] })).gr 0 3).active.find? (fun a => a.st == .issue)
        = some ⟨q true, .issue, 1, 0⟩ ∧ ((s (fun x => { x with active := [⟨q true, .issue, 1, 0⟩] })).gr 0 3).faulted = false)
    ∧ (((s (fun x => { x with active := [⟨q true, .drain, 1, 0⟩] })).gr 0 3).active.find? (fun a => a.st == .drain)
        = some ⟨q true, .drain, 1, 0⟩ ∧ (q true).desc.emit = true ∧ (q false).desc.emit = false)
    ∧ (((s (fun x => { x with active := [⟨q true, .emit, 1, 0⟩], windows := [w] })).gr 0 3).windows.find? (fun w => w.id == 1)
        = some w)
    ∧ ((s (fun x => { x with rejected := true })).gr 0 3).rejected = true
    ∧ faultTarget ((s (fun x => { x with active := [⟨q true, .issue, 1, 4⟩], windows := [w] })).gr 0 3) 4
        = some (some 1, q true) := by decide

/-- States that meet the hypotheses of each clause. -/
theorem witness_SlotWordsComplete :
    (let w := wd 4 0 (2 ^ 18 + 2 ^ 12 + 2 ^ 6)
     Presents (sqw w id) 0 .set 15 w ∧ slotSetStatus (fetched (sqw w id) 0 15) 0 (bits w 111 100) (bits w 63 0) = 0)
    ∧ (Presents (sqw (wd 4 1 (4095 * 2 ^ 100)) id) 0 .reset 15 (wd 4 1 (4095 * 2 ^ 100))
        ∧ workInProgress (fetched (sqw (wd 4 1 (4095 * 2 ^ 100)) id) 0 15) 0 = false)
    ∧ (Presents (sqw (wd 4 2 0) id) 0 .resetAll 15 (wd 4 2 0) ∧ workInProgress (fetched (sqw (wd 4 2 0) id) 0 15) 0 = false)
    ∧ Presents (sqw (wd 4 3 0) id) 0 .complete 15 (wd 4 3 0) ∧ Presents (sqw (wd 4 4 0) id) 0 .release 15 (wd 4 4 0)
    ∧ ((((st .running).modPn 0 (fun k => k.setSlot 4095 { st := .draining })).pn 0).slot 4095).st = .draining
    ∧ (let w := wd 4 8 (64 * 2 ^ 64)
       Presents (strike (sqw w id) 0 [(900, true)]) 0 .load 15 w ∧ bit w 108 = false
         ∧ (readRange (fetched (strike (sqw w id) 0 [(900, true)]) 0 15) 0 14 (bits w 92 64) 8).1.poison = false)
    ∧ (let w := wd 4 5 (2 * 2 ^ 88)
       let s := sqd w (ds [2 ^ 60, 0, 0, 0])
       let r := readRange (fetched s 0 15) 0 14 64 32
       Presents s 0 .memop 15 w ∧ bits w 111 88 = 2 ∧ memopStatus (r.2.pn 0) 64 (memDescOf r.1.bytes) = 0) :=
  ⟨⟨.of_checks (by decide), by decide⟩, ⟨.of_checks (by decide), by decide⟩, ⟨.of_checks (by decide), by decide⟩,
    .of_checks (by decide), .of_checks (by decide), by decide, ⟨.of_checks (by decide), by decide, by decide⟩,
    ⟨.of_checks (by decide), by decide, by decide⟩⟩

/-- A state that presents a STORE at an open shelf. -/
theorem witness_StoreWritesEightBytes :
    (let w := wd 4 9 (2 ^ 109 + (2 ^ 25 - 4) * 2 ^ 64)
     Presents (sqw w id) 0 .store 15 w ∧ bit w 108 = false ∧ rangeOpen ((sqw w id).pn 0) (bits w 92 64) 8 = true) :=
  ⟨.of_checks (by decide), by decide, by decide⟩

/-- A shelf in each state. -/
theorem witness_ShelfDataIsGone :
    (vget (((st .running).modPn 0 (fun k => { k with shelves := vset k.shelves 14 ⟨.waking, false⟩ })).pn 0).shelves 14).st = .waking
    ∧ (vget (((st .running).modPn 0 (fun k => { k with shelves := vset k.shelves 0 ⟨.closing, true⟩ })).pn 0).shelves 0).st = .closing := by
  decide

/-- States that meet the hypotheses of each clause. -/
theorem witness_PantryUpkeepComplete :
    (let s := (st .running).modPn 0 (fun k => { k with shelves := vset k.shelves 14 ⟨.off, false⟩ })
     (s.pn 0).shelf 14 = .off ∧ s.nodeLive 0 = true ∧ (s.pn 0).shelf 0 = .opened ∧ slotBars (recvCobalt s 0) 0 0 = false)
    ∧ (let w := wd 4 6 (14 * 2 ^ 108)
       let s := (sqw w id).modPn 0 (fun k => { k with shelves := vset k.shelves 14 ⟨.off, false⟩ })
       Presents s 0 .open_ 15 w ∧ bits w 111 108 = 14 ∧ ((fetched s 0 15).pn 0).shelf 14 = .off)
    ∧ (let w := wd 4 7 (14 * 2 ^ 108)
       Presents (sqw w id) 0 .close 15 w ∧ bits w 111 108 = 14 ∧ ((fetched (sqw w id) 0 15).pn 0).shelf 14 = .opened
         ∧ slotBars (fetched (sqw w id) 0 15) 0 14 = false)
    ∧ (let m : MemOp := { copy := false, length := 0, pattern := 0, src := {}, dst := {}, issuer := ⟨0, 0, false, 0, false⟩ }
       let s := (st .running).modPn 63 (fun k => { k with memopQueue := [m], corrupt := [5] })
       (s.pn 63).memopQueue[0]? = some m ∧ memopReady s 63 m = true ∧ m.length = 0
         ∧ rangeOpen (s.pn 63) ({ m with length := 1 } : MemOp).dst.base 64 = true ∧ s.powered = true ∧ 5 ∈ (s.pn 63).corrupt ∧ (s.pn 63).shelf (shelfOf (0 * 512 + 63 * 8)) = .opened ∧ (sqw 0 id).computeOn 0 = true ∧ ((sqw 0 id).pn 0).errors = []) :=
  ⟨by decide, ⟨.of_checks (by decide), by decide, by decide⟩, ⟨.of_checks (by decide), by decide, by decide, by decide⟩, by decide⟩

/-- States that meet the hypotheses of each clause. -/
theorem witness_LadleStreamsComplete :
    Presents (sqw (wd 2 0 (2 ^ 86)) id) 0 .arm 15 (wd 2 0 (2 ^ 86))
    ∧ (let s := sqd (wd 2 0 (2 ^ 86)) (ds [2 ^ 60 + 2 ^ 38, 0, 0, 0, 2 ^ 33 + 2 ^ 14, 2 ^ 40 + 2 ^ 16, 8, 9]); (walkChain 64 (fetched s 0 15) 0 0 [] 1).1 = 0)
    ∧ Presents (sqw (wd 2 1 (7 * 2 ^ 109)) id) 0 .stop 15 (wd 2 1 (7 * 2 ^ 109))
    ∧ ((advance (fetched (sqw (wd 2 1 (7 * 2 ^ 109)) id) 0 15) 0 15).ld 0 7).st = .idle
    ∧ (let s := (st .running).modLd 63 7 (fun d => { d with st := .stopping })
       (s.ld 63 7).st = .stopping ∧ (s.ld 63 7).portions = [])
    ∧ (let s := (st .running).modLd 63 7 (fun d => { d with st := .active, fault := 3 })
       (s.ld 63 7).st = .active ∧ (s.ld 63 7).fault = 3) :=
  ⟨.of_checks (by decide), by decide, .of_checks (by decide), by decide, by decide, by decide⟩

/-- States that meet the hypotheses of each clause. -/
theorem witness_LadlePortionsComplete :
    let act (d : Ladle) : Ladle := { d with st := .active, chain := [1] }
    let s := (sqd 0 (ds [2 ^ 60 + 2 ^ 38, 0, 0, 0, 2 ^ 33 + 2 ^ 14, 2 ^ 40 + 2 ^ 16, 8, 9])).modLd 0 7 act
    let z := (sqd 0 (ds [2 ^ 60 + 2 ^ 38 + 2 ^ 23, 0, 0, 0, 2 ^ 33 + 2 ^ 14, 2 ^ 40 + 2 ^ 16, 8, 9])).modLd 0 7 act
    let b : BlockRun := { serial := 0, listPos := 0, index := 0, head := listHead (ds [2 ^ 60 + 2 ^ 38]), block := blockOf (ds [2 ^ 33 + 2 ^ 14, 2 ^ 40 + 2 ^ 16, 8, 9]) }
    let x : Portion := { tag := 3, serial := 0, cls := .amber, deep := false, mem := true, space := .stack, len := 64, dstAddr := 0, dstChk := false, dstSlot := 0, fin := false, receivers := [], tap := none }
    ((s.ld 0 7).chain[(s.ld 0 7).listPos]? = some 1 ∧ (s.ld 0 7).list = none
      ∧ blockReady (loadList s 0 7) 0 (listBlock (readList s 0 7 1).1 0) = true ∧ listStatus (readList s 0 7 1).2 0 1 (readList s 0 7 1).1 = 0
      ∧ (s.ld 0 7).blockIx < (listHead (readList s 0 7 1).1).count ∧ (listBlock (readList s 0 7 1).1 0).empty = false)
    ∧ listStatus (readList z 0 7 1).2 0 1 (readList z 0 7 1).1 ≠ 0
    ∧ (let u := loadList s 0 7
       (u.ld 0 7).head.isSome = true ∧ ((u.ld 0 7).list.bind (fun bs => bs[(u.ld 0 7).blockIx]?)).isSome = true)
    ∧ (let r := s.modLd 0 7 (fun d => { d with blocks := [b] })
       (r.ld 0 7).blocks.find? (fun b => !b.issuedAll) = some b ∧ tagFree r 0 7 b.head = true)
    ∧ (let r := s.modLd 0 7 (fun d => { d with st := .stopping, portions := [x] })
       (r.ld 0 7).portions.find? (fun x => x.tag == 3) = some x ∧ x.answered = true ∧ x.space ≠ .pantry ∧ x.status = 0
         ∧ (r.ld 0 7).st = .stopping ∧ x.tap = none ∧ 64 ≤ (r.ld 0 7).lateLimit) := by decide

/-- States that present each word. -/
theorem witness_WaitWordsComplete :
    (∃ w, Presents (sqw w id) 0 .slotFull 15 w) ∧ (∃ w, Presents (sqw w id) 0 .slotEmpty 15 w)
    ∧ (∃ w, Presents (sqw w id) 0 .counter 15 w) ∧ (∃ w, Presents (sqw w id) 0 .signal 15 w)
    ∧ (∃ w, Presents { sqw w id with time := { valid := true } } 0 .abs 15 w) ∧ (∃ w, Presents (sqw w id) 0 .abs 15 w)
    ∧ (∃ w, Presents { sqw w id with time := { valid := true } } 0 .rel 15 w) :=
  ⟨⟨wd 5 0 0, .of_checks (by decide)⟩, ⟨wd 5 1 0, .of_checks (by decide)⟩, ⟨wd 5 2 (2 ^ 93), .of_checks (by decide)⟩,
    ⟨wd 5 3 (2 ^ 90), .of_checks (by decide)⟩, ⟨wd 10 0 0, .of_checks (by decide)⟩, ⟨wd 10 0 9, .of_checks (by decide)⟩,
    ⟨wd 10 1 0, .of_checks (by decide)⟩⟩

/-- States that present each word. -/
theorem witness_BranchWordsComplete :
    (∃ w, Presents (sqw w id) 0 .for_ 15 w ∧ forCount ((fetched (sqw w id) 0 15).task 0 15) w = 0)
    ∧ (∃ w, Presents (sqw w id) 0 .for_ 15 w ∧ forCount ((fetched (sqw w id) 0 15).task 0 15) w ≠ 0)
    ∧ (∃ w, let s := (sqw w id).modTask 0 15 (fun x => { x with loops := [⟨2, 3, 4⟩] })
        Presents s 0 .next 15 w ∧ ((fetched s 0 15).task 0 15).loops = [⟨2, 3, 4⟩])
    ∧ (∃ w, let s := (sqw w id).modTask 0 15 (fun x => { x with loops := [⟨1, 3, 4⟩] })
        Presents s 0 .next 15 w ∧ ((fetched s 0 15).task 0 15).loops = [⟨1, 3, 4⟩])
    ∧ (∃ w, Presents (sqw w id) 0 .jump 15 w) ∧ (∃ w, Presents (sqw w id) 0 .jumpIf 15 w)
    ∧ (∃ w, Presents (sqw w id) 0 .loadi 15 w) ∧ (∃ w, Presents (sqw w id) 0 .addi 15 w)
    ∧ (∃ w, Presents (sqw w id) 0 .readreg 15 w) :=
  ⟨⟨wd 7 0 0, .of_checks (by decide), by decide⟩, ⟨wd 7 0 (65536 * 2 ^ 91), .of_checks (by decide), by decide⟩,
    ⟨wd 7 1 0, .of_checks (by decide), by decide⟩, ⟨wd 7 1 0, .of_checks (by decide), by decide⟩,
    ⟨wd 8 0 (7 * 2 ^ 64), .of_checks (by decide)⟩, ⟨wd 8 1 (4 * 2 ^ 106), .of_checks (by decide)⟩,
    ⟨wd 8 2 (7 * 2 ^ 109 + 2 ^ 64 - 1), .of_checks (by decide)⟩, ⟨wd 8 3 (2 ^ 64 - 1), .of_checks (by decide)⟩,
    ⟨wd 8 4 (16 * 2 ^ 104), .of_checks (by decide)⟩⟩

/-- States that present each word. -/
theorem witness_TaskWordsComplete :
    (∃ w, Presents (sqw w id) 0 .spawn 15 w) ∧ (∃ w, Presents (sqw w id) 0 .end_ 15 w)
    ∧ (∃ w, Presents (sqw w id) 0 .yield_ 15 w) ∧ (∃ w, Presents (sqw w id) 0 .raise_ 15 w ∧ sendRoom (sqw w id) 0 = true)
    ∧ sendRoom { sqw 0 id with mesh := { cobalt := List.replicate 32 ⟨.event, 0, 68, 0, 0, [], none, false, 0⟩ } } 0 = false :=
  ⟨⟨wd 8 5 (3 * 2 ^ 108), .of_checks (by decide)⟩, ⟨wd 8 6 0, .of_checks (by decide)⟩, ⟨wd 9 0 0, .of_checks (by decide)⟩,
    ⟨wd 11 0 (255 * 2 ^ 104), .of_checks (by decide), by decide⟩, by decide⟩

/-- States that present each word, a full send queue, and a message in flight. -/
theorem witness_SignalsComplete :
    (∃ w, Presents (sqw w id) 0 .send 15 w ∧ sendRoom (sqw w id) 0 = true)
    ∧ (∃ w, let s : State := { sqw w id with col := { eff := { map := Vector.ofFn (fun i => Fin.ofNat 64 i.val) } } }
        Presents s 0 .remoteComplete 15 w ∧ sendRoom s 0 = true
          ∧ ((fetched s 0 15).modSq 0 (fun x => { x with signalsSent := sat64 x.signalsSent 1 })).pidOf (bits w 111 106) = some 55)
    ∧ (∃ w, let s : State := { sqw w id with col := { eff := { map := Vector.ofFn (fun i => Fin.ofNat 64 i.val) } } }
        Presents s 0 .remoteRelease 15 w ∧ sendRoom s 0 = true
          ∧ ((fetched s 0 15).modSq 0 (fun x => { x with signalsSent := sat64 x.signalsSent 1 })).pidOf (bits w 111 106) = some 0)
    ∧ (let m (k : CobaltKind) (src e : Nat) : CobaltMsg := ⟨k, src, 0, e, 63, [], none, false, 0⟩
       let s (k : CobaltKind) (src e : Nat) : State := { st .running with mesh := { cobalt := [m k src e] } }
       sendRoom { st .running with mesh := { cobalt := List.replicate 32 (m .signal 0 0) } } 0 = false
       ∧ (s .signal 1 0).nodeLive 0 = true
       ∧ takeMsg (s .signal 1 0).mesh.cobalt .signal 1 0 = some (m .signal 1 0, []) ∧ (m .signal 1 0).epoch = (s .signal 1 0).mesh.epoch
       ∧ cobaltAdmitted (m .signal 1 0) = true ∧ cobaltAdmitted (m .remoteComplete 1 0) = true ∧ cobaltAdmitted (m .remoteRelease 1 0) = true
       ∧ takeMsg (s .remoteComplete 1 0).mesh.cobalt .remoteComplete 1 0 = some (m .remoteComplete 1 0, [])
       ∧ takeMsg (s .remoteRelease 1 0).mesh.cobalt .remoteRelease 1 0 = some (m .remoteRelease 1 0, [])
       ∧ takeMsg (s .signal 1 9).mesh.cobalt .signal 1 0 = some (m .signal 1 9, []) ∧ (m .signal 1 9).epoch ≠ (s .signal 1 9).mesh.epoch) :=
  ⟨⟨wd 6 0 (5 * 2 ^ 106 + 1), .of_checks (by decide), by decide⟩, ⟨wd 6 1 (55 * 2 ^ 106), .of_checks (by decide), by decide, by decide⟩,
    ⟨wd 6 2 0, .of_checks (by decide), by decide, by decide⟩, by decide⟩

/-- A state that presents a word. -/
theorem witness_FetchOnlyCounts : ∃ w, Presents (sqw w id) 0 .jump 15 w
    ∧ (∀ e ∈ ((sqw w id).pn 0).errors, granuleIn (16 * ((sqw w id).task 0 15).pc) 16 e.1 = true → e.2 = false) :=
  ⟨wd 8 0 0, .of_checks (by decide), by decide⟩

/-- States that meet the hypotheses of each clause. -/
theorem witness_SequencerCommandsComplete :
    (((sqw 0 id).task 0 3).st = .free ∧ (sqw 0 id).nodeLive 0 = true ∧ (recvCobalt (sqw 0 id) 0).sequences 0 = true
      ∧ (sqw 0 id).sequences 0 = true)
    ∧ (let s := (sqw 0 id).modSq 0 (fun q => { q with hold := some (15, false) })
       (s.sq 0).hold.isSome = true ∧ (s.sq 0).current = some 15)
    ∧ (let s := (sqw 0 id).modTask 0 3 (fun x => { x with st := .ready })
       (s.sq 0).current = some 15 ∧ (s.sq 0).hold = none ∧ (s.sq 0).tasks.toList.any (fun x => x.st == .ready) = true)
    ∧ (let s := (sqw 0 id).modTask 0 15 (fun x => { x with st := .waiting, word := wd 5 1 0 })
       (s.task 0 15).st = .waiting ∧ wakeHolds s 0 15 ((s.atFrac 0).fracAt 0) = true
       ∧ (s.task 0 15).st ≠ .free ∧ (s.task 0 15).st ≠ .faulted)
    ∧ (0 : Pid) ∉ trainingPids (st .running) ∧ (st .running).nodeLive 0 = true := by decide

/-- States that meet the hypotheses of each clause. -/
theorem witness_WhiskComplete :
    (let s := sqd (wd 3 0 (2 ^ 89)) (ds [0x10 * 2 ^ 56, 0, 0, 1, 0, 0, 1, 0])
     let r := readRange (fetched s 0 15) 0 4 64 64
     Presents s 0 .run 15 (wd 3 0 (2 ^ 89)) ∧ ((fetched s 0 15).wh 0).queue.length < 4 ∧ bits (wd 3 0 (2 ^ 89)) 111 89 = 1
       ∧ whiskStatus (r.2.pn 0) 1 (whiskDescOf r.1.bytes) = 0)
    ∧ (let d := whiskDescOf (ds [0x10 * 2 ^ 56 + 2 ^ 18 + 1, 0, 0, 1, 0, 0, 1, 0])
       let x : WhiskOp := { addr := 0, desc := d, issuer := ⟨0, 0, false, 0, false⟩ }
       let z : WhiskOp := { x with desc := whiskDescOf (ds [0x10 * 2 ^ 56, 0, 0, 1, 0, 0, 1, 0]) }
       let s (q : List WhiskOp) (r : Option WhiskOp) : State := (sqw 0 id).modWh 0 (fun h => { h with queue := q, running := r })
       (((s [x] none).wh 0).halted = false ∧ (s [x] none).computeOn 0 = true ∧ x.desc.rows ≠ 0 ∧ x.desc.cols ≠ 0
         ∧ whiskSlotsOk ((s [x] none).modWh 0 (fun h => { h with queue := [] })) 0 x.desc = true)
       ∧ (z.desc.rows = 0 ∧ (s [z] none).computeOn 0 = true)
       ∧ (((s [] (some x)).wh 0).running = some x ∧ x.fault = 0)
       ∧ (({ x with fault := 2 }.fault) = 2 ∧ ((s [] (some { x with fault := 2 })).wh 0).halted = false))
    ∧ (∀ s : State, strike s 0 [] = s) :=
  ⟨⟨.of_checks (by decide), by decide, by decide, by decide⟩, by decide, fun _ => rfl⟩

/-- States that meet the hypotheses of each clause. -/
theorem witness_MeshControlComplete :
    (st .running).powered = true ∧ (st .running).nodeLive 67 = true ∧ (st .running).mesh.banksWritten = false ∧ (st .running).mesh.westHalf = false ∧ (st .running).mesh.eastHalf = false
    ∧ (let s : State := { st .running with mesh := { banksWritten := true, westHalf := true, eastHalf := true } }
       s.mesh.banksWritten = true ∧ s.mesh.westHalf = true ∧ s.mesh.eastHalf = true) := by decide

/-- States that meet the hypotheses of each clause. -/
theorem witness_MeshFlitsComplete :
    let f (k : FlitKind) : Flit := { blankFlit with kind := k, payload := [1#8], len := 1 }
    let s := sqw 0 id
    let land (xs : List Flit) : State := s.modRt 0 (fun r => { r with landing := vset r.landing 0 xs })
    let o : State := { s with mesh := { s.mesh with outQ := [(4, [{ flit := f .write, inp := 0 }])] } }
    (takeFlit (o.outQ 0 4) (f .write).cls 0 = some ({ flit := f .write, inp := 0 }, []) ∧ o.routes 0 = true ∧ o.nodeLive 0 = true
      ∧ (o.rt 0).cobaltDown.getLsbD (downBit 3) = false ∧ linkUp o 0 1 = true ∧ o.routes 1 = true ∧ seamOut 0 4 1 0 = none
      ∧ hasCredit o 0 1 (f .write).cls 0 = true ∧ canAccept o 1 3 (f .write) = true ∧ seamOut 3 4 1 0 ≠ none
      ∧ hasCredit o 3 1 (f .write).cls 0 = true
      ∧ hasCredit o 0 4 (f .write).cls 0 = true)
    ∧ (landingOf (land [f .write]) 0 .vermilion = [f .write] ∧ (land [f .write]).computeOn 0 = true
      ∧ slotHolds (land [f .write]) 0 (f .write) = false)
    ∧ (landingOf (land [f .merge]) 0 .vermilion = [f .merge] ∧ mergeEntry (land [f .merge]) 0 (f .merge).sumTag = none
      ∧ mergeOutside (land [f .merge]) 0 (f .merge) = false ∧ slotHolds (land [f .merge]) 0 (f .merge) = false
      ∧ mergeMismatch (openEntry { f .merge with fanin := 1, positions := 1, cnt := 1 })
          { f .merge with fanin := 1, positions := 1, cnt := 1 } = false)
    ∧ (let m := (land [f .merge]).modRt 0 (fun r => { r with merge := [{ openEntry (f .merge) with fanin := 2, positions := 1 }] })
       mergeEntry m 0 0 = some { openEntry (f .merge) with fanin := 2, positions := 1 }
         ∧ mergeMismatch { openEntry (f .merge) with fanin := 2, positions := 1 } { f .merge with fanin := 2, positions := 1 } = false)
    ∧ (let m := s.modRt 0 (fun r => { r with reorder := [{ f .merge with fanin := 1, positions := 1 }] })
       (m.rt 0).reorder = [{ f .merge with fanin := 1, positions := 1 }]
         ∧ entryFor m 0 { f .merge with fanin := 1, positions := 1 } = some (openEntry { f .merge with fanin := 1, positions := 1 }))
    ∧ landingOf (land [f .write, f .cancel]) 0 .vermilion = [f .write] ++ f .cancel :: [] := by decide

/-- States that meet the hypotheses of each clause. -/
theorem witness_RegisterMessagesComplete :
    ((st .running).nodeLive 63 = true ∧ regValue (recvCobalt (st .running) 63) 63 0x10 0 ≠ none)
    ∧ ((st .running).nodeLive 0 = true ∧ unitReserved 0 0x11 = true ∧ unitReserved 63 0xF = false)
    ∧ (let m (k : CobaltKind) (r : Option EventRec) : CobaltMsg := ⟨k, 68, 68, 0, 0, [], r, false, 0⟩
       let e : EventRec := ⟨1, .notice, true, 0, 0, 0, 0, 0, 0⟩
       let s (k : CobaltKind) (r : Option EventRec) : State := { st .running with mesh := { cobalt := [m k r] } }
       takeMsg (s .reply none).mesh.cobalt .reply 68 68 = some (m .reply none, []) ∧ (s .reply none).mesh.epoch = 0
       ∧ takeMsg (s .event (some e)).mesh.cobalt .event 68 68 = some (m .event (some e), []) ∧ (st .running).life.st ≠ .off) := by
  decide

/-- A cool stack of the reset state, with a burst in its range and no error. -/
theorem witness_StackUpkeepComplete :
    (st .running).powered = true ∧ (st .running).slice 3 = {} ∧ ((st .running).slice 3).mc.hot = false
    ∧ (((st .running).modMc 3 (fun m => { m with hot := true })).slice 3).mc.hot = true ∧ ((st .running).slice 3).mc.bad.contains 7 = false
    ∧ 85 ≤ 85 ∧ 79 < 80 ∧ 80 ≤ 80 ∧ 96 * 2 ^ 24 - 1 < 96 * 2 ^ 24 := by decide

/-- States with a flit of each kind at a stack and at a rim buffer; a write from a skillet with no SCRATCH region is
refused, one of the steward's is not. -/
theorem witness_MemPartsComplete :
    (let q (f : Flit) (port : Nat) : State := { st .running with mesh := { rimLanding := [(port, [f])] } }
     let rd := { blankFlit with kind := .memRead, src := 3, len := 64 }
     let wr := { blankFlit with kind := .memWrite, src := 3, last := true, payload := [7#8] }
     let is (s : State) (port : Nat) (k : FlitKind) (r : Option Bool) : Bool :=
       match rimTake s port [.memRead, .memWrite] with
       | some (f, t) => f.kind == k && (match r with | none => true | some b => partRefused t f true == b)
       | none => false
     is (q rd 64) 64 .memRead none ∧ is (q rd 99) 99 .memRead none ∧ is (q wr 95) 95 .memWrite (some true)
       ∧ is (q { wr with src := 68 } 95) 95 .memWrite (some false) ∧ is (q wr 96) 96 .memWrite none) := by decide

/-- A flit of each kind at a port, an operation in a queue, and an engine in G. -/
theorem witness_RemoteAccumulateComplete :
    (let q (k : FlitKind) : State := { st .running with mesh := { rimLanding := [(64, [{ blankFlit with kind := k }])] } }
     let is (k : FlitKind) : Bool := match rimTake (q k) 64 [.rimWrite, .rimAdd] with
       | some (f, t) => f.kind == k && !t.mesh.ordered && !(q k).mesh.ordered
       | none => false
     is .rimWrite ∧ is .rimAdd)
    ∧ (let s := (st .running).modRedSl 2 (fun r => { r with queue := [⟨128, true, 64, G16.zero⟩] })
       (takeRa s 2 128).isSome)
    ∧ ((st .running).padding 0 = true)
    ∧ (let s := (st .running).modRed (fun r => { r with pTotal := 32, buckets := [⟨0, 0, 0, false, 0, 0, 0⟩] })
       s.padding 0 = false ∧ bucketOf s 0 = some 0 ∧ bucketComplete s 0 0 = true)
    ∧ (let s := ((st .running).modUe 2 (fun u => { u with phase := 3, poisonAt := some 130 })).modRed (fun r => { r with pTotal := 1 })
       (s.slice 2).ue.phase ≠ 0 ∧ (s.slice 2).ue.stopped = false ∧ ueAt s 2 130 = true
         ∧ (s.slice 2).ue.poisonAt = some 130 ∧ (s.slice 2).ue.phase ≠ 2)
    ∧ (let s := ((st .running).modUe 2 (fun u => { u with phase := 2 })).modRed (fun r => { r with pTotal := 1 })
       (s.slice 2).ue.phase ≠ 0 ∧ (s.slice 2).ue.stopped = false ∧ ueAt s 2 130 = true
         ∧ ((ueReach s 2 130 1).slice 2).ue.poisonAt = none) := by decide

/-- Requests that pass the common checks, in each state. -/
theorem witness_OptimizerWritesComplete :
    Passes (st .paused) (rq 2 [2#8]) 0x5010 1 w0 ∧ Passes (st .running) (rq 2 [0#8]) 0x5010 1 w0
    ∧ Passes (st .paused) (rq 2 [3#8]) 0x5010 1 w0 ∧ reqNat (rq 2 [3#8]) = 3
    ∧ Passes (st .ready) (rq 8 [0x3F#8, 0x66#8, 0x66#8, 0x66#8]) 0x5010 7 w0
    ∧ f32Below1 (reqF32 (rq 8 [0x3F#8, 0x66#8, 0x66#8, 0x66#8])) = 0
    ∧ Passes (st .running) (rq 5 ((leBytes 8 1).reverse)) 0x5010 0x20 w0 ∧ (st .running).commit.step < 1
    ∧ Passes (st .ready) (rq 5 ((leBytes 8 (2 ^ 61 + 2 ^ 30 + 1)).reverse)) 0x5011 63 w0
    ∧ bits (2 ^ 61 + 2 ^ 30 + 1) 59 30 ≤ bits (2 ^ 61 + 2 ^ 30 + 1) 29 0 :=
  ⟨.of_checks (by decide), .of_checks (by decide), .of_checks (by decide), by decide, .of_checks (by decide), by decide,
    .of_checks (by decide), by decide, .of_checks (by decide), by decide⟩

/-- Requests that pass the common checks in each state. -/
theorem witness_ReductionWritesComplete :
    Passes (st .running) (rq 8 [0x3F#8, 0x80#8, 0#8, 0#8]) 0x6100 1 w0
    ∧ (f32num (reqF32 (rq 8 [0x3F#8, 0x80#8, 0#8, 0#8]))).isFin = true
    ∧ Machine.Num.lt (f32num (reqF32 (rq 8 [0x3F#8, 0x80#8, 0#8, 0#8]))) (numOf 0 0) = false
    ∧ Passes (st .running) (rq 3 [4#8, 0#8]) 0x6100 2 w0 ∧ reqNat (rq 3 [4#8, 0#8]) = 1024
    ∧ Passes (st .ready) (rq 1 [1#8]) 0x6101 1 w0 ∧ Passes (st .paused) (rq 1 [1#8]) 0x6101 1 w0
    ∧ Passes (st .service) (rq 1 [1#8]) 0x6101 1 w0 ∧ Passes (st .running) (rq 1 [1#8]) 0x6101 1 w0
    ∧ Passes (st .running) (rq 3 [0x10#8, 0#8]) 0x6101 2 w0 ∧ reqNat (rq 3 [0x10#8, 0#8]) = 2 ^ 12
    ∧ Passes (st .running) (rq 3 [0#8, 17#8]) 0x6101 2 w0 ∧ reqNat (rq 3 [0#8, 17#8]) = 17
    ∧ (∀ i, i ≤ 12 → 17 ≠ 2 ^ i)
    ∧ Passes (st .ready) (rq 2 [1#8]) 0x6105 1 w0 ∧ Passes (st .recovering) (rq 2 [1#8]) 0x6105 1 w0 :=
  ⟨.of_checks (by decide), by decide, by decide, .of_checks (by decide), by decide, .of_checks (by decide),
    .of_checks (by decide), .of_checks (by decide), .of_checks (by decide), .of_checks (by decide), by decide,
    .of_checks (by decide), by decide, by decide, .of_checks (by decide), .of_checks (by decide)⟩

/-- A write of QUIET_STEPS at the top of its range. -/
theorem witness_QuietSteps :
    Passes (st .running) (rq 3 [0xFF#8, 0xFF#8]) 0x6000 2 w0 ∧ reqNat (rq 3 [0xFF#8, 0xFF#8]) = 65535 :=
  ⟨.of_checks (by decide), by decide⟩

/-- States that meet each clause: a plan of one block and one bucket on a single module, then a ring of two. -/
theorem witness_BucketsComplete :
    (let s := { (st .running).modRed (fun r => { r with pTotal := 32, buckets := [⟨0, 0, 0, false, 0, 0, 0⟩] }) with
        run := { active := true } }
     s.run.active = true ∧ 0 = (s.slice 0).red.launched ∧ 0 < s.red.buckets.length ∧ bucketComplete s 0 0 = true
       ∧ (s.slice 0).red.queue.any (fun o => (bucketBlocks s 0 0).contains o.block) = false)
    ∧ (let s := (st .running).modRedSl 0 (fun r => { r with launched := 1 })
       0 < (s.slice 0).red.launched ∧ (s.slice 0).red.reduced.contains 0 = false ∧ bucketBlocks s 0 0 = []
         ∧ (s.slice 0).red.held = [] ∧ (s.slice 0).red.queue = [] ∧ ∀ n : Slice, portHolds s 0 0 (s.port n) = false)
    ∧ (let fr (epoch : Nat) : Content := { blankContent with ftype := .reduce, kind := 1, repoch := epoch }
       let q (epoch : Nat) : State := { (st .running).modPort 3 (fun p => { p with landing := [fr epoch] }) with
         run := { active := true } }
       landedReduce (q 1) 3 0 [1, 2] = some (fr 1) ∧ staleFrame (q 1) (fr 1) [(q 1).commit.step] = true
         ∧ landedReduce (q 0) 3 0 [1, 2] = some (fr 0) ∧ staleFrame (q 0) (fr 0) [(q 0).commit.step] = false
         ∧ (q 0).run.active = true ∧ heldAt (q 0) 3 + (frameBlocks (fr 0)).length ≤ 1024
         ∧ (frameBlocks (fr 0)).all (fun e => sumAwaited (q 0) false e.1) = true)
    ∧ (let h : RingHeld := ⟨false, 8, 0, 0, 0, G16.zero⟩
       let q (coord : Nat) : State := (((st .running).modRed (fun r => { r with pTotal := 32, buckets := [⟨0, 0, 0, false, 0, 0, 0⟩] })).modTorus
         (fun t => { t with x := 3, coord := coord })).modRedSl 0 (fun r => { r with held := [h], launched := 1 })
       ((q 0).slice 0).red.held[0]? = some h ∧ ringReady (q 0) false 0 = true
         ∧ ringPlace (q 0) false = ringOwner (q 0) false (blockStripe 0)
         ∧ ((q 1).slice 0).red.held[0]? = some h ∧ ringReady (q 1) false 0 = true
         ∧ ringPlace (q 1) false ≠ ringOwner (q 1) false (blockStripe 0))
    ∧ (∀ sl : Slice, ((st .running).slice sl).red.held = []) := by decide

/-- Frames of each kind at a port, and a sampled block of a ring of two that is final with both copies held. -/
theorem witness_ChecksComplete :
    (let fr (kind epoch : Nat) : Content := { blankContent with ftype := .reduce, kind := kind, repoch := epoch }
     let q (kind epoch : Nat) : State := { (st .running).modPort 3 (fun p => { p with landing := [fr kind epoch] }) with
       run := { active := true } }
     landedReduce (q 5 0) 3 0 [5] = some (fr 5 0) ∧ staleFrame (q 5 0) (fr 5 0) [(q 5 0).commit.step] = false
       ∧ (q 5 0).run.active = true
       ∧ (frameBlocks (fr 5 0)).any (fun e => ((q 5 0).slice (blockSlice e.1)).red.compared.contains e.1
           || (copyOf (q 5 0) e.1 0).isSome) = false
       ∧ landedReduce (q 5 1) 3 0 [5] = some (fr 5 1) ∧ staleFrame (q 5 1) (fr 5 1) [(q 5 1).commit.step] = true
       ∧ landedReduce (q 6 0) 3 0 [6] = some (fr 6 0) ∧ staleFrame (q 6 0) (fr 6 0) [(q 6 0).commit.step] = false)
    ∧ (let s := { (((st .running).modRed (fun r => { r with pTotal := 32 })).modTorus (fun t => { t with x := 2, coord := 0 })).modRedSl 0
         (fun r => { r with final := [0], checks := [⟨0, 0, G16.zero⟩, ⟨0, 1, G16.zero⟩] }) with run := { active := true } }
       s.run.active = true ∧ blockSlice 0 = 0 ∧ s.ownsBlock 0 = true ∧ sampled s 0 = true
         ∧ (s.slice 0).red.compared.contains 0 = false ∧ (s.slice 0).red.skipped.contains 0 = false
         ∧ (s.slice 0).red.final.contains 0 = true ∧ (fullFold s 0).isSome = true) := by decide

/-- A step of one module whose one bucket is REDUCED everywhere, and frames at a port. -/
theorem witness_FusedRecordsComplete :
    (let s := { (st .running).modRed (fun r => { r with buckets := [⟨0, 0, 0, false, 0, 0, 0⟩] }) with run := { active := true } }
     s.run.active = true ∧ s.nodeLive 66 = true ∧ vget s.red.fuse 2 = none ∧ s.red.buckets ≠ [] ∧ (sideSlices 2).all (fun sl => ueDone s sl) = true)
    ∧ (let s := { (st .running).modRed (fun r => { r with
         buckets := [⟨0, 0, 0, false, 0, 0, 0⟩], fuse := Vector.replicate 4 (some ⟨0, 0, 0⟩) }) with
         run := { active := true }, rim := { slices := Vector.replicate 32 { red := { reduced := [0] } } } }
       s.run.active = true ∧ s.red.sent = false ∧ s.red.fuse.toList.all (fun m => m.isSome) = true ∧ allReduced s = true
         ∧ checksDone s = true ∧ (trainingPids s).all (fun p => s.watch.read.contains p) = true ∧ s.modules = 1)
    ∧ (let fr (epoch : Nat) : Content := { blankContent with ftype := .reduce, kind := 9, repoch := epoch }
       let q (epoch : Nat) : State := { (st .running).modPort 3 (fun p => { p with landing := [fr epoch] }) with
         run := { active := true } }
       landedReduce (q 0) 3 0 [9] = some (fr 0) ∧ staleFrame (q 0) (fr 0) [(q 0).commit.step] = false
         ∧ (q 0).run.active = true ∧ Tab.find (q 0).red.gathered (fusedOf (fr 0).bytes).shard = none
         ∧ landedReduce (q 1) 3 0 [9] = some (fr 1) ∧ staleFrame (q 1) (fr 1) [(q 1).commit.step] = true) := by decide

/-- An active step with a block held on a ring since tick 0, and a recovery that gathers. -/
theorem witness_WatchdogOnlyReports :
    (let s := { (st .running).modRedSl 4 (fun r => { r with launched := 1 }) with
        run := { active := true }, time := { ticks := 900000000 } }
     (0 : Fin 6).val ≠ 5 ∧ (waitingAt s 0).1 = true ∧ s.run.stallRaised.contains 0 = false
       ∧ vget s.run.progress 0 + s.red.stallLimit ≤ s.time.ticks ∧ s.run.stepRaised = false
       ∧ s.run.begin_ + s.red.stepLimit ≤ s.time.ticks)
    ∧ (let s := { st .recovering with recov := { phase := 4 }, time := { ticks := 5000000 } }
       (waitingAt s 5).1 = true ∧ s.recov.stallRaised = false ∧ vget s.run.progress 5 + s.red.stallLimit ≤ s.time.ticks)
    ∧ ((({ stallRaised := [3] } : StepSt)).stallRaised.contains (3 : Fin 6).val = true) := by decide

/-- A lit port with a NAK and an unacknowledged frame on a lane, and error ratios on either side of the limits. -/
theorem witness_LinkLanesComplete :
    (let s := (st .running).modPort 3 (fun p => { p with
       st := .inService, lanes := [(5, { replay := [⟨0, blankContent, 1⟩], nakGot := true })] })
     (s.port 3).lit = true ∧ ((s.port 3).lane 5).nakGot = true ∧ ((s.port 3).lane 5).replay ≠ []
       ∧ blankContent.ftype ≠ .idle ∧ blankContent.ftype ≠ .reservedType
       ∧ Machine.Num.lt (numOf 24 0) (Machine.Num.mul (f32num 0x3A83126F#32) (numOf 100000 0)) = true
       ∧ Machine.Num.lt (numOf 24 0) (Machine.Num.mul (f32num 0#32) (numOf 100000 0)) = false
       ∧ Machine.Num.lt (f32num s.torus.berWarn) (f32num 0#32) = false) := by decide

/-- A port in each state, with the NEIGHBOUR frame of each type in its landing store, and writes of PORT_ENABLE. -/
theorem witness_PortStatesComplete :
    (let q (x : PortState) (kind : Nat) : State := (st .running).modPort 31 (fun p => { p with
       st := x, landing := [{ blankContent with kind := kind }] })
     let is (x : PortState) (kind : Nat) : Prop := ((q x kind).port 31).st = x
       ∧ landedNeighbour (q x kind) 31 0 kind = some { blankContent with kind := kind }
     ((q .failed 0).port 31).st = .failed ∧ ((q .down 0).port 31).st = .down ∧ ((q .training 0).port 31).st = .training
       ∧ is .verify 1 ∧ ((q .held 0).port 31).st = .held ∧ is .standby 5 ∧ is .inService 6 ∧ is .draining 7)
    ∧ (Passes (st .running) (rq 1 [0#8]) 0x4003 31 w0 ∧ reqNat (rq 1 [0#8]) = 0
       ∧ strandsBundle (countFrame (st .running) (rq 1 [0#8])) [31] = false)
    ∧ (let s := ((st .running).modTorus (fun t => { t with x := 2 })).modPort 8 (fun p => { p with st := .inService })
       Passes s (rq 1 [0#8]) 0x4003 8 w0 ∧ strandsBundle (countFrame s (rq 1 [0#8])) [8] = true) :=
  ⟨by decide, ⟨.of_checks (by decide), by decide, by decide⟩, ⟨.of_checks (by decide), by decide⟩⟩

/-- A bay in each state and writes of CARTRIDGE_PREPARE. -/
theorem witness_CartridgesComplete :
    (let s := ((st .running).modTorus (fun t => { t with x := 2 })).modPort 8 (fun p => { p with st := .inService })
     Passes s (rq 1 [1#8]) 0x4011 4 w0 ∧ strandsBundle (countFrame s (rq 1 [1#8])) (bayPorts 4) = true)
    ∧ (Passes (st .running) (rq 1 [1#8]) 0x4011 15 w0 ∧ reqNat (rq 1 [1#8]) ≠ 0
       ∧ strandsBundle (countFrame (st .running) (rq 1 [1#8])) (bayPorts 15) = false)
    ∧ (Passes (st .running) (rq 1 [0#8]) 0x4011 15 w0 ∧ reqNat (rq 1 [0#8]) = 0)
    ∧ (let q (b : BayState) (wear : Nat) : State := (st .running).modBay 5 (fun y => { y with st := b, prepare := true, wear := wear })
       ((q .lit 90).bay 5).prepare = true ∧ ((q .lit 90).bay 5).st = .lit ∧ (∀ n ∈ bayPorts 5, ((q .lit 90).port n).st = .disabled)
         ∧ ((q .empty 0).bay 5).st = .empty ∧ ((q .warming 0).bay 5).st = .warming ∧ (q .warming 0).life.st ≠ .off
         ∧ (q .warming 0).life.st ≠ .quarantined ∧ ((q .lit 90).bay 5).wear ≤ 90 ∧ 90 < ((q .lit 91).bay 5).wear) :=
  ⟨⟨.of_checks (by decide), by decide⟩, ⟨.of_checks (by decide), by decide, by decide⟩, ⟨.of_checks (by decide), by decide⟩,
    by decide⟩

/-- A module without a coordinate and one with it, a CLAIM in a landing store, and writes in each state. -/
theorem witness_DiscoveryComplete :
    ((st .linkUp).torus.known = false)
    ∧ (let s := ((st .linkUp).modTorus (fun t => { t with coord := 0 })).modPort 3 (fun p => { p with
         st := .standby, landing := [{ blankContent with kind := 2 }] })
       s.torus.known = true ∧ landedNeighbour s 3 0 2 = some { blankContent with kind := 2 }
         ∧ reqNat (rq 3 [0#8, 0#8]) = s.torus.coord ∧ s.life.st = .linkUp)
    ∧ Passes ((st .linkUp).modTorus (fun t => { t with coord := 0 })) (rq 3 [0#8, 0#8]) 0x4101 3 w0
    ∧ Passes (st .awaitAddress) (rq 2 [32#8]) 0x4100 1 w0 ∧ Passes (st .linkUp) (rq 2 [32#8]) 0x4100 1 w0
    ∧ Passes (st .running) (rq 2 [32#8]) 0x4100 1 w0 ∧ reqNat (rq 2 [32#8]) = 32
    ∧ (reqNat (rq 2 [32#8]) * (st .linkUp).torus.y ≤ 1024 ∧ (st .linkUp).torus.double = false) :=
  ⟨by decide, by decide, .of_checks (by decide), .of_checks (by decide), .of_checks (by decide), .of_checks (by decide),
    by decide, by decide⟩

/-- A running skillet with a droop open, with counts at the edge of each rule, and with a ramp. -/
theorem witness_MonitorsComplete :
    (let q (f : Mon → Mon) : State := (st .running).modMon 9 (fun m => f { m with domain := .on })
     (q id).powered = true ∧ runs (q id) 9 = true ∧ ((q id).mon 9).stretching = false ∧ ((q id).mon 9).forced = none ∧ (q id).controls = true
       ∧ ((q id).mon 9).trust.distrusted = false
       ∧ ((q (fun m => { m with trust := { distrusted := true } })).mon 9).trust.distrusted = true
       ∧ ((q (fun m => { m with stretching := true })).mon 9).stretching = true
       ∧ periodDue (q id) ((q id).mon 9).droopPeriod 10000 = true ∧ 99 < 100 * 1 ∧ ((q id).mon 9).droopRun < 2
       ∧ ((q (fun m => { m with droopRun := 2 })).mon 9).droopRun = 2
       ∧ periodDue (q (fun m => { m with droopRun := 2 })) ((q (fun m => { m with droopRun := 2 })).mon 9).droopPeriod 10000 = true
       ∧ 100 * 1 ≤ 100 ∧ ((q id).mon 9).droopFree < 99 ∧ ((q (fun m => { m with droopFree := 99 })).mon 9).droopFree = 99
       ∧ ((q (fun m => { m with ramp := some 16 })).mon 9).ramp = some 16) := by decide

/-- Skillets in each state: running and mapped, tripped, cooled after a switch-off, off, and distrusted. -/
theorem witness_PowerMessagesComplete :
    (let q (f : Mon → Mon) : State := (st .running).modMon 9 f
     let on := q (fun m => { m with domain := .on })
     on.nodeLive 9 = true ∧ powerRefused (recvCobalt on 9) 9 = false ∧ ((recvCobalt on 9).logical? 9).isSome = true ∧ runs (recvCobalt on 9) 9 = true
       ∧ powerRefused (recvCobalt (q (fun m => { m with domain := .tripped })) 9) 9 = true
       ∧ cooled (recvCobalt (q (fun m => { m with domain := .offHeat, temp := 85 })) 9) 9 = true
       ∧ ((recvCobalt (q id) 9).mon 9).domain = .off ∧ (recvCobalt (q id) 9).isHole 9 = false
       ∧ (let s := q (fun m => { m with domain := .on, trust := { distrusted := true } })
          s.controls = true ∧ (s.mon 9).trust.distrusted = true ∧ runs s 9 = true
            ∧ periodDue s (s.mon 9).measuredPeriod 50 = true)) := by decide

/-- A running module at a period's beginning, estimators that keep and lose their trust, and writes at the bounds. -/
theorem witness_ModuleLoopComplete :
    (let s := (st .running).modMon 9 (fun m => { m with domain := .on })
     s.controls = true ∧ periodDue s s.power.modulePeriod 64 = true ∧ runs s 9 = true
       ∧ periodDue s (s.mon 9).trust.period 10000 = true ∧ (judgeWindow (s.mon 9).trust 100 100).2.1 = none)
    ∧ (let s := (st .running).modPower (fun w => { w with trust := { disagreeRun := 19 } })
       s.controls = true ∧ periodDue s s.power.trust.period 10000 = true
         ∧ (judgeWindow s.power.trust 200 100).2.1 = some .estimatorDistrusted)
    ∧ Passes (st .running) (rq 3 [0#8, 80#8]) 0x3000 1 w0 ∧ reqNat (rq 3 [0#8, 80#8]) = 80
    ∧ Passes (st .running) (rq 3 [0#8, 79#8]) 0x3000 1 w0 ∧ reqNat (rq 3 [0#8, 79#8]) = 79
    ∧ Passes (st .running) (rq 3 [1#8, 45#8]) 0x3000 1 w0 ∧ reqNat (rq 3 [1#8, 45#8]) = 301
    ∧ Passes (st .running) (rq 3 [1#8, 44#8]) 0x3001 15 w0 ∧ reqNat (rq 3 [1#8, 44#8]) = 300
    ∧ Passes (st .running) (rq 2 [8#8]) 0x3000 4 w0 ∧ reqNat (rq 2 [8#8]) = 8 :=
  ⟨by decide, by decide, .of_checks (by decide), by decide, .of_checks (by decide), by decide, .of_checks (by decide), by decide,
    .of_checks (by decide), by decide, .of_checks (by decide), by decide⟩

/-- A module at each period's beginning, regions that run, have tripped three times and stay hot, and a hot stack. -/
theorem witness_HeatComplete :
    (let q (f : Mon → Mon) : State := { (st .running).modMon 9 f with time := { ticks := 30000000 } }
     (q id).controls = true ∧ periodDue (q id) (q id).power.downPeriod 1000 = true
       ∧ periodDue (q id) (q id).power.upPeriod 10000 = true ∧ (q id).life.st ≠ .off ∧ ((q id).mon 9).domain ≠ .isolated
       ∧ ((q id).mon 9).domain ≠ .tripped
       ∧ ((q (fun m => { m with domain := .tripped, trips := 3 })).mon 9).domain = .tripped
       ∧ 3 ≤ ((q (fun m => { m with domain := .tripped, trips := 3 })).mon 9).trips
       ∧ (let s := q (fun m => { m with domain := .offHeat, temp := 86 })
          (s.mon 9).domain = .offHeat ∧ (s.mon 9).offAt + s.power.restoreLimit ≤ s.time.ticks
            ∧ s.power.throttleTemp < (s.mon 9).temp + 10)
       ∧ (let s := (q id).modMc 31 (fun m => { m with temp := 95 })
          s.controls = true ∧ 95 ≤ (s.slice 31).mc.temp ∧ periodDue s s.power.cutPeriod 10000 = true)) := by decide

/-- A module of a job and one without, with a frame of each kind in a landing store. -/
theorem witness_RollbackFramesComplete :
    (let fr (rkind : Nat) : Content := { blankContent with ftype := .routed, kind := 2, rkind := rkind, bytes := [1#8] }
     let q (rkind : Nat) (job : Bool) (n : Nat) : State := { (st .running).modPort 3 (fun p => { p with landing := [fr rkind] }) with
       commit := { loaded := job }, recov := { n := n } }
     (∀ k : Fin 4, landedRecovery (q k.val true 0) 3 0 k.val = some (fr k.val))
       ∧ (dropLanded (q 1 true 0) 3 0).inJob = true ∧ (dropLanded (q 1 true 0) 3 0).recov.n < leNat ((fr 1).bytes.take 4)
       ∧ leNat ((fr 1).bytes.take 4) ≤ (dropLanded (q 1 true 1) 3 0).recov.n ∧ (dropLanded (q 1 true 1) 3 0).inJob = true
       ∧ (dropLanded (q 1 false 0) 3 0).inJob = false ∧ (dropLanded (q 1 false 0) 3 0).life.st ≠ .quarantined
       ∧ (dropLanded (q 1 false 0) 3 0).recov.heard = none
       ∧ (let s := { q 1 false 0 with recov := { heard := some (1, 0, 0) } }
          (dropLanded s 3 0).recov.heard = some (1, 0, 0) ∧ leNat ((fr 1).bytes.take 4) ≤ 1))
    ∧ (let fr (epoch : Nat) : Content := { blankContent with ftype := .routed, kind := 1, repoch := epoch }
       let q (epoch : Nat) : State := { (st .running).modPort 3 (fun p => { p with landing := [fr epoch] }) with
         regions := [⟨4, 0, 0, 1, 0⟩] }
       landed (q 1) 3 0 = some (fr 1) ∧ (fr 1).repoch ≠ (q 1).red.epoch ∧ (fr 0).repoch = (q 0).red.epoch
         ∧ (dropLanded (q 0) 3 0).regions[0]? = some ⟨4, 0, 0, 1, 0⟩ ∧ (dropLanded (q 0) 3 0).regions[1]? = none
         ∧ (fr 0).addr * 64 + 8 * ((fr 0).len % 32 + 1) ≤ (0 + 1) * regUnit) := by decide

/-- A single module that recovers with its own record held, with it lost, and in step 5; a spare; a running module. -/
theorem witness_ResumeComplete :
    (let q (phase : Nat) (lost : Bool) : State := { st .recovering with
       recov := { phase := phase, states := [(0, ⟨0, 0, 0, false, lost⟩)] } }
     (q 4 false).life.st = .recovering ∧ (q 4 false).recov.phase = 4 ∧ stateGathered (q 4 false) = true
       ∧ (resumeStep (q 4 false)).isSome = true ∧ teacherLost (q 4 false) = false
       ∧ stateGathered (q 4 true) = true ∧ resumeStep (q 4 true) = none
       ∧ (q 5 false).recov.phase = 5 ∧ (q 5 false).recov.restoring ≤ (q 5 false).recov.restored
       ∧ (q 5 false).recov.loopHeld = false ∧ bundleDown (q 5 false) = false ∧ regionWaits (q 5 false) = false
       ∧ evalBusy (q 5 false) = false)
    ∧ (let s := { st .ready with recov := { heard := some (1, 2, 3) }, dict := { plan := some ⟨[], [], [], 0, 56, []⟩ } }
       s.recov.heard = some (1, 2, 3) ∧ s.life.st = .ready ∧ s.dict.plan.isSome = true ∧ s.commit.loaded = false)
    ∧ ((st .running).life.st ≠ .off ∧ vget (st .running).col.isolated 63 = false)
    ∧ Passes (st .running) (rq 2 [1#8]) 0x7001 2 w0 ∧ reqNat (rq 2 [1#8]) = 1
    ∧ Passes (st .running) (rq 2 [2#8]) 0x7001 2 w0 ∧ reqNat (rq 2 [2#8]) = 2
    ∧ (let s := { st .running with recov := { suppressedDue := [3] } }
       (rollWindow s).recov.suppressedDue = 3 :: []) :=
  ⟨by decide, by decide, by decide, .of_checks (by decide), by decide, .of_checks (by decide), by decide, by decide⟩

/-- Inputs in each state, a boot that is not halted, and a due reset. -/
theorem witness_InputComplete :
    (let q (x : InputSt) : State := { st .running with input := x }
     (q {}).input.pwrEn = false ∧ (q {}).input.st = .off ∧ (4600 ≤ 5800 ∧ 5800 ≤ 5800)
       ∧ (q { st := .softStart, pwrEn := true }).input.st = .softStart
       ∧ ((st .stewardBoot).life.st = .stewardBoot ∧ (st .stewardBoot).sec.halted = false)
       ∧ (let s := q { st := .on, pwrEn := true, pairA := true, pairB := true, resetLow := true }
          s.input.st = .on ∧ s.input.pwrEn = true ∧ s.input.pairB = true ∧ s.powered = true ∧ s.input.resetLow = true
            ∧ s.life.st ≠ .off)
       ∧ ((q { st := .lockout }).input.st = .lockout ∧ (q { st := .lockout }).input.pwrEn = false)
       ∧ (let s := q { st := .on, pairA := true }
          s.input.pairA = true ∧ s.input.pairB = false ∧ s.input.st = .on)
       ∧ (let s := { st .running with life := { st := .running, resetDue := true } }
          s.life.resetDue = true)) := by decide

/-- A powered module at the beginning of a reading's period, without and with a leak held, and limits at each bound. -/
theorem witness_CoolantComplete :
    (let q (leak : Bool) : State := { st .running with input := { st := .on, leak := leak } }
     (q false).input.st = .on ∧ (q false).controls = true ∧ periodDue (q false) (q false).input.period 100000 = true
       ∧ (q false).input.leak = false ∧ (q true).input.leak = true ∧ (q true).input.st = .on ∧ (q true).controls = true
       ∧ periodDue (q true) (q true).input.period 100000 = true)
    ∧ (({ held := 8 } : CoolLimit).on = false ∧ ({ held := 8 } : CoolLimit).held < 9 ∧ ({ held := 9 } : CoolLimit).held = 9
       ∧ ({ on := true, clear := 98 } : CoolLimit).clear < 99 ∧ ({ on := true, clear := 99 } : CoolLimit).clear = 99) := by decide

/-- Requests that pass the common checks in SERVICE, a verification that runs on no image, and one on a bundle of zeros
but for one byte. -/
theorem witness_SecurityComplete :
    Passes (st .service) (rq 10 (List.replicate 32 0)) 0x8002 1 w0
    ∧ Passes (st .service) (rq 10 (List.replicate 4096 0)) 0x8004 2 w0 ∧ w0.updateOffset < 2 ^ 30
    ∧ Passes (st .service) (rq 2 [1#8]) 0x8004 3 w0 ∧ kindAllowed (countFrame (st .service) (rq 2 [1#8])) 1 = true
    ∧ kindAllowed (countFrame (st .service) (rq 2 [1#8])) 5 = true
    ∧ Passes (st .service) (rq 2 [2#8]) 0x8004 3 w0 ∧ (st .service).sec.busy = false
    ∧ (let s := { st .service with sec := { busy := true } }
       Passes s (rq 2 [2#8]) 0x8004 3 w0 ∧ s.sec.busy = true
         ∧ bundleFault (s.modSec (fun c => { c with busy := false })) s.sec.bundle = none ∧ firmwarePart s.sec.bundle = false
         ∧ s.sec.bundle.all (fun im => kindAllowed (s.modSec (fun c => { c with busy := false })) im.kind) = true)
    ∧ (let s := { st .service with sec := { busy := true, chunks := Mem.store [] 0 [7#8], length := 352 } }
       bundleFault (s.modSec (fun c => { c with busy := false })) s.sec.bundle = some (0, 0x0301))
    ∧ Passes (st .service) (rq 10 (List.replicate 96 0)) 0x8005 1 w0 ∧ allZero (st .service).sec.roll.owner = true
    ∧ (let s := { st .service with sec := { roll := { owner := List.replicate 64 1 } } }
       Passes s (rq 10 (List.replicate 96 0)) 0x8005 1 w0 ∧ allZero s.sec.roll.owner = false) :=
  ⟨.of_checks (by decide), .of_checks (by decide), by decide, .of_checks (by decide), by decide, by decide,
    .of_checks (by decide), by decide, ⟨.of_checks (by decide), by decide, by decide, by decide, by decide⟩, by decide,
    .of_checks (by decide), by decide, .of_checks (by decide), by decide⟩

/-- Servers with few and with 16 open sessions, one that waits for its proof, and a subscription. -/
theorem witness_SessionsComplete :
    ((st .running).served = true ∧ openCount (st .running).dict < 16)
    ∧ (let s := { st .running with dict := { sessions := List.replicate 16 w0 } }
       s.served = true ∧ 16 ≤ openCount s.dict)
    ∧ (let s := { st .running with dict := { sessions := [{ num := 5 }] } }
       s.served = true ∧ sessionNum s.dict 5 = some { num := 5 } ∧ openCount s.dict < 16)
    ∧ (sessionNum (st .running).dict 1 = some w0 ∧ w0.open_ = true)
    ∧ (let r := rq 0 (List.replicate 9 1)
       r.via ≠ .chain ∧ (st .running).session r = some w0 ∧ opDiscarded r w0 = false
         ∧ (r.seq = w0.lastSeq && w0.answers.any (fun a => a.1 == r.op)) = false ∧ r.value.length = 9
         ∧ beNat (r.value.take 1) < 16) := by decide

/-- Modules with the bypass closed, open, with and without an identifier, frames, and writes. -/
theorem witness_ChainComplete :
    (let q (c : Nat) : State := { st .running with dict := { sessions := [w0], chainState := c } }
     let f : ChainFrame := { dest := 0xFFFF, src := 0, ctype := 1, hops := 254, body := [0xFF#8, 0xFE#8] }
     (q 1).dict.chainState ≠ 0 ∧ f.hops ≠ 255 ∧ (q 1).dict.nodeId = 0xFFFF ∧ f.body.length = 2 ∧ beNat f.body = 0xFFFE
       ∧ (7 : Nat) ≠ (q 1).dict.nodeId ∧ (q 0).dict.chainState = 0 ∧ (q 0).powered = true)
    ∧ Passes (st .linkUp) (rq 3 [0#8, 1#8]) 0x1100 1 w0 ∧ reqNat (rq 3 [0#8, 1#8]) = 1
    ∧ (let s := { st .linkUp with dict := { sessions := [w0], nodeId := 9 } }
       Passes s (rq 3 [0#8, 1#8]) 0x1100 1 w0 ∧ s.dict.nodeId ≠ 0xFFFF)
    ∧ Passes (st .service) (rq 10 (List.replicate 40 0)) 0x1102 1 w0 ∧ ipStatus (List.replicate 40 0) = 0
    ∧ vget ({ ipNext := Vector.replicate 2 (some [1#8]) } : DictSt).ipNext (1 : Fin 2) = some [1#8] :=
  ⟨by decide, .of_checks (by decide), by decide, ⟨.of_checks (by decide), by decide⟩, .of_checks (by decide), by decide,
    by decide⟩

/-- Commands in each state with a job loaded. -/
theorem witness_LifecycleCommandsComplete :
    (let q (l : Life) : State := { st l with commit := { loaded := true } }
     let p (l : Life) (k : Nat) : Prop := Passes (q l) (rq 2 [BitVec.ofNat 8 k]) 0x1200 2 w0
       ∧ reqNat (rq 2 [BitVec.ofNat 8 k]) = k ∧ commandStatus (countFrame (q l) (rq 2 [BitVec.ofNat 8 k])) (rq 2 [BitVec.ofNat 8 k]) k = 0
     p .ready 1 ∧ p .paused 2 ∧ p .paused 3 ∧ p .paused 4 ∧ p .ready 5 ∧ p .running 6)
    ∧ (let s := { st .running with commit := { loaded := true }, run := { active := true } }
       (Passes s (rq 2 [2#8]) 0x1200 2 w0 ∧ commandStatus (countFrame s (rq 2 [2#8])) (rq 2 [2#8]) 2 = 0)
         ∧ (Passes s (rq 2 [3#8]) 0x1200 2 w0 ∧ commandStatus (countFrame s (rq 2 [3#8])) (rq 2 [3#8]) 3 = 0)
         ∧ passIssuing s = false ∧ s.life.held = none)
    ∧ (Passes (st .ready) (rq 2 [1#8]) 0x1200 2 w0 ∧ commandAllowed (countFrame (st .ready) (rq 2 [1#8])) (rq 2 [1#8]) 1 = true
       ∧ (st .ready).commit.loaded = false)
    ∧ (Passes (st .running) (rq 2 [1#8]) 0x1200 2 w0
       ∧ commandAllowed (countFrame (st .running) (rq 2 [1#8])) (rq 2 [1#8]) 1 = true) :=
  ⟨⟨⟨.of_checks (by decide), by decide, by decide⟩, ⟨.of_checks (by decide), by decide, by decide⟩,
      ⟨.of_checks (by decide), by decide, by decide⟩, ⟨.of_checks (by decide), by decide, by decide⟩,
      ⟨.of_checks (by decide), by decide, by decide⟩, ⟨.of_checks (by decide), by decide, by decide⟩⟩,
    ⟨⟨.of_checks (by decide), by decide⟩, ⟨.of_checks (by decide), by decide⟩, by decide, by decide⟩,
    ⟨.of_checks (by decide), by decide, by decide⟩, ⟨.of_checks (by decide), by decide⟩⟩

/-- Chunks, plan commands and job data in the states that take them. -/
theorem witness_PlansAndJobsComplete :
    (let q (f : DictSt → DictSt) (x : Session) : State := { st .ready with dict := f { sessions := [x] }, regions := [⟨4, 0, 0, 1, 0⟩] }
     let plan : Plan := ⟨[], [], [], 0, 56, []⟩
     let has (d : DictSt) : DictSt := { d with plan := some plan }
     let chunk := rq 10 (List.replicate 4096 0)
     (Passes (q id w0) chunk 0x2100 2 w0 ∧ w0.planOffset < 2 ^ 34)
       ∧ (Passes (q id w0) (rq 2 [1#8]) 0x2100 3 w0 ∧ (countFrame (q id w0) (rq 2 [1#8])).dict.plan = none
         ∧ (countFrame (q id w0) (rq 2 [1#8])).dict.planCommand = 0)
       ∧ Passes (q id w0) (rq 2 [2#8]) 0x2100 3 w0 ∧ Passes (q id w0) (rq 2 [4#8]) 0x2100 3 w0
       ∧ (Passes (q has w0) (rq 2 [3#8]) 0x2100 3 w0 ∧ (countFrame (q has w0) (rq 2 [3#8])).dict.plan.isSome = true
         ∧ (q has w0).commit.loaded = false)
       ∧ (Passes (q has w0) (rq 5 (List.replicate 8 0)) 0x2102 1 w0 ∧ jobOpen (countFrame (q has w0) (rq 5 (List.replicate 8 0))) = true
         ∧ reqNat (rq 5 (List.replicate 8 0)) % 4096 = 0
         ∧ jobInside (countFrame (q has w0) (rq 5 (List.replicate 8 0))) (reqNat (rq 5 (List.replicate 8 0))) = true)
       ∧ (Passes (q has w0) chunk 0x2102 2 w0 ∧ jobOpen (countFrame (q has w0) chunk) = true
         ∧ jobInside (countFrame (q has w0) chunk) w0.jobAddress = true)
       ∧ (q (fun d => { d with planCommand := 1 }) w0).dict.planCommand = 1
       ∧ (let s := { q (fun d => { d with planCommand := 3 }) w0 with commit := { loaded := true } }
          s.dict.planCommand = 3 ∧ s.commit.loaded = true ∧ s.modules ≤ 1)) :=
  ⟨⟨.of_checks (by decide), by decide⟩, ⟨.of_checks (by decide), by decide, by decide⟩, .of_checks (by decide),
    .of_checks (by decide), ⟨.of_checks (by decide), by decide, by decide⟩,
    ⟨.of_checks (by decide), by decide, by decide, by decide⟩, ⟨.of_checks (by decide), by decide, by decide⟩, by decide, by decide⟩

end Sys2Proof.Tests
end

section
/-! PROOFS. The state after reset: its commit record, its cap profiles and the values of the other registers. -/

namespace Sys2Proof

open Sys2Proof.Machine

/-- The Reset column of the commit record (10 R315, 10 R322 entry 5040.01). -/
theorem reset_commit : State.reset.commit = { step := 0, loaded := false, ptr := 0 } := rfl

theorem reset_commitLegal : CommitLegal State.reset := by
  unfold CommitLegal
  rw [reset_commit]
  exact ⟨Nat.zero_le 1, Nat.two_pow_pos 64⟩

/-- The Reset column of entry 3001 (14 R445), whose profiles are held as one vector. -/
theorem reset_profiles (i : Fin 16) : vget State.reset.power.profiles i = 270 := vget_replicate 270 i

/-- Settles O5: the commit record is legal and every cap profile stands at 27.0 kW by the lemmas above; every other
register holds its Reset value by the definition of the state. -/
theorem resetState : Obligations.ResetState := by
  unfold Obligations.ResetState
  refine ⟨reset_commitLegal, ?queue, ?life, ?loaded, ?sessions, ?nodeId, ?lock, ?valid, ?count,
    ?x, ?y, ?coord, ?known, ?rule, ?beta1, ?beta2, ?clipNorm, ?skipLimit, ?divisor, ?ordered,
    ?quietSteps, ?baseCap, ?maxPoint, reset_profiles, ?throttleTemp, ?iLim⟩
  case loaded => rw [reset_commit]
  all_goals rfl

end Sys2Proof
end

section
/-! PROOFS. Every command, and so every step, leaves the queue of waiting commands alone and keeps the commit record legal
(01 R25, 10 R315). -/

namespace Sys2Proof.Machine

/-- No command reaches the queue, and none makes a legal commit record illegal. -/
theorem exec_stays {a s : State} (i : Instr) (h : Stays a s) : StaysOut a (exec i s) := by
  cases i with
  | syncInRise ps sinceBeat => exact execSyncInRise_stays ps sinceBeat h
  | syncInFall highNs => exact execSyncInFall_stays highNs h
  | late => exact execLate_stays h
  | wide => exact execWide_stays h
  | stuck => exact execStuck_stays h
  | trainRestart => exact execTrainRestart_stays h
  | oscillatorBeat => exact execOscillatorBeat_stays h
  | holdoverEntry => exact execHoldoverEntry_stays h
  | lockingEntry => exact execLockingEntry_stays h
  | slewingEntry edgeOffset => exact execSlewingEntry_stays edgeOffset h
  | slewEnd => exact execSlewEnd_stays h
  | holdoverLong => exact execHoldoverLong_stays h
  | stampReceived port k => exact execStampReceived_stays port k h
  | beatSymbolReceived port ps sinceBeat => exact execBeatSymbolReceived_stays port ps sinceBeat h
  | cbcLoad r => exact execCbcLoad_stays r h
  | beatSourceWrite r => exact execBeatSourceWrite_stays r h
  | beatLinkPortWrite r => exact execBeatLinkPortWrite_stays r h
  | schedEntryWrite ix r => exact execSchedEntryWrite_stays ix r h
  | schedEntryFire ix => exact execSchedEntryFire_stays ix h
  | windowClose ix => exact execWindowClose_stays ix h
  | stepMarkRise => exact execStepMarkRise_stays h
  | markStuck => exact execMarkStuck_stays h
  | markerReceived port k => exact execMarkerReceived_stays port k h
  | markSend r => exact execMarkSend_stays r h
  | gateEvaluate => exact execGateEvaluate_stays h
  | updateStart => exact execUpdateStart_stays h
  | ueGComplete sl => exact execUeGComplete_stays sl h
  | stepFlip => exact execStepFlip_stays h
  | agReceived port k => exact execAgReceived_stays port k h
  | buddyReceived port k => exact execBuddyReceived_stays port k h
  | buddyCopyComplete => exact execBuddyCopyComplete_stays h
  | buddyAck port k => exact execBuddyAck_stays port k h
  | readyTaskStart b => exact execReadyTaskStart_stays b h
  | selfTestDone t => exact execSelfTestDone_stays t h
  | holeRequest r => exact execHoleRequest_stays r h
  | passIssue p => exact execPassIssue_stays p h
  | passFlush p => exact execPassFlush_stays p h
  | stationaryLoadStart p g errs => exact execStationaryLoadStart_stays p g errs h
  | passIssueBegin p g errs accCorrected => exact execPassIssueBegin_stays p g errs accCorrected h
  | passBoundary p g skipped => exact execPassBoundary_stays p g skipped h
  | passDrainEnd p g => exact execPassDrainEnd_stays p g h
  | passEmitEnd p g => exact execPassEmitEnd_stays p g h
  | griddleFault p g cause col => exact execGriddleFault_stays p g cause col h
  | memop p => exact execMemop_stays p h
  | memopDone p k => exact execMemopDone_stays p k h
  | slotSet p => exact execSlotSet_stays p h
  | slotReset p => exact execSlotReset_stays p h
  | slotResetAll p => exact execSlotResetAll_stays p h
  | slotComplete p => exact execSlotComplete_stays p h
  | slotRelease p => exact execSlotRelease_stays p h
  | slotDrainDone p slot => exact execSlotDrainDone_stays p slot h
  | shelfOpen p steward => exact execShelfOpen_stays p steward h
  | shelfClose p steward => exact execShelfClose_stays p steward h
  | shelfWakeDone p shelf => exact execShelfWakeDone_stays p shelf h
  | shelfCloseDone p shelf => exact execShelfCloseDone_stays p shelf h
  | slotLoad p errs => exact execSlotLoad_stays p errs h
  | slotStore p => exact execSlotStore_stays p h
  | correctionWriteback p granule => exact execCorrectionWriteback_stays p granule h
  | scrubAccess node word granule e passDone => exact execScrubAccess_stays node word granule e passDone h
  | scrubForce p bank => exact execScrubForce_stays p bank h
  | ceWindowEnd => exact execCeWindowEnd_stays h
  | ladleArm p => exact execLadleArm_stays p h
  | ladleStop p => exact execLadleStop_stays p h
  | ladleStopDone p l => exact execLadleStopDone_stays p l h
  | ladleBlockStart p l => exact execLadleBlockStart_stays p l h
  | ladlePortionIssue p l => exact execLadlePortionIssue_stays p l h
  | ladlePortionComplete p l tag cycles => exact execLadlePortionComplete_stays p l tag cycles h
  | memTimeout p l tag => exact execMemTimeout_stays p l tag h
  | ladleFault p l cause => exact execLadleFault_stays p l cause h
  | taskStart p task pc arg => exact execTaskStart_stays p task pc arg h
  | haltAll p => exact execHaltAll_stays p h
  | clearLoss p => exact execClearLoss_stays p h
  | sliceExpired p => exact execSliceExpired_stays p h
  | taskWake p t frac => exact execTaskWake_stays p t frac h
  | waitSlotFull p => exact execWaitSlotFull_stays p h
  | waitSlotEmpty p => exact execWaitSlotEmpty_stays p h
  | waitCounter p => exact execWaitCounter_stays p h
  | waitSignal p => exact execWaitSignal_stays p h
  | signalSend p => exact execSignalSend_stays p h
  | signalReceived p src => exact execSignalReceived_stays p src h
  | remoteComplete p => exact execRemoteComplete_stays p h
  | remoteRelease p => exact execRemoteRelease_stays p h
  | remoteCompleteReceived p src => exact execRemoteCompleteReceived_stays p src h
  | remoteReleaseReceived p src => exact execRemoteReleaseReceived_stays p src h
  | loopFor p => exact execLoopFor_stays p h
  | loopNext p => exact execLoopNext_stays p h
  | jump p => exact execJump_stays p h
  | jumpIf p => exact execJumpIf_stays p h
  | loadi p => exact execLoadi_stays p h
  | addi p => exact execAddi_stays p h
  | readreg p => exact execReadreg_stays p h
  | spawn p => exact execSpawn_stays p h
  | endTask p => exact execEndTask_stays p h
  | yieldTask p => exact execYieldTask_stays p h
  | timeatAbs p frac => exact execTimeatAbs_stays p frac h
  | timeatRel p frac => exact execTimeatRel_stays p frac h
  | planEvent p => exact execPlanEvent_stays p h
  | whiskRun p => exact execWhiskRun_stays p h
  | whiskOpStart p errs => exact execWhiskOpStart_stays p errs h
  | whiskOpEnd p => exact execWhiskOpEnd_stays p h
  | whiskFault p cause => exact execWhiskFault_stays p cause h
  | tapSwitch p => exact execTapSwitch_stays p h
  | tapClearIdle p => exact execTapClearIdle_stays p h
  | tapClearActive p => exact execTapClearActive_stays p h
  | flitHop node out cls vc fails => exact execFlitHop_stays node out cls vc fails h
  | routerParity node cobalt => exact execRouterParity_stays node cobalt h
  | flitLanding p cls => exact execFlitLanding_stays p cls h
  | mergeLanding p => exact execMergeLanding_stays p h
  | orderedMerge p => exact execOrderedMerge_stays p h
  | cancelReceived p cls => exact execCancelReceived_stays p cls h
  | mcastBranchRelease node out => exact execMcastBranchRelease_stays node out h
  | mcastLag p l receiver => exact execMcastLag_stays p l receiver h
  | meshHold => exact execMeshHold_stays h
  | meshRelease => exact execMeshRelease_stays h
  | westFullClock => exact execWestFullClock_stays h
  | westHalfClock => exact execWestHalfClock_stays h
  | eastFullClock => exact execEastFullClock_stays h
  | eastHalfClock => exact execEastHalfClock_stays h
  | tableWrite node dest entry => exact execTableWrite_stays node dest entry h
  | regRead node unit offset => exact execRegRead_stays node unit offset h
  | regWrite node unit offset value => exact execRegWrite_stays node unit offset value h
  | reply node => exact execReply_stays node h
  | eventRecord node => exact execEventRecord_stays node h
  | eventsSuppressed => exact execEventsSuppressed_stays h
  | stackTempRead sl temp => exact execStackTempRead_stays sl temp h
  | ecsRead sl corrected => exact execEcsRead_stays sl corrected h
  | stackScrub sl burst e => exact execStackScrub_stays sl burst e h
  | stackRowWindowEnd => exact execStackRowWindowEnd_stays h
  | stackFailed sl channels => exact execStackFailed_stays sl channels h
  | memRead sl errs => exact execMemRead_stays sl errs h
  | memWrite sl => exact execMemWrite_stays sl h
  | rimWrite sl => exact execRimWrite_stays sl h
  | rimAdd sl => exact execRimAdd_stays sl h
  | raBlockOp sl block => exact execRaBlockOp_stays sl block h
  | raFault sl block => exact execRaFault_stays sl block h
  | ueFault sl cause block => exact execUeFault_stays sl cause block h
  | optimizerWrite sub r => exact execOptimizerWrite_stays sub r h
  | applyStep r => exact execApplyStep_stays r h
  | classRangeWrite ix r => exact execClassRangeWrite_stays ix r h
  | bucketLaunch sl b => exact execBucketLaunch_stays sl b h
  | bucketReduced sl b => exact execBucketReduced_stays sl b h
  | rsReceived port k => exact execRsReceived_stays port k h
  | linkAdd sl k => exact execLinkAdd_stays sl k h
  | linkAdderParity port => exact execLinkAdderParity_stays port h
  | checkReceived port k => exact execCheckReceived_stays port k h
  | checkCompare sl block => exact execCheckCompare_stays sl block h
  | traceReceived port k => exact execTraceReceived_stays port k h
  | fuse side => exact execFuse_stays side h
  | fusedRecordForm => exact execFusedRecordForm_stays h
  | fusedReceived port k => exact execFusedReceived_stays port k h
  | watchdogStall point => exact execWatchdogStall_stays point h
  | watchdogStep => exact execWatchdogStep_stays h
  | clipNormWrite r => exact execClipNormWrite_stays r h
  | skipLimitWrite r => exact execSkipLimitWrite_stays r h
  | orderedWrite r => exact execOrderedWrite_stays r h
  | checkDivisorWrite r => exact execCheckDivisorWrite_stays r h
  | reduceEpochWrite r => exact execReduceEpochWrite_stays r h
  | linkFrameReceived port lane frame corrected crcOk => exact execLinkFrameReceived_stays port lane frame corrected crcOk h
  | nakReceived port lane => exact execNakReceived_stays port lane h
  | replayTimeout port lane => exact execReplayTimeout_stays port lane h
  | laneLockLost port lane => exact execLaneLockLost_stays port lane h
  | laneBerWindow port lane ber => exact execLaneBerWindow_stays port lane ber h
  | portFailedTimeout port => exact execPortFailedTimeout_stays port h
  | codewordLock port => exact execCodewordLock_stays port h
  | trainingDone port rttNs => exact execTrainingDone_stays port rttNs h
  | trainingTimeout port => exact execTrainingTimeout_stays port h
  | linkHello port k => exact execLinkHello_stays port k h
  | helloPeriod port => exact execHelloPeriod_stays port h
  | join port k => exact execJoin_stays port k h
  | quiesce port k => exact execQuiesce_stays port k h
  | last port k => exact execLast_stays port k h
  | portEnableWrite port r => exact execPortEnableWrite_stays port r h
  | cartridgePrepare bay r => exact execCartridgePrepare_stays bay r h
  | cartridgeReady bay => exact execCartridgeReady_stays bay h
  | cartridgeInserted bay serial => exact execCartridgeInserted_stays bay serial h
  | cartridgeLit bay => exact execCartridgeLit_stays bay h
  | cartridgeFailed bay => exact execCartridgeFailed_stays bay h
  | cartridgeWear bay bias => exact execCartridgeWear_stays bay bias h
  | claimPeriod => exact execClaimPeriod_stays h
  | claim port k => exact execClaim_stays port k h
  | torusSettingsWrite sub r => exact execTorusSettingsWrite_stays sub r h
  | coordConfirm r => exact execCoordConfirm_stays r h
  | restore port k => exact execRestore_stays port k h
  | droopDetect p => exact execDroopDetect_stays p h
  | droopEnd p cycles => exact execDroopEnd_stays p cycles h
  | droopWindow p cycles stretched => exact execDroopWindow_stays p cycles stretched h
  | budgetEstimate p counts tempC => exact execBudgetEstimate_stays p counts tempC h
  | levelRampDone p => exact execLevelRampDone_stays p h
  | modulePowerPeriod rimMw vinMin10mV busbarMw => exact execModulePowerPeriod_stays rimMw vinMin10mV busbarMw h
  | powerSet p budget limit thermal measured force rsv => exact execPowerSet_stays p budget limit thermal measured force rsv h
  | computeOff p => exact execComputeOff_stays p h
  | computeOn p => exact execComputeOn_stays p h
  | powerCoeff p first coeffs => exact execPowerCoeff_stays p first coeffs h
  | checkWindow scope estimate measuredMw => exact execCheckWindow_stays scope estimate measuredMw h
  | measuredPeriod p powerMw => exact execMeasuredPeriod_stays p powerMw h
  | marginMeasure p mhz => exact execMarginMeasure_stays p mhz h
  | thermalDownPeriod temps => exact execThermalDownPeriod_stays temps h
  | thermalUpPeriod temps => exact execThermalUpPeriod_stays temps h
  | regionTrip x => exact execRegionTrip_stays x h
  | heatIsolation p => exact execHeatIsolation_stays p h
  | meshHeatEmergency east tempC => exact execMeshHeatEmergency_stays east tempC h
  | stackThrottle => exact execStackThrottle_stays h
  | baseCapWrite r => exact execBaseCapWrite_stays r h
  | capProfileWrite ix r => exact execCapProfileWrite_stays ix r h
  | maxPointWrite r => exact execMaxPointWrite_stays r h
  | pwrEnAssert vinA10mV vinB10mV => exact execPwrEnAssert_stays vinA10mV vinB10mV h
  | softStartDone => exact execSoftStartDone_stays h
  | stage2Start => exact execStage2Start_stays h
  | pwrEnDeassert => exact execPwrEnDeassert_stays h
  | inputLockout => exact execInputLockout_stays h
  | lockoutClear => exact execLockoutClear_stays h
  | inputPairLost x => exact execInputPairLost_stays x h
  | inputPairReturn x => exact execInputPairReturn_stays x h
  | coolantRead x => exact execCoolantRead_stays x h
  | resetN => exact execResetN_stays h
  | moduleReset => exact execModuleReset_stays h
  | stewardFault canLog => exact execStewardFault_stays canLog h
  | regionShort p => exact execRegionShort_stays p h
  | rollback port k => exact execRollback_stays port k h
  | state port x => exact execState_stays port x h
  | resumeRule => exact execResumeRule_stays h
  | rollbackDone => exact execRollbackDone_stays h
  | restoreReq port k => exact execRestoreReq_stays port k h
  | spareAdopt => exact execSpareAdopt_stays h
  | alertAck r => exact execAlertAck_stays r h
  | nonce r => exact execNonce_stays r h
  | reportReady session => exact execReportReady_stays session h
  | updateData r => exact execUpdateData_stays r h
  | updateVerify r => exact execUpdateVerify_stays r h
  | updateVerifyDone => exact execUpdateVerifyDone_stays h
  | updateDiscard r => exact execUpdateDiscard_stays r h
  | ownerKey r => exact execOwnerKey_stays r h
  | shupoHello port clientKey clientEph clientNonce => exact execShupoHello_stays port clientKey clientEph clientNonce h
  | proof session signature => exact execProof_stays session signature h
  | proofTimeout session => exact execProofTimeout_stays session h
  | close session tagOk => exact execClose_stays session tagOk h
  | sessionTimeout session => exact execSessionTimeout_stays session h
  | dictWrite index sub r => exact execDictWrite_stays index sub r h
  | subscribe r => exact execSubscribe_stays r h
  | assign f => exact execAssign_stays f h
  | clearAddress f => exact execClearAddress_stays f h
  | chainInputLost => exact execChainInputLost_stays h
  | chainBypassOpen => exact execChainBypassOpen_stays h
  | commandStart r => exact execCommandStart_stays r h
  | commandPause r => exact execCommandPause_stays r h
  | commandStop r => exact execCommandStop_stays r h
  | commandResume r => exact execCommandResume_stays r h
  | enterService r => exact execEnterService_stays r h
  | commandReset r => exact execCommandReset_stays r h
  | nodeIdWrite r => exact execNodeIdWrite_stays r h
  | ipConfigWrite port r => exact execIpConfigWrite_stays port r h
  | planData r => exact execPlanData_stays r h
  | loadPlan r => exact execLoadPlan_stays r h
  | loadPlanDone => exact execLoadPlanDone_stays h
  | unload r => exact execUnload_stays r h
  | loadJob r => exact execLoadJob_stays r h
  | loadJobDone => exact execLoadJobDone_stays h
  | planDiscard r => exact execPlanDiscard_stays r h
  | jobAddressWrite r => exact execJobAddressWrite_stays r h
  | jobData r => exact execJobData_stays r h
  | cartridgeRemoved bay => exact execCartridgeRemoved_stays bay h
  | resetNRelease => exact execResetNRelease_stays h
  | stepMarkFall highNs => exact execStepMarkFall_stays highNs h
  | taskTableParity p t => exact execTaskTableParity_stays p t h
  | chainFrame f crcOk => exact execChainFrame_stays f crcOk h
  | ipConfigApply port => exact execIpConfigApply_stays port h

/-- A command keeps the commit record legal. -/
theorem exec_commitLegal {i : Instr} {s t : State} (h : exec i s = .next t) (l : CommitLegal s) : CommitLegal t := by
  have k : StaysOut s (exec i s) := exec_stays i (.refl s)
  rw [h] at k
  exact k.2 l

/-- A step idles on an empty queue; otherwise it runs the front command on the state whose queue is the rest. -/
theorem step_eq_next {s t : State} (h : step s = .next t) :
    (s.pending = [] ∧ t = s) ∨ ∃ c rest, s.pending = c :: rest ∧ exec c { s with pending := rest } = .next t := by
  unfold step at h
  split at h
  next hq => exact .inl ⟨hq, (Host.Outcome.next.inj h).symm⟩
  next c rest hq => exact .inr ⟨c, rest, hq, h⟩

end Sys2Proof.Machine

namespace Sys2Proof

open Sys2Proof.Machine

/-- Settles O4: an idle step leaves the state, and any other is a command on a state with the same commit record. -/
theorem stepKeepsCommitLegal : Obligations.StepKeepsCommitLegal := by
  intro s t l h
  obtain ⟨-, rfl⟩ | ⟨c, rest, -, hc⟩ := step_eq_next h
  · exact l
  · exact exec_commitLegal hc l

end Sys2Proof
end

section
/-! PROOFS. U of an ended step (01 R25, R28): what it writes for each outcome. -/

namespace Sys2Proof.Machine

/-- U of a COMMIT (01 R28). -/
theorem flip_of_commit (s : State) {e : Ended} (h : e.outcome = .commit) :
    flip s e = { s with
      commit := { s.commit with step := (s.commit.step + 1) % 2 ^ 64, ptr := 1 - s.commit.ptr }
      run := { s.run with
        saved := some { skips := s.run.skips, runs := s.watch.runs, cursor := s.run.cursor }
        skips := 0, cursor := s.run.cursor + 1, committed := sat64 s.run.committed 1, skipped := sat64 s.run.skipped 0 } } := by
  unfold flip
  rw [h]
  rfl

/-- U of a SKIP or a HALT (01 R25, R28). -/
theorem flip_of_ne_commit (s : State) {e : Ended} (h : e.outcome ≠ .commit) :
    flip s e = { s with
      run := { s.run with
        saved := some { skips := s.run.skips, runs := s.watch.runs, cursor := s.run.cursor }
        skips := min 65535 (s.run.skips + 1), cursor := s.run.cursor + 1, committed := sat64 s.run.committed 0,
        skipped := sat64 s.run.skipped 1 } } := by
  unfold flip
  cases ho : e.outcome with
  | commit => exact absurd ho h
  | skip => rfl
  | halt => rfl

end Sys2Proof.Machine

namespace Sys2Proof

open Sys2Proof.Machine

/-- Settles O17, by the two cases of the outcome. -/
theorem flipIsOneWrite : Obligations.FlipIsOneWrite :=
  fun s _ => ⟨flip_of_commit s, flip_of_ne_commit s⟩

end Sys2Proof
end

section
/-! PROOFS. The lifecycle commands (17 R499, R500): what a WRITE of COMMAND answers, by its code. -/

namespace Sys2Proof.Machine

/-- A write of COMMAND that passes the common checks and is accepted at once. -/
theorem command_accepted {s t : State} {r : Req} {x : Session} {code : Nat} (h : Passes s r 0x1200 2 x)
    (hc : reqNat r = code) (hw : wCommand r (countFrame s r) = (0, noteCommand t code 0)) :
    command code r s = storeAnswer (noteCommand t code 0) r 0 := by
  rw [command, if_pos hc, serveWrite_accepted h hw]

/-- A write of COMMAND that passes the common checks and goes on as pending. -/
theorem command_pending {s t : State} {r : Req} {x : Session} {code : Nat} (h : Passes s r 0x1200 2 x)
    (hc : reqNat r = code) (hw : wCommand r (countFrame s r) = (stPending, noteCommand t code stPending)) :
    command code r s = storeAnswer (noteCommand t code stPending) r stPending := by
  rw [command, if_pos hc, serveWrite_pending h hw]

/-- A write of COMMAND that its own check refuses: OPS_REJECTED is counted and the answer kept. -/
theorem command_refused {s : State} {r : Req} {x : Session} {code st : Nat} (h : Passes s r 0x1200 2 x)
    (hc : reqNat r = code) (hs : commandStatus (countFrame s r) r code = st) (h0 : st ≠ 0) (hp : st ≠ stPending) :
    command code r s = storeAnswer { countFrame s r with
      dict := { (countFrame s r).dict with opsRejected := sat64 (countFrame s r).dict.opsRejected 1 } } r st := by
  have hw : wCommand r (countFrame s r) = (st, countFrame s r) := by
    unfold wCommand
    simp [hc, hs]
  rw [command, if_pos hc, serveWrite_passes h]
  simp [hw, h0, hp]

/-- START is carried out where its check accepts it. -/
theorem wCommand_start {s : State} {r : Req} (hc : reqNat r = 1) (hs : commandStatus s r 1 = 0) :
    wCommand r s = (0, noteCommand (doStart s) 1 0) := by
  unfold wCommand; simp [hc, hs]

/-- PAUSE is carried out where its check accepts it and no STOP is held. -/
theorem wCommand_pause {s : State} {r : Req} (hc : reqNat r = 2) (hs : commandStatus s r 2 = 0) (hh : s.life.held = none) :
    wCommand r s = ((doPause s).1, noteCommand (doPause s).2 2 (doPause s).1) := by
  unfold wCommand; simp [hc, hs, hh]

/-- STOP is carried out where its check accepts it. -/
theorem wCommand_stop {s : State} {r : Req} (hc : reqNat r = 3) (hs : commandStatus s r 3 = 0) :
    wCommand r s = ((doStop s).1, noteCommand (doStop s).2 3 (doStop s).1) := by
  unfold wCommand; simp [hc, hs]

/-- RESUME is carried out where its check accepts it. -/
theorem wCommand_resume {s : State} {r : Req} (hc : reqNat r = 4) (hs : commandStatus s r 4 = 0) :
    wCommand r s = (0, noteCommand (doResume s) 4 0) := by
  unfold wCommand; simp [hc, hs]

/-- ENTER_SERVICE is carried out where its check accepts it. -/
theorem wCommand_service {s : State} {r : Req} (hc : reqNat r = 5) (hs : commandStatus s r 5 = 0) :
    wCommand r s = (0, noteCommand (doService s) 5 0) := by
  unfold wCommand; simp [hc, hs]

/-- RESET is pending where its check accepts it. -/
theorem wCommand_reset {s : State} {r : Req} (hc : reqNat r = 6) (hs : commandStatus s r 6 = 0) :
    wCommand r s = (stPending, noteCommand (doReset s) 6 stPending) := by
  unfold wCommand; simp [hc, hs]

/-- PAUSE in PAUSED ends at once. -/
theorem doPause_of_paused {s : State} (h : s.life.st = .paused) : doPause s = (0, s) := by
  simp [doPause, h]

/-- PAUSE with a step in progress is held (01 R36). -/
theorem doPause_of_active {s : State} (h : s.life.st = .running) (ha : s.run.active = true) :
    doPause s = (stPending, s.modLife (fun l => { l with held := some 2 })) := by
  simp [doPause, nothingRuns, h, ha]

/-- STOP in PAUSED ends at once. -/
theorem doStop_of_paused {s : State} (h : s.life.st = .paused) : doStop s = (0, s) := by
  simp [doStop, h]

/-- STOP before the gate takes effect at once where no pass is streaming (01 R35). -/
theorem doStop_of_no_pass {s : State} (h : s.life.st = .running) (ha : s.run.active = true) (he : s.run.ended = [])
    (hA : s.run.aRunning = false) (hp : passIssuing s = false) :
    doStop s = (0, stopNow (s.modLife (fun l => { l with held := none }))) := by
  have hp' : passIssuing (s.modLife (fun l => { l with held := none })) = false := hp
  simp [doStop, nothingRuns, stopsAtBoundary, h, ha, he, hA, hp']

/-- START without a loaded job is refused with 0x0306. -/
theorem commandStatus_start_unloaded {s : State} {r : Req} (ha : commandAllowed s r 1 = true) (hl : s.life.st = .ready)
    (hj : s.commit.loaded = false) : commandStatus s r 1 = stInconsistent := by
  simp [commandStatus, ha, commandState, hl, hj]

/-- START in RUNNING is refused with 0x0401. -/
theorem commandStatus_start_running {s : State} {r : Req} (ha : commandAllowed s r 1 = true) (hl : s.life.st = .running) :
    commandStatus s r 1 = stWrongState := by
  simp [commandStatus, ha, commandState, hl]

end Sys2Proof.Machine

namespace Sys2Proof

open Sys2Proof.Machine

/-- Settles O59: each command is a write of COMMAND, whose answer the lemmas above give by its code and the state. -/
theorem lifecycleCommandsComplete : Obligations.LifecycleCommandsComplete := by
  refine ⟨?start, ?pausePaused, ?pauseHeld, ?stopPaused, ?stopNow, ?resume, ?service, ?reset, ?unloaded, ?running⟩
  case start =>
    intro s r x h hc hs
    exact congrArg _ (command_accepted h hc (wCommand_start hc hs))
  case pausePaused =>
    intro s r x h hc hs hl hh
    have hd : doPause (countFrame s r) = (0, countFrame s r) := doPause_of_paused (by simpa using hl)
    refine congrArg _ (command_accepted h hc ?_)
    rw [wCommand_pause hc hs (by simpa using hh), hd]
  case pauseHeld =>
    intro s r x h hc hs hl ha hh
    refine congrArg _ (command_pending h hc ?_)
    rw [wCommand_pause hc hs (by simpa using hh), doPause_of_active (by simpa using hl) (by simpa using ha)]
  case stopPaused =>
    intro s r x h hc hs hl
    have hd : doStop (countFrame s r) = (0, countFrame s r) := doStop_of_paused (by simpa using hl)
    refine congrArg _ (command_accepted h hc ?_)
    rw [wCommand_stop hc hs, hd]
  case stopNow =>
    intro s r x h hc hs hl ha he hA hp
    have hp' : passIssuing (countFrame s r) = false := by simpa [passIssuing] using hp
    refine congrArg _ (command_accepted h hc ?_)
    rw [wCommand_stop hc hs, doStop_of_no_pass (by simpa using hl) (by simpa using ha) (by simpa using he)
      (by simpa using hA) hp']
  case resume =>
    intro s r x h hc hs
    exact congrArg _ (command_accepted h hc (wCommand_resume hc hs))
  case service =>
    intro s r x h hc hs
    exact congrArg _ (command_accepted h hc (wCommand_service hc hs))
  case reset =>
    intro s r x h hc hs
    exact congrArg _ (command_pending h hc (wCommand_reset hc hs))
  case unloaded =>
    intro s r x h hc ha hl hj
    exact congrArg _ (command_refused h hc (commandStatus_start_unloaded ha (by simpa using hl) (by simpa using hj))
      (by decide) (by decide))
  case running =>
    intro s r x h hc ha hl
    exact congrArg _ (command_refused h hc (commandStatus_start_running ha (by simpa using hl)) (by decide) (by decide))

end Sys2Proof
end

section
/-! PROOFS. Phase A (11 R353-R355): the all-gather, the buddy copy with its acknowledgement, and the ready tasks. -/

namespace Sys2Proof.Machine

/-- A frame of the gather of the A that runs is taken (11 R353). -/
theorem execAgReceived_of_current {s : State} {port : Slice} {k : Nat} {c : Content}
    (h : landedReduce s port k [3, 4] = some c) (ha : s.run.aRunning = true) (he : c.repoch = s.red.epoch)
    (hs : c.step = s.run.aStep % 65536) :
    execAgReceived port k s = .next (finishA ((List.range (c.count % 4 + 1)).foldl (fun t i =>
      let j := c.block + i
      let w := (c.bytes.drop (64 * i)).take 64
      let t := (planWrite t (replicaAddr t j) w).modRedSl (blockSlice j) (fun r => { r with
        agGot := if r.agGot.contains j then r.agGot else r.agGot ++ [j] })
      agPump (if c.kind = 3 ∧ c.hop + 2 < t.torus.y then sendAg t (blockSlice j) true (c.hop + 1) c.origin j w else t)
        (blockSlice j)) (noteProgress (dropLanded s port k) 4))) := by
  simp only [execAgReceived, h]
  simp [ha, he, hs]

/-- A record of the buddy copy of the last committed step is taken (11 R355). -/
theorem execBuddyReceived_of_current {s : State} {port : Slice} {k : Nat} {c : Content}
    (h : landedReduce s port k [7] = some c) (hl : s.commit.loaded = true) (he : c.repoch = s.red.epoch)
    (hs : c.step = stepBefore s.commit.step % 65536) :
    execBuddyReceived port k s = .next ((List.range (c.count % 4 + 1)).foldl (fun t i =>
      let step := stepBefore s.commit.step
      let j := c.block + i
      let n := recordLen c.sub
      (planWrite t (recordAddr t (6 + step % 2) c.sub j) ((c.bytes.drop (n * i)).take n)).modRedSl (blockSlice j) (fun r =>
        let got := if r.buddyStep = step then r.buddyGot else []
        { r with buddyStep := step, buddyGot := if got.contains (j, c.sub) then got else got ++ [(j, c.sub)] }))
      (dropLanded s port k)) := by
  simp only [execBuddyReceived, h]
  simp [hl, he, hs]

/-- The copy is complete where every slice holds its records (11 R355). -/
theorem execBuddyCopyComplete_of_held {s : State} (hm : 1 < s.modules) (hl : s.commit.loaded = true)
    (ho : 0 < s.ownedStripes) (hc : ∀ sl : Slice, copyHeld s (s.slice 0).red.buddyStep sl = true) :
    execBuddyCopyComplete s = .next (
      let step := (s.slice 0).red.buddyStep
      let u := allSlices.foldl (fun t sl => t.modRedSl sl (fun r => { r with buddyGot := [] })) s
      let v := { u with rim := { u.rim with buddyHeld := step } }
      sendBundle v (if v.torus.x = 1 then .ym else .xm) 0 (reduceFrame v 8 step 0 v.shard 0 0 .ash [] [] 0)) := by
  have hall : allSlices.all (copyHeld s (s.slice 0).red.buddyStep) = true := List.all_eq_true.mpr fun sl _ => hc sl
  have hno : (s.modules ≤ 1 || !s.commit.loaded || s.ownedStripes = 0
      || !allSlices.all (copyHeld s (s.slice 0).red.buddyStep)) = false := by
    simp [hall, hl]
    omega
  simp only [execBuddyCopyComplete, hno]
  rfl

/-- An acknowledgement of the copy of the last committed step is held (01 R31). -/
theorem execBuddyAck_of_current {s : State} {port : Slice} {k : Nat} {c : Content}
    (h : landedReduce s port k [8] = some c) (hl : s.commit.loaded = true) (he : c.repoch = s.red.epoch)
    (hs : c.step = stepBefore s.commit.step % 65536) :
    execBuddyAck port k s = .next (
      let u := noteProgress (dropLanded s port k) 3
      { u with rim := { u.rim with acked := true, buddyAcked := stepBefore s.commit.step } }) := by
  simp only [execBuddyAck, h]
  simp [hl, he, hs]

/-- An acknowledgement of another epoch is stale (11 R338). -/
theorem execBuddyAck_of_stale {s : State} {port : Slice} {k : Nat} {c : Content}
    (h : landedReduce s port k [8] = some c) (he : c.repoch ≠ s.red.epoch) :
    execBuddyAck port k s = .next (dropStale s port k) := by
  simp only [execBuddyAck, h]
  simp [he, aheadFrame]

/-- The ready task of a bucket is STARTed on every training skillet (11 R354). -/
theorem execReadyTaskStart_of_ready {s : State} {b : Nat} {e : Bucket} (hb : s.red.buckets[b]? = some e)
    (ha : s.run.active = true) (hr : s.life.st = .running) (hw : s.run.ready.contains b = true)
    (hn : if s.run.readyNow then s.run.ready.head? = some b else ∀ sl : Slice, agHas s b sl = true) :
    execReadyTaskStart b s = .next (
      let u := s.modRun (fun r => { r with ready := r.ready.filter (fun x => x != b) })
      (trainingPids u).foldl (fun t p =>
        let v := startTask (recvCobalt t p.val) p (Fin.ofNat 16 e.readyTask) e.readyPc (w64 t.commit.step)
        let w := sendReply v.2 p.val v.1 []
        if v.1 = 0 then w else raiseMod w .readyStartRejected (names [w.commit.step, b, p.val])) u) := by
  have now : if s.run.readyNow then s.run.ready.head? = some b else allSlices.all (fun sl => agHas s b sl) = true := by
    split at hn
    next hy => rwa [if_pos hy]
    next hy => rw [if_neg hy]; exact List.all_eq_true.mpr fun sl _ => hn sl
  simp only [execReadyTaskStart, hb, decide_eq_true now, ha, hr, hw]
  rfl

end Sys2Proof.Machine

namespace Sys2Proof

open Sys2Proof.Machine

/-- Settles O13, by the lemma of each command above. -/
theorem phaseAComplete : Obligations.PhaseAComplete :=
  ⟨fun _ _ _ _ => execAgReceived_of_current, fun _ _ _ _ => execBuddyReceived_of_current,
    fun _ => execBuddyCopyComplete_of_held, fun _ _ _ _ => execBuddyAck_of_current,
    fun _ _ _ _ => execBuddyAck_of_stale, fun _ _ _ => execReadyTaskStart_of_ready⟩

end Sys2Proof
end

section
/-! PROOFS. The gate (01 R22-R26, 11 R350, R351): its rule, its clip factor, and what GATE_EVALUATE leaves. -/

namespace Sys2Proof.Machine

/-! ### The rule (01 R23) -/

/-- The gate's rule on a flag word: COMMIT where no flag is set, HALT where one more skip reaches a limit above 0. -/
theorem gateOutcome_eq (flags limit skips : Nat) :
    gateOutcome flags limit skips =
      if flags ≠ 0 then (if 0 < limit ∧ limit ≤ skips + 1 then Outcome.halt else Outcome.skip) else Outcome.commit := by
  unfold gateOutcome
  by_cases h : flags = 0
  · simp [h]
  · simp [h, Nat.pos_iff_ne_zero]

/-- The flag word of four flags is 0 where none is set. -/
theorem flagWord_ne_zero (a b c d : Bool) :
    b2n a + 2 * b2n b + 4 * b2n c + 8 * b2n d ≠ 0 ↔ (a || b || c || d) = true := by
  revert a b c d
  decide

/-- The clip factor is the quotient only where clip_norm is above 0 and the norm above it (01 R23). -/
theorem clipFactor_eq (c : W32) (norm : W64) : clipFactor c norm =
    if Num.lt (numOf 0 0) (f64num (f64of32 c)) = true ∧ Num.lt (f64num (f64of32 c)) (f64num norm) = true
    then f64div (f64of32 c) norm else f64one := by
  simp only [clipFactor, Bool.and_eq_true]

/-! ### What the events and the start of a step leave -/

/-- What a training step rests on: the commit record, the skillets, the step's own registers and the optimizer. -/
def stepView (s : State) : Commit × Vector Skillet 64 × StepSt × Optim := (s.commit, s.sks, s.run, s.rim.optim)

/-- A fold leaves what each of its steps leaves. -/
theorem foldl_keeps {α β : Type} (view : State → β) {g : State → α → State} (h : ∀ t x, view (g t x) = view t)
    (l : List α) (s : State) : view (l.foldl g s) = view s := by
  induction l generalizing s with
  | nil => rfl
  | cons x l ih => exact (ih (g s x)).trans (h s x)

theorem stepView_modRed (s : State) (f : RedSt → RedSt) : stepView (s.modRed f) = stepView s := rfl

theorem stepView_modWatch (s : State) (f : WatchSt → WatchSt) : stepView (s.modWatch f) = stepView s := rfl

theorem stepView_modRun {s t : State} (h : stepView t = stepView s) (f : StepSt → StepSt) :
    stepView (t.modRun f) = (s.commit, s.sks, f s.run, s.rim.optim) := by
  obtain ⟨hc, hk, hr, ho⟩ : t.commit = s.commit ∧ t.sks = s.sks ∧ t.run = s.run ∧ t.rim.optim = s.rim.optim := by
    simpa only [stepView, Prod.mk.injEq] using h
  simp only [stepView, State.modRun_commit, State.modRun_sks, State.modRun_run, State.modRun_rim, hc, hk, hr, ho]

theorem sendCobalt_stepView (s : State) (kind : CobaltKind) (src dest arg : Nat) (beats : List Nat) (rec : Option EventRec) :
    stepView (sendCobalt s kind src dest arg beats rec) = stepView s := by
  unfold sendCobalt countSent
  split
  · rfl
  · split <;> rfl

theorem raiseMod_stepView (s : State) (ev : Ev) (data : Nat) : stepView (raiseMod s ev data) = stepView s :=
  sendCobalt_stepView (passFrac s) ..

theorem raiseOutcome_stepView (s : State) (out : Outcome) : stepView (raiseOutcome s out) = stepView s := by
  cases out with
  | commit => rfl
  | skip => exact raiseMod_stepView ..
  | halt => exact raiseMod_stepView ..

theorem leaveHeld_stepView (s : State) (sl : Slice) (k : Nat) (h : RingHeld) : stepView (leaveHeld s sl k h) = stepView s := by
  unfold leaveHeld
  dsimp only
  split <;> rfl

theorem freeHeld_stepView (s : State) (sl : Slice) : stepView (freeHeld s sl) = stepView s := by
  unfold freeHeld
  refine foldl_keeps stepView (fun t h => ?_) _ _
  split
  · exact leaveHeld_stepView ..
  · rfl

theorem resetReduction_stepView (s : State) : stepView (resetReduction s) = stepView s := by
  unfold resetReduction
  extract_lets t u
  have ht : stepView t = stepView s := foldl_keeps stepView freeHeld_stepView _ _
  have hu : stepView u = stepView t := by
    refine foldl_keeps stepView (fun v sl => ?_) _ _
    rfl
  exact (stepView_modRed u _).trans (hu.trans ht)

/-- The start of a step leaves all of this but the step's own registers, and of those the run of skips and the LAST
entries. -/
theorem beginStep_stepView (s : State) (now : Bool) :
    ∃ r : StepSt, stepView (beginStep s now) = (s.commit, s.sks, r, s.rim.optim)
      ∧ r.skips = s.run.skips ∧ r.lastOutcome = s.run.lastOutcome
      ∧ r.lastTokens = s.run.lastTokens ∧ r.lastFlags = s.run.lastFlags := by
  unfold beginStep
  extract_lets t u v
  have ht : stepView t = stepView s := resetReduction_stepView s
  have hv : stepView v = stepView s := (stepView_modWatch u _).trans ((stepView_modRed t _).trans ht)
  exact ⟨_, stepView_modRun hv _, rfl, rfl, rfl, rfl⟩

/-! ### GATE_EVALUATE -/

/-- The state at the gate with the LAST entries written and the events raised (11 R351). -/
def gateJudged (s : State) (fs : List Fused) (f0 : Fused) : State :=
  let f := fusedSum fs
  let norm := f64sqrt (scaledSumsq (optimFor s) f)
  let out := gateOutcome f.flags f0.skipLimit s.run.skips
  let t := if policyDiffers s ((Tab.find s.red.gathered s.shard).getD f0) f0 then
    raiseMod s .policyDiffers (names [s.commit.step]) else s
  raiseOutcome (writeLast t out f norm (clipFactor f0.clipNorm norm)) out

/-- What the gate keeps of the step for its U. -/
def gateEnded (s : State) (fs : List Fused) (f0 : Fused) : Ended :=
  let f := fusedSum fs
  let own := (Tab.find s.red.gathered s.shard).getD f0
  { step := (gateJudged s fs f0).commit.step, outcome := gateOutcome f.flags f0.skipLimit s.run.skips,
    clip := clipFactor f0.clipNorm (f64sqrt (scaledSumsq (optimFor s) f)), tokens := f.tokens,
    cOver := clusterBits (fs.map (fun f => f.watch)) 0 false, cQuiet := clusterBits (fs.map (fun f => f.watch)) 64 true,
    threshold := frameThreshold f0.watch, quietSteps := frameQuietSteps f0.watch,
    ownThreshold := frameThreshold own.watch, ownSteps := frameQuietSteps own.watch,
    sums := (gateJudged s fs f0).watch.sums }

/-- The state past the gate: the step waits for its U. -/
def gatePassed (u : State) (e : Ended) : State :=
  let v := u.modRun (fun r => { r with active := false, ended := r.ended ++ [e] })
  { v with recov := { v.recov with
      loopStep := none, loopCount := 0
      loopGate := if e.outcome == Outcome.commit then some v.commit.step else none } }.modRed (fun r => { r with traces := [] })

theorem gatePassed_stepView (u : State) (e : Ended) : stepView (gatePassed u e) =
    (u.commit, u.sks, { u.run with active := false, ended := u.run.ended ++ [e] }, u.rim.optim) := rfl

/-- What GATE_EVALUATE answers past the gate: after a SKIP the next run of the step may begin at once (01 R26, 13 R411). -/
def gateNext (v : State) (e : Ended) : State :=
  if e.outcome == .skip && !scaleMoves v e && v.life.held.isNone then beginStep v true else v

theorem gateNext_of_ne_skip (v : State) {e : Ended} (h : e.outcome ≠ .skip) : gateNext v e = v := by
  simp [gateNext, h]

/-- The next run of the step leaves what the gate wrote. -/
theorem gateNext_stepView (v : State) (e : Ended) :
    ∃ r : StepSt, stepView (gateNext v e) = (v.commit, v.sks, r, v.rim.optim)
      ∧ r.skips = v.run.skips ∧ r.lastOutcome = v.run.lastOutcome
      ∧ r.lastTokens = v.run.lastTokens ∧ r.lastFlags = v.run.lastFlags := by
  unfold gateNext
  split
  · exact beginStep_stepView v true
  · exact ⟨_, rfl, rfl, rfl, rfl, rfl⟩

/-- GATE_EVALUATE with a step in progress, its record sent and every record held. -/
theorem execGateEvaluate_of_gathered {s : State} {f0 : Fused} {rest : List Fused}
    (hg : (allShards s).filterMap (fun k => Tab.find s.red.gathered k) = f0 :: rest)
    (hl : (f0 :: rest).length = s.modules) (ha : s.run.active = true) (hs : s.red.sent = true) :
    execGateEvaluate s = .next (gateNext (gatePassed (gateJudged s (f0 :: rest) f0) (gateEnded s (f0 :: rest) f0))
      (gateEnded s (f0 :: rest) f0)) := by
  have hgo : (!s.run.active || !s.red.sent || (f0 :: rest).length != s.modules) = false := by simp [ha, hs, hl]
  simp only [execGateEvaluate, hg, hgo]
  rfl

/-- Writing the LAST entries leaves all but them (11 R351). -/
theorem writeLast_stepView (s : State) (out : Outcome) (f : FusedSum) (norm clip : W64) :
    ∃ r : StepSt, stepView (writeLast s out f norm clip) = (s.commit, s.sks, r, s.rim.optim)
      ∧ r.skips = s.run.skips ∧ r.ended = s.run.ended ∧ r.lastOutcome = outcomeCode out
      ∧ r.lastTokens = f.tokens % 2 ^ 64 ∧ r.lastFlags = f.flags ∧ (out = .commit → r.lastClip = f32of64 clip) :=
  ⟨_, rfl, rfl, rfl, rfl, rfl, rfl, fun h => by subst h; rfl⟩

/-- What the gate writes, and what it leaves. -/
theorem gateJudged_stepView (s : State) (fs : List Fused) (f0 : Fused) :
    ∃ r : StepSt, stepView (gateJudged s fs f0) = (s.commit, s.sks, r, s.rim.optim)
      ∧ r.skips = s.run.skips ∧ r.ended = s.run.ended
      ∧ r.lastOutcome = outcomeCode (gateOutcome (fusedSum fs).flags f0.skipLimit s.run.skips)
      ∧ r.lastTokens = (fusedSum fs).tokens % 2 ^ 64 ∧ r.lastFlags = (fusedSum fs).flags
      ∧ (gateOutcome (fusedSum fs).flags f0.skipLimit s.run.skips = .commit →
          r.lastClip = f32of64 (clipFactor f0.clipNorm (f64sqrt (scaledSumsq (optimFor s) (fusedSum fs))))) := by
  unfold gateJudged
  extract_lets f norm out t
  have ht : stepView t = stepView s := by
    unfold t
    split
    · exact raiseMod_stepView ..
    · rfl
  obtain ⟨r, hr, hskips, hended, hlast⟩ := writeLast_stepView t out f norm (clipFactor f0.clipNorm norm)
  simp only [stepView, Prod.mk.injEq] at ht
  obtain ⟨hc, hk, hrun, ho⟩ := ht
  rw [hc, hk, ho] at hr
  rw [hrun] at hskips hended
  exact ⟨r, (raiseOutcome_stepView _ _).trans hr, hskips, hended, hlast⟩

/-- The step that the gate ends is the one of the commit record. -/
theorem gateEnded_step (s : State) (fs : List Fused) (f0 : Fused) : (gateEnded s fs f0).step = s.commit.step :=
  let ⟨_, h, _⟩ := gateJudged_stepView s fs f0
  congrArg (fun v => v.1.step) h

end Sys2Proof.Machine

namespace Sys2Proof

open Sys2Proof.Machine

/-- Settles O16: the rule and the clip factor by their equations; GATE_EVALUATE by what the gate writes and by what the
start of the next run of a skipped step leaves. -/
theorem gateDecidesTheStep : Obligations.GateDecidesTheStep := by
  refine ⟨?rule, clipFactor_eq, ?evaluate⟩
  case rule =>
    intro lossNf gradNf sat sovf limit skips
    rw [gateOutcome_eq]
    simp only [flagWord_ne_zero]
  case evaluate =>
    intro s fs f0 rest hg hcons hl ha hs f out clip
    obtain ⟨r, hr, hskips, hended, hout, htok, hflags, hclip⟩ := gateJudged_stepView s fs f0
    have hv := gatePassed_stepView (gateJudged s fs f0) (gateEnded s fs f0)
    have hstep := gateEnded_step s fs f0
    have hx : exec .gateEvaluate s = .next (gateNext (gatePassed (gateJudged s fs f0) (gateEnded s fs f0))
        (gateEnded s fs f0)) := by
      subst hcons
      exact execGateEvaluate_of_gathered hg.symm hl ha hs
    generalize gatePassed (gateJudged s fs f0) (gateEnded s fs f0) = v at hv hx
    generalize gateJudged s fs f0 = u at hr hv
    simp only [stepView, Prod.mk.injEq] at hr hv
    obtain ⟨uc, uk, rfl, uo⟩ := hr
    obtain ⟨vc, vk, vr, vo⟩ := hv
    refine ⟨_, hx, ?_⟩
    by_cases hskip : out = .skip
    case pos =>
      obtain ⟨q, hq, qskips, qout, qtok, qflags⟩ := gateNext_stepView v (gateEnded s fs f0)
      generalize gateNext v (gateEnded s fs f0) = w at hq ⊢
      simp only [stepView, Prod.mk.injEq] at hq
      obtain ⟨wc, wk, rfl, wo⟩ := hq
      rw [vr] at qskips qout qtok qflags
      exact ⟨qout.trans hout, qtok.trans htok, qflags.trans hflags, fun h => absurd (h.symm.trans hskip) (by decide),
        (wc.trans vc).trans uc, (wk.trans vk).trans uk, qskips.trans hskips, (wo.trans vo).trans uo,
        fun h => absurd hskip h⟩
    case neg =>
      rw [gateNext_of_ne_skip v hskip, vr]
      exact ⟨hout, htok, hflags, hclip, vc.trans uc, vk.trans uk, hskips, vo.trans uo,
        fun _ => ⟨rfl, _, congrArg (· ++ _) hended, rfl, hstep, rfl⟩⟩

end Sys2Proof
end

section
/-! PROOFS. UPDATE_START, UE_G_COMPLETE and STEP_FLIP (01 R25-R28, 10 R308). What STEP_FLIP runs before and after the flip,
from the events to the discard of a step that began early, leaves the commit record: one lemma for each operation, in the
order of the model's files. -/

namespace Sys2Proof.Machine

/-! ### Folds and branches -/

/-- The commit record of a state whose view is that of another. -/
theorem commit_of_stepView {s t : State} (h : stepView t = stepView s) : t.commit = s.commit := congrArg Prod.fst h

/-- A fold leaves the commit record where each of its steps does. -/
@[simp] theorem foldl_commit {α : Type} {g : State → α → State} (h : ∀ t x, (g t x).commit = t.commit) (l : List α)
    (s : State) : (l.foldl g s).commit = s.commit := foldl_keeps State.commit h l s

/-- So does a fold that carries a result beside the state. -/
@[simp] theorem foldl_snd_commit {α β : Type} {g : β × State → α → β × State}
    (h : ∀ r x, (g r x).2.commit = r.2.commit) (l : List α) (r : β × State) :
    (l.foldl g r).2.commit = r.2.commit := by
  induction l generalizing r with
  | nil => rfl
  | cons x l ih => exact (ih (g r x)).trans (h r x)

/-- The commit record of a branch is that of the side taken. -/
@[simp] theorem ite_commit (c : Prop) [Decidable c] (s t : State) :
    (if c then s else t).commit = if c then s.commit else t.commit := apply_ite State.commit c s t

/-! ### Events and messages (Machine/Ops.lean) -/

@[simp] theorem passFrac_commit (s : State) : (passFrac s).commit = s.commit := rfl

@[simp] theorem countSent_commit (s : State) (node : Nat) : (countSent s node).commit = s.commit := by
  unfold countSent
  split <;> simp

@[simp] theorem recvCobalt_commit (s : State) (node : Nat) : (recvCobalt s node).commit = s.commit := by
  unfold recvCobalt
  split <;> simp

@[simp] theorem sendCobalt_commit (s : State) (kind : CobaltKind) (src dest arg : Nat) (beats : List Nat) (rec : Option EventRec) :
    (sendCobalt s kind src dest arg beats rec).commit = s.commit := by simp [sendCobalt]

@[simp] theorem sendReply_commit (s : State) (node status : Nat) (value : List Nat) :
    (sendReply s node status value).commit = s.commit := by simp [sendReply]

@[simp] theorem raiseAs_commit (s : State) (node ev : Nat) (cls : EvClass) (ploc data : Nat) :
    (raiseAs s node ev cls ploc data).commit = s.commit := by simp [raiseAs]

@[simp] theorem raise_commit (s : State) (node : Nat) (ev : Ev) (ploc data : Nat) :
    (raise s node ev ploc data).commit = s.commit := by simp [raise]

@[simp] theorem raiseMod_commit (s : State) (ev : Ev) (data : Nat) : (raiseMod s ev data).commit = s.commit := by
  simp [raiseMod]

@[simp] theorem raiseSk_commit (s : State) (p : Pid) (unit : Nat) (ev : Ev) (data : Nat) :
    (raiseSk s p unit ev data).commit = s.commit := by simp [raiseSk]

/-! ### The colander (Machine/ColOps.lean) -/

@[simp] theorem refuseBridge_commit (s : State) (p : Pid) : (refuseBridge s p).commit = s.commit := by
  simp [refuseBridge]

@[simp] theorem storeImage_commit (s : State) (p : Pid) (x : PlanImage) : (storeImage s p x).commit = s.commit := by
  simp [storeImage]

@[simp] theorem loadImages_commit (s : State) (images : List PlanImage) (slice : Nat) (p : Pid) :
    (loadImages s images slice p).commit = s.commit := by
  unfold loadImages
  split <;> simp

@[simp] theorem reload_commit (s : State) (p : Pid) : (reload s p).commit = s.commit := by
  unfold reload
  split <;> simp

@[simp] theorem domainOff_commit (s : State) (p : Pid) (d : Domain) : (domainOff s p d).commit = s.commit := rfl

@[simp] theorem domainOn_commit (s : State) (p : Pid) (thermal : Nat) : (domainOn s p thermal).commit = s.commit := by
  simp [domainOn]

@[simp] theorem raiseEffect_commit (s : State) (r : ColRec) : (raiseEffect s r).commit = s.commit := by
  unfold raiseEffect
  split <;> simp

@[simp] theorem sparesLow_commit (s : State) (before : Nat) : (sparesLow s before).commit = s.commit := by
  simp [sparesLow]

@[simp] theorem effectOn_commit (s : State) (r : ColRec) : (effectOn s r).commit = s.commit := by
  unfold effectOn
  split <;> simp

@[simp] theorem takeEffect_commit (s : State) (r : ColRec) : (takeEffect s r).commit = s.commit := by
  simp [takeEffect]

@[simp] theorem journalAdd_commit (s : State) (r : ColRec) : (journalAdd s r).commit = s.commit := rfl

@[simp] theorem adoptCheck_commit (s : State) (fails : Option (List (Pid × Nat))) (q : Pid) :
    (adoptCheck fails q s).2.commit = s.commit := by
  unfold adoptCheck
  split <;> simp

@[simp] theorem relocateOne_commit (s : State) (fuel : Nat) (fails : Option (List (Pid × Nat))) (origin cause : Nat)
    (l : Fin 56) : (relocateOne fuel fails origin cause l s).commit = s.commit := by
  induction fuel generalizing s with
  | zero => rfl
  | succ fuel ih =>
    unfold relocateOne
    dsimp only
    split
    · rfl
    · split
      next => rfl
      next q hq =>
        have hc := adoptCheck_commit s fails q
        split
        next h => rw [h] at hc; simpa using hc
        next h => rw [h] at hc; simpa [ih] using hc

@[simp] theorem relocateAll_commit (s : State) (fails : Option (List (Pid × Nat))) (origin cause : Nat) :
    (relocateAll s fails origin cause).commit = s.commit := by simp [relocateAll]

@[simp] theorem appendRecord_commit (s : State) (kind origin : Nat) (p : Pid) (a b cause : Nat) :
    (appendRecord s kind origin p a b cause).commit = s.commit := by simp [appendRecord]

@[simp] theorem retireBank_commit (s : State) (p : Pid) (bank : Nat) : (retireBank s p bank).commit = s.commit := by
  simp [retireBank]

@[simp] theorem applyDue_commit (s : State) (fails : Option (List (Pid × Nat))) (origin cause : Nat) :
    (applyDue s fails origin cause).commit = s.commit := by simp [applyDue]

/-! ### The pantry (Machine/PantryOps.lean) -/

@[simp] theorem countAccess_commit (s : State) (p : Pid) (m a len rmw : Nat) :
    (countAccess s p m a len rmw).commit = s.commit := rfl

@[simp] theorem countGranted_commit (s : State) (p : Pid) (m a len : Nat) (write : Bool) (served : List Nat) :
    (countGranted s p m a len write served).commit = s.commit := by
  unfold countGranted
  split
  · simp
  · exact foldl_commit (fun _ _ => countAccess_commit ..) _ _

@[simp] theorem noteError_commit (s : State) (p : Pid) (g : Nat) (double : Bool) :
    (noteError s p g double).commit = s.commit := by simp [noteError]

@[simp] theorem meetErrors_commit (s : State) (p : Pid) (live : Nat → Bool) :
    (meetErrors s p live).commit = s.commit := by simp [meetErrors]

@[simp] theorem readRange_commit (s : State) (p : Pid) (m a len : Nat) :
    (readRange s p m a len).2.commit = s.commit := by simp [readRange]

@[simp] theorem writeShelf_commit (s : State) (p : Pid) (a : Nat) (bs : List Byte) (n : Nat) :
    (writeShelf s p a bs n).2.commit = s.commit := by
  unfold writeShelf
  dsimp only
  repeat' split
  all_goals simp

@[simp] theorem writeRange_commit (s : State) (p : Pid) (m a : Nat) (bs : List Byte) :
    (writeRange s p m a bs).2.commit = s.commit := by
  unfold writeRange
  extract_lets t
  have ht : t.commit = s.commit := countGranted_commit ..
  refine Eq.trans (foldl_snd_commit (fun r n => ?_) _ _) ht
  exact writeShelf_commit ..

@[simp] theorem poisonRange_commit (s : State) (p : Pid) (gs : List Nat) : (poisonRange s p gs).commit = s.commit := rfl

@[simp] theorem slotOrderFault_commit (s : State) (p : Pid) (n : Nat) : (slotOrderFault s p n).commit = s.commit := by
  simp [slotOrderFault]

@[simp] theorem slotCompletion_commit (s : State) (p : Pid) (n : Nat) : (slotCompletion s p n).commit = s.commit := by
  simp [slotCompletion]

@[simp] theorem slotRelease_commit (s : State) (p : Pid) (n : Nat) : (slotRelease s p n).commit = s.commit := by
  simp [slotRelease]

@[simp] theorem slotProduce_commit (s : State) (p : Pid) (n : Nat) : (slotProduce s p n).commit = s.commit := by
  simp [slotProduce]

@[simp] theorem produceWrite_commit (s : State) (p : Pid) (m a : Nat) (bs : List Byte) (chk : Bool) (n : Nat) :
    (produceWrite s p m a bs chk n).2.commit = s.commit := by simp [produceWrite]

/-! ### The sequencer (Machine/SeqOps.lean) -/

@[simp] theorem selectNext_commit (s : State) (p : Pid) : (selectNext s p).commit = s.commit := by
  unfold selectNext
  split <;> simp

@[simp] theorem kick_commit (s : State) (p : Pid) : (kick s p).commit = s.commit := by
  unfold kick
  dsimp only
  repeat' split
  all_goals simp

@[simp] theorem leaveRunning_commit (s : State) (p : Pid) (t : Fin 16) (st : TaskState) :
    (leaveRunning s p t st).commit = s.commit := by simp [leaveRunning]

@[simp] theorem taskFault_commit (s : State) (p : Pid) (t : Fin 16) (cause : Nat) :
    (taskFault s p t cause).commit = s.commit := by simp [taskFault]

@[simp] theorem overflow_commit (s : State) (p : Pid) (which : List Nat) : (overflow s p which).commit = s.commit := by
  simp [overflow]

@[simp] theorem serveCC_commit (s : State) (p : Pid) (t : Fin 16) (c : Fin 8) :
    (serveCC s p t c).commit = s.commit := by simp [serveCC]

@[simp] theorem bumpCC_commit (s : State) (p : Pid) (t : Fin 16) (c : Fin 8) : (bumpCC s p t c).commit = s.commit := by
  simp [bumpCC]

@[simp] theorem failTask_commit (s : State) (p : Pid) (t : Fin 16) (soft : Bool) (status : Nat) :
    (failTask s p t soft status).commit = s.commit := by simp [failTask]

@[simp] theorem postCompletion_commit (s : State) (p : Pid) (i : Issuer) (status : Nat) :
    (postCompletion s p i status).commit = s.commit := by simp [postCompletion]

/-! ### The mesh (Machine/MeshOps.lean) -/

@[simp] theorem State.setOutQ_commit (s : State) (node out : Nat) (q : List QFlit) :
    (s.setOutQ node out q).commit = s.commit := rfl

@[simp] theorem State.setSlackQ_commit (s : State) (node out : Nat) (q : List QFlit) :
    (s.setSlackQ node out q).commit = s.commit := rfl

@[simp] theorem takeAck_commit (s : State) (origin : Nat) (merge : Bool) (unit tag from_ status : Nat) :
    (takeAck s origin merge unit tag from_ status).commit = s.commit := by
  unfold takeAck
  split <;> simp

@[simp] theorem ackNow_commit (s : State) (f : Flit) (at_ status : Nat) :
    (ackNow s f at_ status).commit = s.commit := by
  unfold ackNow
  split <;> simp

@[simp] theorem countDiscard_commit (s : State) (node : Fin 68) (n : Nat) :
    (countDiscard s node n).commit = s.commit := rfl

@[simp] theorem holdDiscard_commit (s : State) (node : Fin 68) (f : Flit) :
    (holdDiscard s node f).commit = s.commit := by simp [holdDiscard]

@[simp] theorem pushOut_commit (s : State) (node : Fin 68) (out inp : Nat) (f : Flit) :
    (pushOut s node out inp f).commit = s.commit := by
  unfold pushOut
  split <;> simp

@[simp] theorem pushBranch_commit (s : State) (node : Fin 68) (inp : Nat) (f : Flit) (many : Bool) (b : Nat × Nat × Nat) :
    (pushBranch s node inp f many b).commit = s.commit := by simp [pushBranch]

@[simp] theorem pushPath_commit (s : State) (node : Fin 68) (out inp : Nat) (f : Flit) :
    (pushPath s node out inp f).commit = s.commit := by
  unfold pushPath
  split <;> simp

@[simp] theorem enterNode_commit (s : State) (node : Fin 68) (inp : Nat) (f : Flit) :
    (enterNode s node inp f).commit = s.commit := by
  unfold enterNode
  dsimp only
  repeat' split
  all_goals simp

@[simp] theorem takeCredit_commit (s : State) (f : Flit) : (takeCredit s f).commit = s.commit := by simp [takeCredit]

@[simp] theorem inject_commit (s : State) (f : Flit) : (inject s f).commit = s.commit := by simp [inject]

/-! ### Operands (Machine/Operands.lean) -/

@[simp] theorem tapValues_commit (s : State) (p : Pid) (w : Nat) (xs : List Num) :
    (tapValues s p w xs).commit = s.commit := by simp [tapValues]

/-! ### The griddles (Machine/Griddle.lean) -/

@[simp] theorem flushDone_commit (s : State) (p : Pid) (g : Fin 4) : (flushDone s p g).commit = s.commit := by
  simp [flushDone]

@[simp] theorem doFlush_commit (s : State) (p : Pid) (g : Fin 4) : (doFlush s p g).commit = s.commit := by
  simp [doFlush]

@[simp] theorem releaseOperand_commit (s : State) (p : Pid) (o : Operand) :
    (releaseOperand s p o).commit = s.commit := by simp [releaseOperand]

@[simp] theorem releaseHeld_commit (s : State) (p : Pid) (qs : List Pass) : (releaseHeld s p qs).commit = s.commit := by
  simp [releaseHeld]

@[simp] theorem passDone_commit (s : State) (p : Pid) (g : Fin 4) (q : Pass) :
    (passDone s p g q).commit = s.commit := by simp [passDone]

@[simp] theorem chainDone_commit (s : State) (p : Pid) (g : Fin 4) (w : Win) (q : Pass) :
    (chainDone s p g w q).commit = s.commit := by simp [chainDone]

theorem passBoundary_commit {s t : State} {p : Pid} {g : Fin 4} {skipped : Nat} (h : passBoundary s p g skipped = some t) :
    t.commit = s.commit := by
  unfold passBoundary at h
  dsimp only at h
  split at h
  · cases h
  · split at h
    · cases h
    · obtain rfl := Option.some.inj h
      simp

@[simp] theorem drainEnd_commit (s : State) (p : Pid) (g : Fin 4) : (drainEnd s p g).commit = s.commit := by
  unfold drainEnd
  split <;> simp

@[simp] theorem emitPantry_commit (s : State) (p : Pid) (g : Fin 4) (rows : List (Nat × List Byte)) :
    (emitPantry s p g rows).2.commit = s.commit := by
  unfold emitPantry
  refine foldl_snd_commit (fun r e => ?_) _ _
  exact writeRange_commit ..

@[simp] theorem emitMerge_commit (s : State) (p : Pid) (g : Fin 4) (d : PassDesc) (rows : List (Nat × List Byte)) :
    (emitMerge s p g d rows).commit = s.commit := by
  unfold emitMerge
  split <;> simp

@[simp] theorem emitRim_commit (s : State) (p : Pid) (d : PassDesc) (vals : List (List W32)) :
    (emitRim s p d vals).commit = s.commit := by simp [emitRim]

@[simp] theorem emitAll_commit (s : State) (p : Pid) (g : Fin 4) (d : PassDesc) (w : Win) :
    (emitAll s p g d w).2.commit = s.commit := by
  unfold emitAll
  dsimp only
  repeat' split
  all_goals simp

@[simp] theorem emitEnd_commit (s : State) (p : Pid) (g : Fin 4) : (emitEnd s p g).commit = s.commit := by
  unfold emitEnd
  dsimp only
  repeat' split
  all_goals simp

/-! ### The ladles (Machine/Ladle.lean) -/

@[simp] theorem discardPending_commit (s : State) (p : Pid) (l : Fin 8) : (discardPending s p l).commit = s.commit := by
  unfold discardPending
  split <;> simp

@[simp] theorem dropWaiting_commit (s : State) (p : Pid) (l : Fin 8) : (dropWaiting s p l).commit = s.commit := rfl

@[simp] theorem sendCancels_commit (s : State) (p : Pid) (l : Fin 8) (xs : List Portion) :
    (sendCancels s p l xs).commit = s.commit := by simp [sendCancels]

@[simp] theorem stopLadle_commit (s : State) (p : Pid) (l : Fin 8) : (stopLadle s p l).commit = s.commit := by
  simp [stopLadle]

/-! ### The links (Machine/LinkOps.lean) -/

@[simp] theorem pump_commit (s : State) (n : Slice) : (pump s n).commit = s.commit := by simp [pump]

@[simp] theorem sendFrame_commit (s : State) (n : Slice) (c : Content) : (sendFrame s n c).commit = s.commit := by
  simp [sendFrame]

@[simp] theorem sendBundle_commit (s : State) (b : Bundle) (pos : Nat) (c : Content) :
    (sendBundle s b pos c).commit = s.commit := by
  unfold sendBundle
  split <;> simp

@[simp] theorem freePlace_commit (s : State) (n : Slice) (c : LClass) : (freePlace s n c).commit = s.commit := rfl

/-! ### The lifecycle (Machine/Life.lean) -/

@[simp] theorem changeLife_commit (s : State) (l : Life) : (changeLife s l).commit = s.commit := by simp [changeLife]

@[simp] theorem endCommand_commit (s : State) (status : Nat) : (endCommand s status).commit = s.commit := rfl

/-! ### Holding the mesh (Machine/Mesh.lean) -/

@[simp] theorem purgeQueues_commit (s : State) (t : Tab (List QFlit)) : (purgeQueues s t).1.commit = s.commit := by
  simp [purgeQueues]

@[simp] theorem purgeRouter_commit (s : State) (node : Fin 68) : (purgeRouter s node).commit = s.commit := by
  simp [purgeRouter]

@[simp] theorem meshCtl_commit (s : State) : (meshCtl s).commit = s.commit := by simp [meshCtl]

@[simp] theorem holdMesh_commit (s : State) : (holdMesh s).commit = s.commit := by
  unfold holdMesh
  dsimp only
  rw [foldl_commit (fun _ _ => countDiscard_commit ..),
    foldl_commit (fun _ _ => foldl_commit (fun _ _ => countDiscard_commit ..) _ _),
    foldl_commit purgeRouter_commit]
  simp

@[simp] theorem releaseMesh_commit (s : State) : (releaseMesh s).commit = s.commit := by simp [releaseMesh]

/-! ### Memory operations (Machine/Pantry.lean) -/

@[simp] theorem memopRun_commit (s : State) (p : Pid) (m : MemOp) : (memopRun s p m).2.commit = s.commit := by
  unfold memopRun
  dsimp only
  repeat' split
  all_goals simp

@[simp] theorem memopEnd_commit (s : State) (p : Pid) (k : Nat) : (memopEnd s p k).commit = s.commit := by
  unfold memopEnd
  split <;> simp

/-! ### Stacks and plan space (Machine/RimOps.lean) -/

@[simp] theorem raiseMc_commit (s : State) (sl : Slice) (ev : Ev) (data : Nat) :
    (raiseMc s sl ev data).commit = s.commit := by simp [raiseMc]

@[simp] theorem applyRepair_commit (s : State) (e : Repair) : (applyRepair s e).commit = s.commit := by
  simp [applyRepair]

@[simp] theorem applyRepairs_commit (s : State) : (applyRepairs s).commit = s.commit := by simp [applyRepairs]

@[simp] theorem repairRow_commit (s : State) (sl : Slice) (row : Nat) : (repairRow s sl row).commit = s.commit := by
  simp [repairRow]

@[simp] theorem stackUncorrectable_commit (s : State) (sl : Slice) (burst : Nat) (cls : EvClass) :
    (stackUncorrectable s sl burst cls).commit = s.commit := by simp [stackUncorrectable]

@[simp] theorem readStack_commit (s : State) (sl : Slice) (loc n : Nat) :
    (readStack s sl loc n).2.2.commit = s.commit := by simp [readStack]

@[simp] theorem writeStack_commit (s : State) (sl : Slice) (loc : Nat) (bs : List Byte) :
    (writeStack s sl loc bs).commit = s.commit := rfl

@[simp] theorem planRead_commit (s : State) (a n : Nat) : (planRead s a n).2.2.commit = s.commit := by simp [planRead]

@[simp] theorem planWrite_commit (s : State) (a : Nat) (bs : List Byte) : (planWrite s a bs).commit = s.commit := rfl

@[simp] theorem stewardWrite_commit (s : State) (a : Nat) (bs : List Byte) : (stewardWrite s a bs).commit = s.commit :=
  foldl_commit (fun _ _ => writeStack_commit ..) _ _

@[simp] theorem noteProgress_commit (s : State) (point : Fin 6) : (noteProgress s point).commit = s.commit := rfl

/-! ### Tasks (Machine/Sequencer.lean) -/

@[simp] theorem startTask_commit (s : State) (p : Pid) (task : Fin 16) (pc : Nat) (arg : W64) :
    (startTask s p task pc arg).2.commit = s.commit := by
  unfold startTask
  dsimp only
  repeat' split
  all_goals simp

@[simp] theorem haltAll_commit (s : State) (p : Pid) : (haltAll s p).commit = s.commit := rfl

@[simp] theorem clearLoss_commit (s : State) (p : Pid) : (clearLoss s p).commit = s.commit := rfl

/-! ### The numerics watch (Machine/Watch.lean) -/

@[simp] theorem clearIdle_commit (s : State) (p : Pid) : (clearIdle s p).commit = s.commit := rfl

@[simp] theorem clearActive_commit (s : State) (p : Pid) : (clearActive s p).commit = s.commit := rfl

@[simp] theorem clearTaps_commit (s : State) : (clearTaps s).commit = s.commit := by
  unfold clearTaps
  rw [State.modWatch_commit, foldl_commit (fun _ _ => State.modUe_commit ..), foldl_commit (fun _ _ => by simp)]

@[simp] theorem scalePoint_commit (s : State) (d : Ended) (w : Nat) : (scalePoint d s w).commit = s.commit := by
  unfold scalePoint
  dsimp only
  repeat' split
  all_goals simp

@[simp] theorem localRun_commit (s : State) (d : Ended) (w : Nat) : (localRun d s w).commit = s.commit := by
  simp [localRun]

@[simp] theorem publishScales_commit (s : State) : (publishScales s).commit = s.commit := stewardWrite_commit ..

@[simp] theorem stepReport_commit (s : State) (d : Ended) (outcome : Nat) :
    (stepReport s d outcome).commit = s.commit := rfl

@[simp] theorem takeUeBanks_commit (s : State) (d : Ended) : (takeUeBanks s d).2.commit = s.commit :=
  foldl_commit (fun _ _ => State.modUe_commit ..) _ _

/-! ### The reduction (Machine/Reduce.lean) -/

@[simp] theorem freeHeld_commit (s : State) (sl : Slice) : (freeHeld s sl).commit = s.commit :=
  commit_of_stepView (freeHeld_stepView s sl)

@[simp] theorem resetReduction_commit (s : State) : (resetReduction s).commit = s.commit :=
  commit_of_stepView (resetReduction_stepView s)

@[simp] theorem beginStep_commit (s : State) (now : Bool) : (beginStep s now).commit = s.commit := by
  obtain ⟨r, h, -⟩ := beginStep_stepView s now
  simp only [stepView, Prod.mk.injEq] at h
  exact h.1

/-! ### The whisk (Machine/Whisk.lean) -/

@[simp] theorem whiskSlots_commit (s : State) (p : Pid) (d : WhiskDesc) : (whiskSlots s p d).commit = s.commit := by
  simp [whiskSlots]

@[simp] theorem tapBins_commit (s : State) (p : Pid) (xs : List (Nat × Nat)) : (tapBins s p xs).commit = s.commit := by
  simp [tapBins]

@[simp] theorem whiskEnd_commit (s : State) (p : Pid) : (whiskEnd s p).commit = s.commit := by
  unfold whiskEnd
  split
  · rfl
  · split
    · rfl
    · dsimp only
      split <;> simp

/-! ### The step as a whole (Machine/Runtime.lean) -/

@[simp] theorem flushGriddle_commit (s : State) (p : Pid) (g : Fin 4) : (flushGriddle p s g).commit = s.commit := by
  unfold flushGriddle
  dsimp only
  rw [doFlush_commit, State.modGr_commit, foldl_commit (by simp)]
  split
  next h => exact (passBoundary_commit h).trans (State.modGr_commit ..)
  next h => simp

@[simp] theorem clearLadle_commit (s : State) (p : Pid) (l : Fin 8) : (clearLadle p s l).commit = s.commit := by
  simp [clearLadle]

@[simp] theorem resetSlots_commit (s : State) (p : Pid) : (resetSlots s p).commit = s.commit := rfl

@[simp] theorem clearSkillet_commit (s : State) (p : Pid) : (clearSkillet s p).commit = s.commit := by
  simp [clearSkillet]

@[simp] theorem clearAll_commit (s : State) : (clearAll s).commit = s.commit := by simp [clearAll]

@[simp] theorem discardStep_commit (s : State) : (discardStep s).commit = s.commit := by
  unfold discardStep
  rw [State.modRun_commit, foldl_commit (by simp), clearTaps_commit, resetReduction_commit, clearAll_commit,
    holdMesh_commit]

@[simp] theorem startTable_commit (s : State) (es : List StartEntry) : (startTable s es).commit = s.commit := by
  refine foldl_commit (fun t e => ?_) _ _
  split
  · rfl
  · simp

@[simp] theorem applyColander_commit (s : State) : (applyColander s).commit = s.commit := by
  unfold applyColander
  split <;> simp

@[simp] theorem enterPaused_commit (s : State) : (enterPaused s).commit = s.commit := by simp [enterPaused]

@[simp] theorem stopNow_commit (s : State) : (stopNow s).commit = s.commit := by simp [stopNow]

/-! ### Phase A and U (Machine/Train.lean) -/

@[simp] theorem startEval_commit (s : State) (num : Nat) : (startEval s num).commit = s.commit := by
  unfold startEval
  dsimp only
  repeat' split
  all_goals simp

@[simp] theorem evalAfterA_commit (s : State) : (evalAfterA s).commit = s.commit := by
  unfold evalAfterA
  split <;> simp

@[simp] theorem sendAg_commit (s : State) (sl : Slice) (yRing : Bool) (hop origin j : Nat) (bytes : List Byte) :
    (sendAg s sl yRing hop origin j bytes).commit = s.commit := by simp [sendAg]

theorem engineRead_commit (s : State) (sl : Slice) (j a n : Nat) {act : State → List Byte → State}
    (h : ∀ t w, (act t w).commit = t.commit) : (engineRead s sl j a n act).commit = s.commit := by
  unfold engineRead
  dsimp only
  split
  · rfl
  · split <;> simp [h]

@[simp] theorem sendAgX_commit (s : State) (sl : Slice) (j : Nat) : (sendAgX s sl j).commit = s.commit :=
  engineRead_commit _ _ _ _ _ (fun _ _ => by simp)

@[simp] theorem agPump_commit (s : State) (sl : Slice) : (agPump s sl).commit = s.commit := by
  refine foldl_commit (fun t b => ?_) _ _
  dsimp only
  split
  · rfl
  · exact foldl_commit (by simp) _ _

@[simp] theorem agStart_commit (s : State) (sl : Slice) : (agStart s sl).commit = s.commit := by
  unfold agStart
  dsimp only
  rw [agPump_commit, foldl_commit (fun t j => engineRead_commit _ _ _ _ _ (fun u w => by split <;> simp))]
  simp

@[simp] theorem sendBuddy_commit (s : State) (step : Nat) (sl : Slice) (e : Nat × Nat) :
    (sendBuddy step sl s e).commit = s.commit :=
  engineRead_commit _ _ _ _ _ (fun _ _ => sendBundle_commit ..)

@[simp] theorem sendBuddyCopy_commit (s : State) (step : Nat) : (sendBuddyCopy s step).commit = s.commit := by
  simp [sendBuddyCopy]

@[simp] theorem evalAbandon_commit (s : State) : (evalAbandon s).commit = s.commit := by
  unfold evalAbandon
  split <;> simp

@[simp] theorem pauseNow_commit (s : State) : (pauseNow s).commit = s.commit := by simp [pauseNow]

@[simp] theorem finishA_commit (s : State) : (finishA s).commit = s.commit := by
  unfold finishA
  split
  · rfl
  · extract_lets t u
    have ht : t.commit = s.commit := foldl_commit (fun _ _ => State.modUe_commit ..) _ _
    have hu : u.commit = s.commit := ((evalAfterA_commit _).trans (State.modRun_commit ..)).trans ht
    clear_value u
    split
    · split
      · rw [pauseNow_commit, hu]
      · exact hu
    · exact hu

@[simp] theorem startA_commit (s : State) (step : Nat) (buddy : Bool) : (startA s step buddy).commit = s.commit := by
  simp [startA]

/-- The commit record of t is that of a. As a predicate, so that the kernel compares the states of U as they are written
and does not compute them. -/
def SameCommit (a t : State) : Prop := t.commit = a.commit

theorem SameCommit.raiseMod {a s : State} (h : SameCommit a s) (ev : Ev) (data : Nat) :
    SameCommit a (raiseMod s ev data) := (raiseMod_commit ..).trans h

theorem SameCommit.stepReport {a s : State} (h : SameCommit a s) (d : Ended) (outcome : Nat) :
    SameCommit a (stepReport s d outcome) := (stepReport_commit ..).trans h

theorem publishScales_sameCommit (s : State) (e : Ended) :
    SameCommit s (publishScales ((List.range 1024).foldl (localRun e) ((List.range 512).foldl (scalePoint e) s))) := by
  unfold SameCommit
  rw [publishScales_commit, foldl_commit (fun _ _ => localRun_commit ..), foldl_commit (fun _ _ => scalePoint_commit ..)]

theorem flipWatch_sameCommit (s : State) (e : Ended) : SameCommit s (flipWatch s e) := by
  have h := publishScales_sameCommit s e
  unfold flipWatch
  refine SameCommit.stepReport ?_ _ _
  split
  · split
    · exact h.raiseMod _ _
    · exact h
  · exact h

@[simp] theorem flipWatch_commit (s : State) (e : Ended) : (flipWatch s e).commit = s.commit := flipWatch_sameCommit s e

@[simp] theorem boundaryTaken_commit (s : State) (at' : Nat) : (boundaryTaken s at').commit = s.commit := by
  unfold boundaryTaken
  dsimp only
  split <;> simp

theorem afterFlip_commit (s : State) (e : Ended) : (afterFlip s e).commit = s.commit := by
  unfold afterFlip
  split <;> simp

/-! ### The commands of phase G and U -/

/-- UPDATE_START begins G: the pending settings of the step take effect and every engine begins (01 R27, 10 R313). -/
theorem execUpdateStart_of_ready {s : State} {e : Ended} {rest : List Ended} (he : s.run.ended = e :: rest)
    (hc : e.outcome = .commit) (hg : s.run.gRunning = false) (ha : s.run.aRunning = false) (hl : s.life.st = .running)
    (hb : s.modules = 1 ∨ s.rim.acked = true) :
    execUpdateStart s = .next (
      let t := if s.rim.applySet = true ∧ s.rim.applyStep = s.commit.step then
        { s with rim := { s.rim with optim := optimFor s, optimNext := [], applySet := false } } else s
      allSlices.foldl beginUpdate
        ({ t with rim := { t.rim with clampRaised := false } }.modRun (fun r => { r with gRunning := true }))) := by
  have hgo : (e.outcome != .commit || s.run.gRunning || s.run.aRunning || s.life.st != .running
      || !(s.modules = 1 || s.rim.acked)) = false := by
    obtain hb | hb := hb <;> simp [hc, hg, ha, hl, hb]
  simp only [execUpdateStart, he, hgo]
  by_cases hs : s.rim.applySet = true ∧ s.rim.applyStep = s.commit.step
  · simp [optimFor, hs]
  · have hs' : (s.rim.applySet && s.rim.applyStep == s.commit.step) = false := by simpa using hs
    simp [hs, hs']

/-- An engine that deals with all its blocks and is not stopped reports completion (10 R308). -/
theorem execUeGComplete_of_goes {s : State} {sl : Slice} (hp : (s.slice sl).ue.phase = 2)
    (hd : (s.slice sl).ue.gDone = false) (hg : ((ueRun s sl (engineBlocks s sl).length).slice sl).ue.goes = true) :
    execUeGComplete sl s = .next ((ueRun s sl (engineBlocks s sl).length).modUe sl (fun u => { u with
      gDone := true, phase := 0 })) := by
  simp [execUeGComplete, hp, hd, hg]

/-- STEP_FLIP with a boundary waiting and nothing left of G: but for the flip itself the commit record stays. -/
theorem execStepFlip_of_ready {s : State} {e : Ended} {rest : List Ended} {b : Nat} (he : s.run.ended = e :: rest)
    (hb : s.run.boundary = some b) (hl : s.life.st = .running)
    (hg : e.outcome ≠ .commit ∨ (s.run.gRunning = true ∧ allSlices.all (fun sl => (s.slice sl).ue.gDone) = true)) :
    ∃ (u : State) (d : Ended) (t : State), u.commit = s.commit ∧ d.outcome = e.outcome
      ∧ execStepFlip s = .next t ∧ t.commit = (flip u d).commit := by
  have hgo : (s.life.st != .running || !(e.outcome != .commit
      || (s.run.gRunning && allSlices.all (fun sl => (s.slice sl).ue.gDone)))) = false := by
    obtain h | ⟨h, k⟩ := hg
    · simp [hl, h]
    · simp [hl, h, k]
  exact ⟨(takeUeBanks (boundaryTaken s b) e).2, (takeUeBanks (boundaryTaken s b) e).1, _,
    (takeUeBanks_commit ..).trans (boundaryTaken_commit ..), rfl, by simp only [execStepFlip, he, hb, hgo]; rfl,
    by rw [afterFlip_commit, State.modRun_commit, flipWatch_commit]⟩

end Sys2Proof.Machine

namespace Sys2Proof

open Sys2Proof.Machine

/-- Settles O18: what goes before and after the flip leaves the commit record, so that STEP_FLIP does to it what the flip
does. -/
theorem updateCompletes : Obligations.UpdateCompletes := by
  refine ⟨fun _ _ _ => execUpdateStart_of_ready, fun _ _ => execUeGComplete_of_goes, ?commit, ?skip⟩
  case commit =>
    intro s e rest b he hb hl _ hc hg hd
    obtain ⟨u, d, t, hu, ho, hx, ht⟩ := execStepFlip_of_ready he hb hl (.inr ⟨hg, hd⟩)
    rw [flip_of_commit u (ho.trans hc), hu] at ht
    exact ⟨t, hx, ht⟩
  case skip =>
    intro s e rest b he hb hl hc
    obtain ⟨u, d, t, hu, ho, hx, ht⟩ := execStepFlip_of_ready he hb hl (.inl hc)
    rw [flip_of_ne_commit u (ho ▸ hc), hu] at ht
    exact ⟨t, hx, congrArg Commit.step ht, congrArg Commit.ptr ht⟩

end Sys2Proof
end

section
/-! PROOFS. The beat input (02 R47, R49, R50, R538): what each edge, level and missing edge leaves, and the beats of the
oscillator (R53). -/

namespace Sys2Proof.Machine

/-! ### Edges of the selected source (02 R49) -/

theorem edge_of_early {s : State} {ps : Nat} (d : Nat) (hr : s.time.train.hasRef = true) (h : ps < 500000) :
    edge s ps d = some (false, anomaly (s.modTime (fun t => { t with early := sat32 t.early 1 }))) := by
  have hc : classify s.time ps = .early := by simp [classify, hr, h]
  simp only [edge, hc]

theorem edge_of_short {s : State} {ps : Nat} (d : Nat) (hr : s.time.train.hasRef = true) (hlo : 500000 ≤ ps)
    (hhi : ps < 900000) :
    edge s ps d = some (false, anomaly (s.modTime (fun t => { t with short := sat32 t.short 1 }))) := by
  have hc : classify s.time ps = .short := by simp [classify, hr, Nat.not_lt.mpr hlo, hhi]
  simp only [edge, hc]

theorem not_follows_and_beatDue {s : State} (h : s.time.follows = true → s.beatDue = false) :
    ¬ (s.time.follows && s.beatDue) = true := by
  cases hf : s.time.follows with
  | false => simp
  | true => simp [h hf]

theorem edge_of_accepted {s : State} {ps : Nat} (d : Nat) (hr : s.time.train.hasRef = true) (hlo : 900000 ≤ ps)
    (hhi : ps ≤ 1100000) (hd : s.time.follows = true → s.beatDue = false) :
    edge s ps d = some (true, trainBeat (s.modTime (fun t => { t with
      train := { t.train with missed := 0, run := t.train.run + 1 },
      periods := (t.periods ++ [ps]).drop (t.periods.length + 1 - 16) })) d) := by
  have hc : classify s.time ps = .accepted := by
    simp [classify, hr, Nat.not_lt.mpr hlo, Nat.not_lt.mpr (Nat.le_trans (by decide : 500000 ≤ 900000) hlo), hhi]
  simp only [edge, hc]
  exact if_neg (not_follows_and_beatDue hd)

/-- The first edge of a train is its reference (02 R538). -/
theorem edge_of_reference {s : State} (ps d : Nat) (hr : s.time.train.hasRef = false)
    (hd : s.time.follows = true → s.beatDue = false) :
    edge s ps d = some (false, trainBeat (s.modTime (fun t => { t with
      train := { hasRef := true, missed := 0, run := 0 } })) d) := by
  have hc : classify s.time ps = .reference := by simp [classify, hr]
  simp only [edge, hc]
  exact if_neg (not_follows_and_beatDue hd)

/-- A rise on source 0 is an edge, after which the level is high. -/
theorem execSyncInRise_of_edge {s t : State} {ps d : Nat} {accepted : Bool} (hl : s.time.syncHigh = false)
    (hp : s.powered = true) (hs : s.time.source = 0) (he : edge s ps d = some (accepted, t)) :
    execSyncInRise ps d s = .next (t.modTime (fun x => { x with
      syncHigh := true, highAccepted := accepted, wideSeen := false, stuckSeen := false })) := by
  simp [execSyncInRise, hl, hp, hs, he]

/-- The beat symbol of the selected live port is an edge (02 R58). -/
theorem execBeatSymbolReceived_of_edge {s t : State} {port : Slice} {ps d : Nat} {accepted : Bool}
    (hs : s.time.source = 1) (hn : s.time.linkPort = port.val) (hp : port ∈ livePorts s)
    (he : edge s ps d = some (accepted, t)) : execBeatSymbolReceived port ps d s = .next t := by
  simp [execBeatSymbolReceived, hs, hn, hp, he]

/-! ### The level and missing edges (02 R49, R538) -/

theorem execSyncInFall_of_high {s : State} (ns : Nat) (hp : s.powered = true) (hl : s.time.syncHigh = true) :
    execSyncInFall ns s = .next (s.modTime (fun t => { t with
      syncHigh := false, highAccepted := false, wideSeen := false, stuckSeen := false })) := by
  simp [execSyncInFall, hp, hl]

theorem execSyncInFall_of_glitch {s : State} {ns : Nat} (hp : s.powered = true) (hl : s.time.syncHigh = false)
    (hn : ns < 50) (hs : s.time.source = 0) :
    execSyncInFall ns s = .next (anomaly (s.modTime (fun t => { t with glitch := sat32 t.glitch 1 }))) := by
  simp [execSyncInFall, hp, hl, hn, hs]

theorem execLate_of_train {s : State} (hp : s.powered = true) (hs : s.time.source ≠ 2)
    (ht : s.time.train.hasRef = true ∨ s.time.train.fly = true) (hd : s.time.follows = true → s.beatDue = false) :
    execLate s = .next (
      let t := anomaly (s.modTime (fun t => { t with
        late := sat32 t.late 1, train := { t.train with missed := t.train.missed + 1, run := 0 } }))
      if s.time.follows = true ∧ s.time.handover = false then countBeat t else t) := by
  have ht' : (s.time.train.hasRef || s.time.train.fly) = true := by simpa using ht
  have hgo : (s.time.source = 2 || !(s.time.train.hasRef || s.time.train.fly) || !s.powered
      || (s.time.follows && s.beatDue)) = false := by
    simp [hs, ht', hp, Bool.eq_false_of_not_eq_true (not_follows_and_beatDue hd)]
  simp only [execLate, hgo]
  simp

theorem execWide_of_accepted {s : State} (hl : s.time.syncHigh = true) (ha : s.time.highAccepted = true)
    (hw : s.time.wideSeen = false) (hs : s.time.source = 0) :
    execWide s = .next (anomaly (s.modTime (fun t => { t with wide := sat32 t.wide 1, wideSeen := true }))) := by
  simp [execWide, hl, ha, hw, hs]

theorem execStuck_of_high {s : State} (hl : s.time.syncHigh = true) (hk : s.time.stuckSeen = false)
    (hs : s.time.source = 0) :
    execStuck s = .next (anomaly (s.modTime (fun t => { t with stuck := sat32 t.stuck 1, stuckSeen := true }))) := by
  simp [execStuck, hl, hk, hs]

theorem execTrainRestart_of_missed {s : State} (hm : 16 ≤ s.time.train.missed) (hf : s.time.follows = false)
    (hs : s.time.source ≠ 2) :
    execTrainRestart s = .next (s.modTime (fun t => { t with train := { fly := true } })) := by
  simp [execTrainRestart, hm, hf, hs]
  rfl

/-! ### Beats of the oscillator (02 R50, R53) -/

/-- An oscillator beat that is taken: HOLDOVER's count, the steering, and the counted beat. -/
theorem execOscillatorBeat_of_runs {s : State}
    (hr : s.time.source = 2 ∨ s.time.follows = false ∨ s.time.handover = true) (hp : s.powered = true)
    (hd : s.beatDue = false) (ht : s.time.steer = false) :
    execOscillatorBeat s = .next (countBeat (s.modTime (fun t => { t with
      holdoverBeats := if t.lock = .holdover then t.holdoverBeats + 1 else t.holdoverBeats
      slewOffset := if t.lock = .slewing then
          if 16 < t.slewOffset then t.slewOffset - 16 else if t.slewOffset < -16 then t.slewOffset + 16 else 0
        else t.slewOffset }))) := by
  have hgo : (!(s.time.source = 2 || !s.time.follows || s.time.handover) || !s.powered || s.beatDue) = false := by
    obtain h | h | h := hr <;> simp [h, hp, hd]
  simp only [execOscillatorBeat, hgo]
  by_cases hl : s.time.lock = .slewing <;> simp [State.modTime, ht, hl]

theorem execOscillatorBeat_of_free {s : State}
    (hr : s.time.source = 2 ∨ s.time.follows = false ∨ s.time.handover = true) (hp : s.powered = true)
    (hd : s.beatDue = false) (hl : s.time.lock ≠ .slewing) (ht : s.time.steer = false) :
    execOscillatorBeat s = .next (countBeat (s.modTime (fun t => { t with
      holdoverBeats := if t.lock = .holdover then t.holdoverBeats + 1 else t.holdoverBeats }))) := by
  rw [execOscillatorBeat_of_runs hr hp hd ht]
  simp [State.modTime, hl]

theorem execOscillatorBeat_of_slewing {s : State}
    (hr : s.time.source = 2 ∨ s.time.follows = false ∨ s.time.handover = true) (hp : s.powered = true)
    (hd : s.beatDue = false) (hl : s.time.lock = .slewing) (ht : s.time.steer = false) :
    execOscillatorBeat s = .next (countBeat (s.modTime (fun t => { t with
      slewOffset := if 16 < t.slewOffset then t.slewOffset - 16
        else if t.slewOffset < -16 then t.slewOffset + 16 else 0 }))) := by
  rw [execOscillatorBeat_of_runs hr hp hd ht]
  simp [State.modTime, hl]

end Sys2Proof.Machine

namespace Sys2Proof

open Sys2Proof.Machine

/-- Settles O9: an edge by its class, and each other command by its lemma above. -/
theorem beatInputComplete : Obligations.BeatInputComplete := by
  refine ⟨?early, ?short, ?accepted, ?reference, fun _ => execSyncInFall_of_high,
    fun _ _ => execSyncInFall_of_glitch, fun _ => execLate_of_train, fun _ => execWide_of_accepted,
    fun _ => execStuck_of_high, fun _ => execOscillatorBeat_of_free, fun _ => execOscillatorBeat_of_slewing,
    fun _ => execTrainRestart_of_missed, ?symbol⟩
  case early => exact fun _ _ d hl hp hs hr h => execSyncInRise_of_edge hl hp hs (edge_of_early d hr h)
  case short => exact fun _ _ d hl hp hs hr hlo hhi => execSyncInRise_of_edge hl hp hs (edge_of_short d hr hlo hhi)
  case accepted =>
    exact fun _ _ d hl hp hs hr hlo hhi hd => execSyncInRise_of_edge hl hp hs (edge_of_accepted d hr hlo hhi hd)
  case reference =>
    exact fun _ ps d hl hp hs hr hd => execSyncInRise_of_edge hl hp hs (edge_of_reference ps d hr hd)
  case symbol =>
    exact fun _ _ _ d hs hn hp hr hlo hhi hd =>
      execBeatSymbolReceived_of_edge hs hn hp (edge_of_accepted d hr hlo hhi hd)

end Sys2Proof
end

section
/-! PROOFS. A counted beat (02 R47, R56, R58): what it writes of cluster time, and what the stamps that it may send and
the change to READY that it may bring leave. -/

namespace Sys2Proof.Machine

/-! ### What a frame sent on a link leaves -/

/-- A state without its links and its counter of free values: all that a frame sent on a port leaves. -/
def unlinked (s : State) : State := { s with links := {}, free := 0 }

theorem modPort_unlinked (s : State) (n : Slice) (f : Port → Port) : unlinked (s.modPort n f) = unlinked s := rfl

theorem pump_unlinked (s : State) (n : Slice) : unlinked (pump s n) = unlinked s := by
  unfold pump
  dsimp only
  split
  · rfl
  · rfl

theorem sendFrame_unlinked (s : State) (n : Slice) (c : Content) : unlinked (sendFrame s n c) = unlinked s := by
  unfold sendFrame
  split
  · exact (pump_unlinked _ n).trans (modPort_unlinked s n _)
  · rfl

/-- The stamps leave all but the links (02 R58). -/
theorem sendStamps_unlinked (s : State) : unlinked (sendStamps s) = unlinked s := by
  unfold sendStamps
  split
  · exact foldl_keeps unlinked (fun t n => sendFrame_unlinked t n _) _ s
  · rfl

@[simp] theorem sendStamps_time (s : State) : (sendStamps s).time = s.time :=
  (congrArg State.time (sendStamps_unlinked s) :)

@[simp] theorem sendStamps_life (s : State) : (sendStamps s).life = s.life :=
  (congrArg State.life (sendStamps_unlinked s) :)

/-! ### What a change of the lifecycle state leaves -/

/-- Cluster time but for FRAC, the commit record, the skillets and the reduction: what an event leaves. -/
def beatView (s : State) : TimeSt × Commit × Vector Skillet 64 × RedSt :=
  ({ s.time with frac := 0 }, s.commit, s.sks, s.red)

theorem beatView_of_unlinked {s t : State} (h : unlinked s = unlinked t) : beatView s = beatView t :=
  (congrArg beatView h :)

theorem sendCobalt_beatView (s : State) (kind : CobaltKind) (src dest arg : Nat) (beats : List Nat)
    (rec : Option EventRec) : beatView (sendCobalt s kind src dest arg beats rec) = beatView s := by
  unfold sendCobalt countSent
  split
  · rfl
  · split <;> rfl

theorem raiseMod_beatView (s : State) (ev : Ev) (data : Nat) : beatView (raiseMod s ev data) = beatView s :=
  sendCobalt_beatView (passFrac s) ..

theorem changeLife_beatView (s : State) (l : Life) : beatView (changeLife s l) = beatView s := by
  unfold changeLife
  dsimp only
  split
  · rfl
  · exact raiseMod_beatView { s with life := { s.life with st := l } } _ _

/-- The change from JOINED to READY (02 R57). -/
theorem lockedReady_beatView (s : State) : beatView (lockedReady s) = beatView s := by
  unfold lockedReady
  split
  · exact changeLife_beatView s .ready
  · rfl

theorem lockedReady_of_ne_joined {s : State} (h : s.life.st ≠ .joined) : lockedReady s = s := by
  simp [lockedReady, h]

/-! ### The counted beat -/

/-- Cluster time at a counted beat (02 R47, R56), before a change to READY. -/
def beatTime (s : State) : TimeSt :=
  { (match s.time.pendingLoad with
    | some v => if s.anyArmed then { s.time with count := (s.time.count + 1) % 2 ^ 64, pendingLoad := some (v + 1) }
      else applyLoad s.time v
    | none => { s.time with count := (s.time.count + 1) % 2 ^ 64 }) with frac := 0, ticks := s.time.ticks + 1 }

/-- COUNT, the waiting count, the ticks and FRAC of that time, by the count that waits. -/
theorem beatTime_fields (s : State) :
    (beatTime s).count =
      (match s.time.pendingLoad with
       | some v => if s.anyArmed then (s.time.count + 1) % 2 ^ 64 else v % 2 ^ 64
       | none => (s.time.count + 1) % 2 ^ 64)
    ∧ (beatTime s).pendingLoad = (match s.time.pendingLoad with
       | some v => if s.anyArmed then some (v + 1) else none
       | none => none)
    ∧ (beatTime s).ticks = s.time.ticks + 1 ∧ (beatTime s).frac = 0 := by
  cases hw : s.time.pendingLoad with
  | none => simp [beatTime, hw]
  | some v => cases ha : s.anyArmed <;> simp [beatTime, hw, ha, applyLoad]

/-- A counted beat is that time, the stamps, and where it may come the change to READY. -/
theorem countBeat_eq (s : State) : countBeat s = lockedReady (sendStamps { s with time := beatTime s }) := by
  unfold countBeat beatTime
  cases hw : s.time.pendingLoad with
  | none => simp [State.modTime, hw]
  | some v => cases ha : s.anyArmed <;> simp [State.modTime, hw, applyLoad]

theorem countBeat_beatView (s : State) : beatView (countBeat s) = (beatTime s, s.commit, s.sks, s.red) := by
  rw [countBeat_eq, lockedReady_beatView, beatView_of_unlinked (sendStamps_unlinked _)]
  rfl

theorem countBeat_time_of_ne_joined {s : State} (h : s.life.st ≠ .joined) : (countBeat s).time = beatTime s := by
  rw [countBeat_eq, lockedReady_of_ne_joined (by simpa using h), sendStamps_time]

end Sys2Proof.Machine

namespace Sys2Proof

open Sys2Proof.Machine

/-- Settles O10: the fields of the time that a counted beat writes; the stamps and the change to READY leave them, but for
FRAC after an event. -/
theorem countedBeatMovesTheCount : Obligations.CountedBeatMovesTheCount := by
  intro s
  obtain ⟨hcount, hpending, hticks, hfrac⟩ := beatTime_fields s
  have hview := countBeat_beatView s
  simp only [beatView, Prod.mk.injEq] at hview
  obtain ⟨htime, hcommit, hsks, hred⟩ := hview
  refine ⟨?count, ?frac, ?pending, ?ticks, hcommit, hsks, hred⟩
  case count => exact (congrArg TimeSt.count htime).trans hcount
  case frac =>
    intro h
    rw [countBeat_time_of_ne_joined h, hfrac]
  case pending => exact (congrArg TimeSt.pendingLoad htime).trans hpending
  case ticks => exact (congrArg TimeSt.ticks htime).trans hticks

end Sys2Proof
end

section
/-! PROOFS. The lock states (02 R50-R54): what each command that enters one leaves. -/

namespace Sys2Proof.Machine

theorem execHoldoverEntry_of_anomalies {s : State}
    (ha : 16 ≤ (s.time.anomalies.filter (fun a => s.time.ticks < a + 1000)).length) (hs : s.time.source ≠ 2)
    (hf : s.time.follows = true ∨ s.time.lock = .slewing) : execHoldoverEntry s = .next (enterHoldover s) := by
  simp [execHoldoverEntry, ha, hs, hf]

theorem execLockingEntry_of_run {s : State} (hl : s.time.lock = .unlocked) (hs : s.time.source ≠ 2)
    (hr : 64 ≤ s.time.train.run) :
    execLockingEntry s = .next (setLock (s.modTime (fun t => { t with handover := true }))
      (if s.time.valid then .locked else .locking)) := by
  simp [execLockingEntry, hl, hs, hr]

/-- HOLDOVER with 256 accepted beats and the reference known: the whole beats of the offset and the nearest edge are its
offset, which is slewed away or too large (02 R51-R54). -/
theorem execSlewingEntry_of_known {s : State} {d off : Int} (hl : s.time.lock = .holdover) (hs : s.time.source ≠ 2)
    (hr : 256 ≤ s.time.train.run) (ho : s.time.refOffset = some off) (hlo : -512 < d) (hhi : d ≤ 512) :
    execSlewingEntry d s = .next (
      let total : Int := (off + 512) / 1024 * 1024 + d
      if 2048 * 1024 < total.natAbs ∧ s.time.refLoaded = false then timeSplit s total.natAbs
      else s.modTime (fun t => { t with
        lock := .slewing, slewOffset := total, refOffset := none, awaitStamp := false, awaitLoad := false,
        anomalies := [] })) := by
  have hgo : (!(s.time.lock == .holdover && s.time.source != 2 && 256 ≤ s.time.train.run
      && (s.time.refOffset.isSome || !(s.time.awaitStamp || s.time.awaitLoad || 400000 < s.time.holdoverBeats)))
      || d ≤ -512 || 512 < d) = false := by
    simp [hl, hs, hr, ho, hlo, hhi]
  simp only [execSlewingEntry, hgo]
  simp [ho, apply_ite Host.Outcome.next]

theorem execSlewEnd_of_small {s : State} (hl : s.time.lock = .slewing) (ho : s.time.slewOffset.natAbs ≤ 8) :
    execSlewEnd s = .next (raiseMod (setLock (s.modTime (fun t => { t with slewOffset := 0, refLoaded := false })) .locked)
      .beatRelocked 0) := by
  simp [execSlewEnd, hl, ho]

/-- A HOLDOVER that has just passed 400,000 beats (02 R52): a reference that CBC_LOAD gave or must give stays so. -/
theorem execHoldoverLong_of_beats {s : State} (hl : s.time.lock = .holdover) (hb : 400000 < s.time.holdoverBeats)
    (hn : s.time.longSeen = false) :
    execHoldoverLong s = .next (raiseMod (s.modTime (fun t => if t.awaitLoad || t.refLoaded then { t with longSeen := true }
      else { t with longSeen := true, awaitStamp := true, refOffset := none })) .holdoverLong 0) := by
  simp [execHoldoverLong, hl, hb, hn]

theorem execHoldoverLong_of_unloaded {s : State} (hl : s.time.lock = .holdover) (hb : 400000 < s.time.holdoverBeats)
    (hn : s.time.longSeen = false) (ha : s.time.awaitLoad = false) (hr : s.time.refLoaded = false) :
    execHoldoverLong s = .next (raiseMod (s.modTime (fun t => { t with
      longSeen := true, awaitStamp := true, refOffset := none })) .holdoverLong 0) := by
  rw [execHoldoverLong_of_beats hl hb hn]
  simp [State.modTime, ha, hr]

theorem execHoldoverLong_of_loaded {s : State} (hl : s.time.lock = .holdover) (hb : 400000 < s.time.holdoverBeats)
    (hn : s.time.longSeen = false) (hr : s.time.awaitLoad = true ∨ s.time.refLoaded = true) :
    execHoldoverLong s = .next (raiseMod (s.modTime (fun t => { t with longSeen := true })) .holdoverLong 0) := by
  rw [execHoldoverLong_of_beats hl hb hn]
  simp [State.modTime, hr]

end Sys2Proof.Machine

namespace Sys2Proof

open Sys2Proof.Machine

/-- Settles O11, by the lemma of each command above. That the anomaly window is empty in SLEWING is the model's choice
(notes/assumptions/60). -/
theorem lockStatesComplete : Obligations.LockStatesComplete :=
  ⟨fun _ => execHoldoverEntry_of_anomalies, fun _ => execLockingEntry_of_run, fun _ _ _ => execSlewingEntry_of_known,
    fun _ => execSlewEnd_of_small, fun _ => execHoldoverLong_of_unloaded, fun _ => execHoldoverLong_of_loaded⟩

end Sys2Proof
end

section
/-! PROOFS. The writes of cluster time (02 R54, R56, R59, R61, R66): what each entry's own check answers, from which the
common checks make the answer of the write. -/

namespace Sys2Proof.Machine

@[simp] theorem countFrame_anyArmed (s : State) (r : Req) : (countFrame s r).anyArmed = s.anyArmed := by
  simp [State.anyArmed]

@[simp] theorem countFrame_runningOrPaused (s : State) (r : Req) :
    (countFrame s r).runningOrPaused = s.runningOrPaused := by
  simp [State.runningOrPaused]

@[simp] theorem countFrame_armStatus (s : State) (r : Req) (i : Fin 64) (e : SchedEntry) :
    armStatus (countFrame s r) i e = armStatus s i e := by
  simp [armStatus]

@[simp] theorem countFrame_loadOffset (s : State) (r : Req) (v : Nat) : loadOffset (countFrame s r) v = loadOffset s v := by
  simp [loadOffset]

/-! ### The count's load (02 R54, R56) -/

/-- The reference of a HOLDOVER that awaits one. -/
theorem wCbcLoad_of_awaits {s : State} (r : Req) (h : s.time.awaits = true) :
    wCbcLoad r s = (0, setValid (s.modTime (fun t => { t with
      refOffset := some (loadOffset s (reqNat r)), refLoaded := true, awaitLoad := false, awaitStamp := false }))) := by
  simp [wCbcLoad, h]

theorem wCbcLoad_of_not_valid {s : State} (r : Req) (hw : s.time.awaits = false) (hl : loadState s.life.st = true)
    (ha : s.anyArmed = false) (hv : s.time.valid = false) :
    wCbcLoad r s = (0, setValid (s.modTime (fun t => { t with pendingLoad := some (reqNat r) }))) := by
  simp [wCbcLoad, hw, hl, ha, hv]

theorem wCbcLoad_of_not_below {s : State} {r : Req} (hw : s.time.awaits = false) (hl : loadState s.life.st = true)
    (ha : s.anyArmed = false) (hv : s.time.valid = true) (hc : s.time.count ≤ reqNat r) :
    wCbcLoad r s = (0, s.modTime (fun t => { t with pendingLoad := some (reqNat r) })) := by
  simp [wCbcLoad, hw, hl, ha, hv, hc]

/-! ### The beat source and its port (02 R59) -/

theorem wBeatSource_of_changed {s : State} {r : Req} (hv : reqNat r ≤ 2) (hl : s.runningOrPaused = false)
    (hn : reqNat r ≠ s.time.source) :
    wBeatSource r s = (0, restartSource (s.modTime (fun t => { t with source := reqNat r }))) := by
  simp [wBeatSource, Nat.not_lt.mpr hv, hl, hn]

theorem wBeatLinkPort_of_unselected {s : State} {r : Req} (hv : reqNat r ≤ 31) (hl : s.runningOrPaused = false)
    (hn : reqNat r ≠ s.time.linkPort) (hs : s.time.source ≠ 1) :
    wBeatLinkPort r s = (0, s.modTime (fun t => { t with linkPort := reqNat r })) := by
  simp [wBeatLinkPort, Nat.not_lt.mpr hv, hl, hn, hs]

/-! ### Scheduled entries (02 R61, R62) -/

theorem wSchedEntry_of_unarmed {s : State} {i : Fin 64} {r : Req} (ho : (vget s.sched.entries i).arm = false)
    (hn : (schedOf (leNat r.value)).arm = false) (hk : (schedOf (leNat r.value)).kind ≤ 4) :
    wSchedEntry i r s = (0, s.modSched (fun c => { c with entries := vset c.entries i (schedOf (leNat r.value)) })) := by
  simp [wSchedEntry, ho, hn, Nat.not_lt.mpr hk]

theorem wSchedEntry_of_armed {s : State} {i : Fin 64} {r : Req} (ho : (vget s.sched.entries i).arm = false)
    (hn : (schedOf (leNat r.value)).arm = true) (ha : armStatus s i (schedOf (leNat r.value)) = 0) :
    wSchedEntry i r s = (0, s.modSched (fun c => { c with
      entries := vset c.entries i { schedOf (leNat r.value) with state := .armed } })) := by
  simp [wSchedEntry, ho, hn, ha]

end Sys2Proof.Machine

namespace Sys2Proof

open Sys2Proof.Machine

/-- Settles O12: each write passes the common checks, and its entry accepts it on the state with the frame counted, which
keeps cluster time, the schedule and the lifecycle. -/
theorem timeWritesComplete : Obligations.TimeWritesComplete := by
  refine ⟨?notValid, ?notBelow, ?awaits, ?source, ?port, ?unarmed, ?armed, ?mark⟩
  case notValid =>
    intro s r x h hw hl ha hv
    exact congrArg _ (serveWrite_accepted h
      (wCbcLoad_of_not_valid r (by simpa using hw) (by simpa using hl) (by simpa using ha) (by simpa using hv)))
  case notBelow =>
    intro s r x h hw hl ha hv hc
    exact congrArg _ (serveWrite_accepted h
      (wCbcLoad_of_not_below (by simpa using hw) (by simpa using hl) (by simpa using ha) (by simpa using hv)
        (by simpa using hc)))
  case awaits =>
    intro s r x h hw
    have ha := wCbcLoad_of_awaits (s := countFrame s r) r (by simpa using hw)
    rw [countFrame_loadOffset] at ha
    exact congrArg _ (serveWrite_accepted h ha)
  case source =>
    intro s r x h hv hl hn
    exact congrArg _ (serveWrite_accepted h (wBeatSource_of_changed hv (by simpa using hl) (by simpa using hn)))
  case port =>
    intro s r x h hv hl hn hs
    exact congrArg _ (serveWrite_accepted h
      (wBeatLinkPort_of_unselected hv (by simpa using hl) (by simpa using hn) (by simpa using hs)))
  case unarmed =>
    intro s i r x h ho hn hk
    exact congrArg _ (serveWrite_accepted h (wSchedEntry_of_unarmed (by simpa using ho) hn hk))
  case armed =>
    intro s i r x h ho hn ha
    exact congrArg _ (serveWrite_accepted h (wSchedEntry_of_armed (by simpa using ho) hn (by simpa using ha)))
  case mark =>
    intro s r x h
    exact congrArg _ (serveWrite_accepted h rfl)

end Sys2Proof
end

section
/-! PROOFS. Windows, scheduled entries, stamps and step markers (02 R55, R58, R63-R66). -/

namespace Sys2Proof.Machine

/-! ### Windows and scheduled entries (02 R63-R65) -/

theorem execWindowClose_of_ended {s : State} {i : Fin 64}
    (h : s.sched.windows.any (fun w => w.entry = i.val && w.close ≤ s.time.count) = true) :
    execWindowClose i s = .next (capMoved (s.modSched (fun c => { c with
      windows := c.windows.filter (fun w => !(w.entry = i.val && w.close ≤ s.time.count)) }))) :=
  if_pos h

/-- A boundary of a running job waits for U (02 R64). -/
theorem boundaryDue_of_none {s : State} (i : Fin 64) (at' : Nat) (hl : s.commit.loaded = true)
    (hr : s.life.st = .running) (hb : s.run.boundary = none) :
    boundaryDue s i at' = (s.modSched (fun c => { c with
        entries := vmod c.entries i (fun e => e.fired false) })).modRun (fun r => { r with boundary := some at' }) := by
  simp [boundaryDue, hl, hr, hb]

/-- A boundary that finds one waiting is merged into it (02 R65). -/
theorem boundaryDue_of_some {s : State} (i : Fin 64) (at' : Nat) {b : Nat} (hl : s.commit.loaded = true)
    (hr : s.life.st = .running) (hb : s.run.boundary = some b) :
    boundaryDue s i at' = raiseMod ((s.modSched (fun c => { c with
        entries := vmod c.entries i (fun e => e.fired true) })).modSched (fun c => { c with
        boundariesMerged := sat32 c.boundariesMerged 1 })) .boundaryMerged (names [s.commit.step]) := by
  simp [boundaryDue, hl, hr, hb]

/-- The entry that fires next, by its KIND (02 R63). -/
theorem execSchedEntryFire_of_boundary {s : State} {i : Fin 64} (hd : nextDue s = some i)
    (hk : (vget s.sched.entries i).kind = 1) :
    execSchedEntryFire i s = .next (boundaryDue s i (vget s.sched.entries i).fireAt) := by
  simp [execSchedEntryFire, hd, hk]

theorem execSchedEntryFire_of_evalWindow {s : State} {i : Fin 64} (hd : nextDue s = some i)
    (hk : (vget s.sched.entries i).kind = 2) :
    execSchedEntryFire i s = .next (openEval ((s.modSched (fun c => { c with
        entries := vmod c.entries i (fun e => e.fired false) })).modSched (fun c => { c with
        windows := c.windows ++ [⟨i.val, (vget s.sched.entries i).fireAt + 64 * (vget s.sched.entries i).length, 2,
          (vget s.sched.entries i).arg⟩] })) (vget s.sched.entries i).arg) := by
  simp [execSchedEntryFire, hd, hk]

theorem execSchedEntryFire_of_capWindow {s : State} {i : Fin 64} (hd : nextDue s = some i)
    (hk : (vget s.sched.entries i).kind = 3) :
    execSchedEntryFire i s = .next (capMoved ((s.modSched (fun c => { c with
        entries := vmod c.entries i (fun e => e.fired false) })).modSched (fun c => { c with
        windows := c.windows ++ [⟨i.val, (vget s.sched.entries i).fireAt + 64 * (vget s.sched.entries i).length, 3,
          (vget s.sched.entries i).arg⟩] }))) := by
  simp [execSchedEntryFire, hd, hk]

theorem execSchedEntryFire_of_deadline {s : State} {i : Fin 64} (hd : nextDue s = some i)
    (hk : (vget s.sched.entries i).kind = 4) :
    execSchedEntryFire i s = .next (
      let t := s.modSched (fun c => { c with entries := vmod c.entries i (fun e => e.fired false) })
      if s.rim.acked || s.modules = 1 || !s.commit.loaded then t
      else raiseMod t .buddyLate (names [s.commit.step])) := by
  have hgo : (nextDue s != some i) = false := by simp [hd]
  simp only [execSchedEntryFire, hgo, hk]
  rfl

/-! ### Stamps (02 R55, R58) -/

@[simp] theorem dropLanded_time (s : State) (port : Slice) (k : Nat) : (dropLanded s port k).time = s.time := by
  unfold dropLanded
  split <;> rfl

/-- Taking a frame out of a landing store leaves the round trip that training measured. -/
@[simp] theorem dropLanded_rtt (s : State) (port : Slice) (k : Nat) :
    ((dropLanded s port k).port port).rtt = (s.port port).rtt := by
  unfold dropLanded freePlace
  split <;> simp

@[simp] theorem stampCount_dropLanded (s : State) (port : Slice) (k n : Nat) :
    stampCount (dropLanded s port k) port n = stampCount s port n := by
  simp [stampCount]

/-- A stamp of a LOCKED neighbour confirms a count that is not valid (02 R55). -/
theorem execStampReceived_of_not_valid {s : State} {port : Slice} {k : Nat} {c : Content}
    (h : landedNeighbour s port k 3 = some c) (hl : (c.bytes.drop 8).headD 0 = 2#8) (hn : (c.bytes.drop 9).headD 0 = 1#8)
    (hv : s.time.valid = false) (hs : s.time.source ≠ 2) :
    execStampReceived port k s = .next (setValid ((dropLanded s port k).modTime (fun t => { t with
      pendingLoad := some (stampCount s port (leNat (c.bytes.take 8)) + 1) }))) := by
  simp only [execStampReceived, h, hl, hn]
  simp [hv, hs]

/-! ### Step markers (02 R66) -/

theorem execStepMarkRise_of_low {s : State} (hm : s.sched.markHigh = false) (hp : s.powered = true) :
    execStepMarkRise s = .next (
      let t := s.modSched (fun c => { c with markHigh := true, markStuckSeen := false })
      if s.sched.markSource = 1 || s.sched.markSource = 3 then applyMarker t (s.time.count + 1 + s.sched.markDelay)
      else t) := by
  have hgo : ¬ (s.sched.markHigh || !s.powered) = true := by simp [hm, hp]
  rw [execStepMarkRise, if_neg hgo]
  exact (apply_ite Host.Outcome.next ..).symm

theorem execStepMarkFall_of_qualified {s : State} {ns : Nat} (h : 50 ≤ ns) :
    execStepMarkFall ns s = .next (s.modSched (fun c => { c with markHigh := false, markStuckSeen := false })) :=
  if_neg (Nat.not_lt.mpr h)

theorem execMarkStuck_of_high {s : State} (hm : s.sched.markHigh = true) (hk : s.sched.markStuckSeen = false) :
    execMarkStuck s = .next (s.modSched (fun c => { c with
      markStuck := sat32 c.markStuck 1, markStuckSeen := true })) := by
  simp [execMarkStuck, hm, hk]

theorem execMarkerReceived_of_landed {s : State} {port : Slice} {k : Nat} {c : Content}
    (h : landedNeighbour s port k 4 = some c) :
    execMarkerReceived port k s = .next (takeMarker (dropLanded s port k) (leNat (c.bytes.take 8))
      (leNat ((c.bytes.drop 8).take 2))) := by
  simp only [execMarkerReceived, h]

end Sys2Proof.Machine

namespace Sys2Proof

open Sys2Proof.Machine

/-- Settles O15: a boundary that fires by whether one waits, and each other command by its lemma above. -/
theorem scheduleAndMarkersComplete : Obligations.ScheduleAndMarkersComplete := by
  refine ⟨fun _ _ => execWindowClose_of_ended, ?waits, ?merged, fun _ _ => execSchedEntryFire_of_evalWindow,
    fun _ _ => execSchedEntryFire_of_capWindow, fun _ _ => execSchedEntryFire_of_deadline,
    fun _ _ _ _ => execStampReceived_of_not_valid, fun _ _ _ => rfl, fun _ => execStepMarkRise_of_low,
    fun _ _ => execStepMarkFall_of_qualified, fun _ => execMarkStuck_of_high,
    fun _ _ _ _ => execMarkerReceived_of_landed⟩
  case waits =>
    intro s i hd hk hl hr hb
    exact (execSchedEntryFire_of_boundary hd hk).trans (congrArg _ (boundaryDue_of_none i _ hl hr hb))
  case merged =>
    intro s i b hd hk hl hr hb
    exact (execSchedEntryFire_of_boundary hd hk).trans (congrArg _ (boundaryDue_of_some i _ hl hr hb))

end Sys2Proof
end

section
/-! PROOFS. What an event, a skillet's load and its domain leave of the colander, and what a write leaves that its entry's
own check refuses. -/

namespace Sys2Proof.Machine

/-- A message on the cobalt network changes the mesh alone (09 R276). -/
theorem sendCobalt_eq (s : State) (kind : CobaltKind) (src dest arg : Nat) (beats : List Nat) (rec : Option EventRec) :
    ∃ m, sendCobalt s kind src dest arg beats rec = { s with mesh := m } := by
  unfold sendCobalt countSent
  split
  · exact ⟨s.mesh, rfl⟩
  · split <;> exact ⟨_, rfl⟩

/-- An event changes, beside the mesh, the fraction of the beat and the counter of free values. -/
theorem raise_eq (s : State) (node : Nat) (ev : Ev) (ploc data : Nat) :
    ∃ m, raise s node ev ploc data = { passFrac s with mesh := m } := sendCobalt_eq (passFrac s) ..

@[simp] theorem raise_col (s : State) (node : Nat) (ev : Ev) (ploc data : Nat) :
    (raise s node ev ploc data).col = s.col := by
  obtain ⟨m, hm⟩ := raise_eq s node ev ploc data
  rw [hm]
  rfl

@[simp] theorem raise_life (s : State) (node : Nat) (ev : Ev) (ploc data : Nat) :
    (raise s node ev ploc data).life = s.life := by
  obtain ⟨m, hm⟩ := raise_eq s node ev ploc data
  rw [hm]
  rfl

@[simp] theorem raise_links (s : State) (node : Nat) (ev : Ev) (ploc data : Nat) :
    (raise s node ev ploc data).links = s.links := by
  obtain ⟨m, hm⟩ := raise_eq s node ev ploc data
  rw [hm]
  rfl

@[simp] theorem raiseMod_col (s : State) (ev : Ev) (data : Nat) : (raiseMod s ev data).col = s.col := raise_col ..

@[simp] theorem raiseMod_life (s : State) (ev : Ev) (data : Nat) : (raiseMod s ev data).life = s.life := raise_life ..

@[simp] theorem raiseMod_links (s : State) (ev : Ev) (data : Nat) : (raiseMod s ev data).links = s.links := raise_links ..

/-! ### The load of a skillet and its compute domain -/

/-- The colander of a branch that leaves it. -/
theorem ite_col {c : Prop} [Decidable c] {s t u : State} (hs : s.col = u.col) (ht : t.col = u.col) :
    (if c then s else t).col = u.col := by
  split
  · exact hs
  · exact ht

@[simp] theorem refuseBridge_col (s : State) (p : Pid) : (refuseBridge s p).col = s.col :=
  ite_col (raiseMod_col ..) rfl

@[simp] theorem storeImage_col (s : State) (p : Pid) (x : PlanImage) : (storeImage s p x).col = s.col :=
  ite_col rfl (refuseBridge_col s p)

@[simp] theorem loadImages_col (s : State) (images : List PlanImage) (slice : Nat) (p : Pid) :
    (loadImages s images slice p).col = s.col := by
  unfold loadImages
  split
  · rfl
  · exact foldl_keeps State.col (fun t x => storeImage_col t p x) _ s

@[simp] theorem reload_col (s : State) (p : Pid) : (reload s p).col = s.col := by
  unfold reload
  split
  · rfl
  · exact loadImages_col ..

@[simp] theorem domainOff_col (s : State) (p : Pid) (d : Domain) : (domainOff s p d).col = s.col := rfl

@[simp] theorem domainOn_col (s : State) (p : Pid) (thermal : Nat) : (domainOn s p thermal).col = s.col := reload_col ..

/-! ### A refused write -/

/-- What a write leaves that its entry's own check refuses: OPS_REJECTED is counted and the answer kept. -/
theorem serveWrite_refused {s s' : State} {r : Req} {index sub : Nat} {x : Session} {st : Nat} (h : Passes s r index sub x)
    {ap : Req → State → Nat × State} (ha : ap r (countFrame s r) = (st, s')) (h0 : st ≠ 0) (hp : st ≠ stPending) :
    serveWrite s r index sub ap = storeAnswer { countFrame s r with
      dict := { (countFrame s r).dict with opsRejected := sat64 (countFrame s r).dict.opsRejected 1 } } r st := by
  simp [serveWrite_passes h, ha, h0, hp]

end Sys2Proof.Machine
end

section
/-! PROOFS. Relocation (03 R74, R77, R78): the spares, the nearest of them, and the map once a spare has taken a hole's
logical number. -/

namespace Sys2Proof.Machine

/-! ### The spares and the nearest of them -/

theorem Effective.mapped_iff (e : Effective) (q : Pid) : e.mapped q = true ↔ ∃ l : Fin 56, vget e.map l = q := by
  simp [Effective.mapped, vget, Fin.exists_iff, Vector.any_eq_true]

/-- The spares are the healthy skillets without a logical number (03 R74). -/
theorem Effective.mem_spares_iff (e : Effective) (q : Pid) :
    q ∈ e.spares ↔ (vget e.sk q).hole = none ∧ ∀ l : Fin 56, vget e.map l ≠ q := by
  have hm : e.mapped q = false ↔ ∀ l : Fin 56, vget e.map l ≠ q := by
    rw [← Bool.not_eq_true, e.mapped_iff, not_exists]
  simp [Effective.spares, allPids, Effective.isHole, hm]

/-- The spares stand in ascending order of their PIDs. -/
theorem Effective.spares_sortedLT (e : Effective) : e.spares.SortedLT :=
  ((List.sortedLT_finRange 64).pairwise.filter _).sortedLT

/-- The choice of 03 R77 is the library's first element of least distance. -/
theorem Effective.nearest_eq_argmin (e : Effective) (p : Pid) : e.nearest p = e.spares.argmin (pidDist p) := by
  unfold Effective.nearest List.argmin
  congr 1
  funext best q
  cases best <;> rfl

/-- In an ascending list the element that stands first is the lower one. -/
theorem le_of_idxOf_le {l : List Pid} (hl : l.SortedLT) {q z : Pid} (hq : q ∈ l) (hz : z ∈ l)
    (h : l.idxOf q ≤ l.idxOf z) : q ≤ z := by
  have hle := hl.sortedLE.getElem_le_getElem_of_le (hi := List.idxOf_lt_length_of_mem hq)
    (hj := List.idxOf_lt_length_of_mem hz) h
  simpa only [List.getElem_idxOf] using hle

/-- The nearest spare is a spare at the least distance, and of those at that distance the one with the lowest PID
(03 R77). -/
theorem Effective.nearest_spec {e : Effective} {p q : Pid} (h : e.nearest p = some q) :
    q ∈ e.spares ∧ ∀ z ∈ e.spares, pidDist p q < pidDist p z ∨ (pidDist p q = pidDist p z ∧ q ≤ z) := by
  rw [e.nearest_eq_argmin, List.argmin_eq_some_iff] at h
  obtain ⟨hq, least, first⟩ := h
  refine ⟨hq, fun z hz => (least z hz).lt_or_eq.imp_right fun heq => ⟨heq, ?_⟩⟩
  exact le_of_idxOf_le e.spares_sortedLT hq hz (first z hz heq.ge)

/-- A nearest spare is there as long as a spare is left. -/
theorem Effective.exists_nearest {e : Effective} (p : Pid) (h : e.spares ≠ []) : ∃ q, e.nearest p = some q := by
  rw [e.nearest_eq_argmin, ← Option.ne_none_iff_exists']
  exact mt List.argmin_eq_none.mp h

/-! ### What a record puts in force -/

@[simp] theorem raiseEffect_col (s : State) (r : ColRec) : (raiseEffect s r).col = s.col := by
  unfold raiseEffect
  split <;> simp

@[simp] theorem sparesLow_col (s : State) (before : Nat) : (sparesLow s before).col = s.col :=
  ite_col (raiseMod_col ..) rfl

@[simp] theorem effectOn_col (s : State) (r : ColRec) : (effectOn s r).col = s.col := by
  unfold effectOn
  split
  case h_1 => exact ite_col (domainOff_col ..) rfl
  case h_2 => exact ite_col (reload_col ..) rfl
  case h_3 => exact ite_col (reload_col ..) rfl
  case h_4 => exact ite_col (reload_col ..) (ite_col (domainOn_col ..) rfl)
  case h_5 => rfl

/-- A record that takes effect changes what is in force by what it says, and by nothing else (03 R89). -/
@[simp] theorem takeEffect_eff (s : State) (r : ColRec) : (takeEffect s r).col.eff = s.col.eff.apply r := by
  simp [takeEffect]

@[simp] theorem journalAdd_eff (s : State) (r : ColRec) : (journalAdd s r).col.eff = s.col.eff := rfl

@[simp] theorem adoptCheck_col (fails : Option (List (Pid × Nat))) (q : Pid) (s : State) :
    (adoptCheck fails q s).2.col = s.col := by
  cases fails <;> rfl

/-- A MAP record gives its logical number to its PID (03 R83). -/
theorem Effective.apply_map (e : Effective) (origin : Nat) (q : Pid) (l : Fin 56) (b count cause : Nat) :
    e.apply (mkRec 4 origin q l.val b count cause) = { e with map := vset e.map l q } := by
  simp [Effective.apply, mkRec]

/-- Relocation of a hole's logical number to the nearest spare, where that spare passes its adoption check. -/
theorem relocateOne_eff {s : State} {l : Fin 56} {q : Pid} {fails : Option (List (Pid × Nat))} (origin cause fuel : Nat)
    (hole : s.col.eff.isHole (vget s.col.eff.map l) = true) (near : s.col.eff.nearest (vget s.col.eff.map l) = some q)
    (passes : (adoptCheck fails q s).1 = 0) :
    (relocateOne (fuel + 1) fails origin cause l s).col.eff = { s.col.eff with map := vset s.col.eff.map l q } := by
  have hcol : (adoptCheck fails q s).2.col = s.col := adoptCheck_col fails q s
  rcases hc : adoptCheck fails q s with ⟨why, u⟩
  obtain rfl : why = 0 := by simpa [hc] using passes
  replace hcol : u.col = s.col := by simpa [hc] using hcol
  simp only [relocateOne, hole, near, hc]
  simp [hcol, Effective.apply_map]

end Sys2Proof.Machine

namespace Sys2Proof

open Sys2Proof.Machine

/-- Settles O8: the nearest spare is the library's first least element of the ascending list of spares, and relocation
replaces one element of the map. -/
theorem nearestSpareTakesOver : Obligations.NearestSpareTakesOver := by
  refine ⟨fun _ _ => rfl, Effective.mem_spares_iff, fun _ _ _ => Effective.nearest_spec,
    fun _ => Effective.exists_nearest, ?relocated⟩
  case relocated =>
    intro s l q fails origin cause fuel hole near passes
    have heff := relocateOne_eff origin cause fuel hole near passes
    dsimp only
    rw [heff]
    exact ⟨vget_vset .., fun k hk => vget_vset_ne _ _ hk.symm, rfl⟩

end Sys2Proof
end

section
/-! PROOFS. The end of SELF_TEST (03 R88, R93, 17 R498), QUARANTINED (12 R394, 15 R448), the service engineer's hole request
(03 R95) and what a READ of the journal gives. -/

namespace Sys2Proof.Machine

/-! ### QUARANTINED (12 R394, 15 R448) -/

@[simp] theorem changeLife_st (s : State) (l : Life) : (changeLife s l).life.st = l := by
  unfold changeLife
  dsimp only
  split
  next h => exact eq_of_beq h
  next => simp

/-- A fold whose step leaves its own port DISABLED, and no port in another state that was so, leaves every port that it
names DISABLED. -/
theorem foldl_port_disabled {g : State → Slice → State} (own : ∀ t n, ((g t n).port n).st = .disabled)
    (keeps : ∀ t m n, (t.port n).st = .disabled → ((g t m).port n).st = .disabled) (l : List Slice) (s : State) (n : Slice)
    (h : n ∈ l ∨ (s.port n).st = .disabled) : ((l.foldl g s).port n).st = .disabled := by
  induction l generalizing s with
  | nil => exact h.resolve_left List.not_mem_nil
  | cons m l ih =>
    refine ih (g s m) ?_
    rcases h with hm | hd
    · rcases List.mem_cons.mp hm with rfl | hl
      · exact .inr (own s n)
      · exact .inl hl
    · exact .inr (keeps s m n hd)

@[simp] theorem modPort_port (s : State) (n : Slice) (f : Port → Port) : (s.modPort n f).port n = f (s.port n) :=
  vget_vmod ..

theorem modPort_port_ne (s : State) {m n : Slice} (f : Port → Port) (h : m ≠ n) : (s.modPort m f).port n = s.port n :=
  vget_vmod_ne _ f h

theorem disablePort_port (s : State) (m n : Slice) :
    (disablePort s m).port n = if m = n then { (s.port n).cleared with st := .disabled } else s.port n := by
  unfold disablePort
  split
  next h => rw [h, modPort_port]
  next h => exact modPort_port_ne s _ h

/-- A port DISABLED unless it is so already. -/
def disableOpen (s : State) (n : Slice) : State := if (s.port n).st == .disabled then s else disablePort s n

theorem disableOpen_st (s : State) (n : Slice) : (disableOpen s n).life.st = s.life.st := by
  unfold disableOpen
  split <;> rfl

theorem foldl_disableOpen_port (s : State) (n : Slice) :
    (((List.finRange 32).foldl disableOpen s).port n).st = .disabled := by
  refine foldl_port_disabled (fun t m => ?own) (fun t m k hk => ?keeps) _ s n (.inl (List.mem_finRange n))
  case own =>
    unfold disableOpen
    split
    next h => exact eq_of_beq h
    next => simp [disablePort_port]
  case keeps =>
    unfold disableOpen
    split
    · exact hk
    · rw [disablePort_port]
      split
      · rfl
      · exact hk

/-- The lifecycle state and the ports. -/
def lifePorts (s : State) : Life × Vector Port 32 := (s.life.st, s.links.ports)

theorem loseState_lifePorts (s : State) : lifePorts (loseState s) = lifePorts s := by
  simp [lifePorts, loseState]

/-- Entering QUARANTINED disables every port. -/
theorem quarantine_enters {s : State} (h : s.life.st ≠ .quarantined) :
    (quarantine s).life.st = .quarantined ∧ ∀ n : Slice, ((quarantine s).port n).st = .disabled := by
  unfold quarantine
  rw [if_neg (by simpa using h)]
  extract_lets entered disabled dark alerted stopped col hidden lost
  have hdis : disabled = (List.finRange 32).foldl disableOpen entered := rfl
  have hlife : disabled.life.st = .quarantined := by
    rw [hdis]
    exact (foldl_keeps (fun t => t.life.st) disableOpen_st _ entered).trans (changeLife_st s _)
  have hports : ∀ n : Slice, (disabled.port n).st = .disabled := fun n => by
    rw [hdis]
    exact foldl_disableOpen_port entered n
  have hdark : lifePorts dark = lifePorts disabled := by
    refine foldl_keeps lifePorts (fun t b => ?_) _ disabled
    rfl
  clear_value dark
  have hlost : lifePorts lost = lifePorts dark := by
    unfold lost
    split
    · exact loseState_lifePorts hidden
    · rfl
  clear_value lost
  have hend : lifePorts (if lost.life.held.isSome then endCommand lost stWrongState else lost) = lifePorts lost := by
    split <;> rfl
  obtain ⟨hst, hpt⟩ := Prod.mk.inj (hend.trans (hlost.trans hdark))
  exact ⟨hst.trans hlife, fun n => by rw [State.port, hpt]; exact hports n⟩

/-! ### SELF_TEST_DONE (03 R88, R93, 17 R498) -/

theorem execSelfTestDone_elsewhere {s : State} (t : SelfTest) (h : s.life.st ≠ .selfTest) :
    execSelfTestDone t s = .next s := by
  simp [execSelfTestDone, h]

theorem execSelfTestDone_quarantines {s : State} {t : SelfTest} (h : s.life.st = .selfTest)
    (bad : (selfTested t s).col.eff.healthy < 56 ∨ (selfTested t s).sec.quarantineBoot = true ∨ t.failedStacks ≠ []) :
    execSelfTestDone t s = .next (quarantine (selfTested t s)) := by
  have hbad : ((selfTested t s).col.eff.healthy < 56 || (selfTested t s).sec.quarantineBoot || !t.failedStacks.isEmpty)
      = true := by simpa [or_assoc] using bad
  simp only [execSelfTestDone, h, hbad]
  rfl

theorem execSelfTestDone_passes {s : State} {t : SelfTest} (h : s.life.st = .selfTest)
    (healthy : 56 ≤ (selfTested t s).col.eff.healthy) (boot : (selfTested t s).sec.quarantineBoot = false)
    (trained : t.failedStacks = []) :
    execSelfTestDone t s = .next (allSlices.foldl portUp (commitTrial (setLife (selfTested t s) .awaitAddress))) := by
  have hgood : ((selfTested t s).col.eff.healthy < 56 || (selfTested t s).sec.quarantineBoot || !t.failedStacks.isEmpty)
      = false := by simp [healthy, boot, trained]
  simp only [execSelfTestDone, h, hgood]
  rfl

/-! ### HOLE_REQUEST (03 R95) -/

/-- A hole request for a healthy skillet is a HOLE record of reason 5 by the service engineer. -/
theorem wHoleRequest_of_healthy {s : State} {r : Req} {p : Pid} (hp : reqNat r = p.val) (hole : s.isHole p = false)
    (healthy : 57 ≤ s.col.eff.healthy) :
    wHoleRequest r s = (0, { appendRecord s 1 3 p 5 0 0 with
      col := { (appendRecord s 1 3 p 5 0 0).col with holeRequest := p.val } }) := by
  simp [wHoleRequest, hp, hole, healthy, accept]

/-- A hole request for a hole is inconsistent. -/
theorem wHoleRequest_of_hole {s : State} {r : Req} {p : Pid} (hp : reqNat r = p.val) (hole : s.isHole p = true) :
    wHoleRequest r s = (0x0306, s) := by
  simp [wHoleRequest, hp, hole, accept, stInconsistent]

/-- A hole request above the range of a PID. -/
theorem wHoleRequest_of_above {s : State} {r : Req} (h : 64 ≤ reqNat r) : wHoleRequest r s = (0x0304, s) :=
  dif_neg (Nat.not_lt.mpr h)

@[simp] theorem countFrame_isHole (s : State) (r : Req) (p : Pid) : (countFrame s r).isHole p = s.isHole p := by
  simp [State.isHole, State.skCol]

/-! ### JOURNAL_RECORD (03 R95) -/

/-- JOURNAL_RECORD in the dictionary: a BLOB of 16 bytes that can only be read. -/
theorem odFind_journalRecord : odFind 0x2005 2 = (true, some ⟨0x2005, 2, 2, 10, 16, .ro, .service⟩) := by decide

/-- A READ of JOURNAL_RECORD gives the record at the session's JOURNAL_INDEX, and zeros where there is none. -/
theorem odRead_journalRecord (s : State) {r : Req} (x : Session) (hh : headerStatus r = 0) (ht : r.typ = 0)
    (hv : r.value = []) :
    odRead s r x 0x2005 2 = (0, ((s.col.journal[x.journalIndex]?).map ColRec.bytes).getD (List.replicate 16 0)) := by
  have hc : readChecks s r x 0x2005 2 = 0 := by
    simp [readChecks, odFind_journalRecord, ht, hv, odNode]
  simp [odRead, hh, hc, odFind_journalRecord, odValue, odBytes, odBytes2]

end Sys2Proof.Machine

namespace Sys2Proof

open Sys2Proof.Machine

/-- Settles O14: the end of SELF_TEST by its three cases, the hole request by its own check, and the journal by what a READ
of its record gives. -/
theorem selfTestComplete : Obligations.SelfTestComplete := by
  refine ⟨fun _ t => execSelfTestDone_elsewhere t, fun _ _ => execSelfTestDone_quarantines, fun _ => quarantine_enters,
    fun _ _ => execSelfTestDone_passes, ?healthy, ?hole, ?above, ?record, ?beyond⟩
  case healthy =>
    intro s r x p h hp hole healthy
    exact congrArg _ (serveWrite_accepted h (wHoleRequest_of_healthy hp (by simpa using hole) (by simpa using healthy)))
  case hole =>
    intro s r x p h hp hole
    exact congrArg _ (serveWrite_refused h (wHoleRequest_of_hole hp (by simpa using hole)) (by decide) (by decide))
  case above =>
    intro s r x h ha
    exact congrArg _ (serveWrite_refused h (wHoleRequest_of_above ha) (by decide) (by decide))
  case record =>
    intro s r x c hh ht hv hc
    simp [odRead_journalRecord s x hh ht hv, hc]
  case beyond =>
    intro s r x hh ht hv hl
    simp [odRead_journalRecord s x hh ht hv, List.getElem?_eq_none hl]

end Sys2Proof
end

section
/-! PROOFS. What PASS_ISSUE, PASS_FLUSH, STATIONARY_LOAD_START and a pass of a degenerate shape do once their conditions
hold (04 R102, R103, R118-R120, R123, R126). -/

namespace Sys2Proof.Machine

/-- Status 0 takes the task to its next word (08 R225). -/
theorem finishWord_zero (s : State) (p : Pid) (t : Fin 16) (w : Nat) : finishWord s p t w 0 = advance s p t := rfl

/-- An ISSUE word with room in the queue and a descriptor that stands (04 R118, R119). -/
theorem execPassIssue_of_room {s : State} {p : Pid} {t : Fin 16} {w : Nat} (h : Presents s p .issue t w) {g : Fin 4}
    (hg : Fin.ofNat 4 (bits w 111 110) = g) {r : ReadRes × State}
    (hr : readRange (fetched s p t) p g.val (bits w 109 87 * 64) 64 = r)
    (room : ((fetched s p t).gr p g).queue.length < 4) (within : bits w 109 87 * 64 + 64 ≤ paLimit)
    (stands : passStatus r.2 p g (bits w 109 87) (passDescOf r.1.bytes) = 0) :
    execPassIssue p s = .next (advance (r.2.modGr p g (fun x => { x with
      queue := x.queue ++ [{ desc := passDescOf r.1.bytes, issuer := issuerOf (fetched s p t) p t w, id := x.serial }],
      serial := x.serial + 1 })) p t) := by
  subst hg hr
  rw [execPassIssue, issueWord_presents h, if_neg (Nat.not_le.mpr room)]
  simp only [if_neg (Nat.not_lt.mpr within), stands, finishWord_zero]

/-- A FLUSH word that stands (04 R126). -/
theorem execPassFlush_of_presents {s : State} {p : Pid} {t : Fin 16} {w : Nat} (h : Presents s p .flush t w) :
    execPassFlush p s = .next (
      let g : Fin 4 := Fin.ofNat 4 (bits w 111 110)
      let f := fetched s p t
      let u := (advance f p t).modGr p g (fun x => { x with
        flushers := x.flushers ++ [issuerOf f p t w], flushPending := true })
      if (u.gr p g).issuing then u else doFlush u p g) := by
  rw [execPassFlush, issueWord_presents h]

/-- A stationary load that may start (04 R102, R103, R120). -/
theorem execStationaryLoadStart_of_ready {b s : State} {p : Pid} {g : Fin 4} {errs : List (Nat × Bool)} {q : Pass}
    (hs : strike b p errs = s) (next : (s.gr p g).waiting.find? (fun q => q.desc.loads) = some q)
    (runs : (s.gr p g).halted = false) (noFlush : (s.gr p g).flushPending = false) (free : (s.gr p g).back = none)
    (noFault : (s.gr p g).loadFault = none) (on : s.computeOn p = true)
    (full : q.desc.w2.chk = true → s.slotSt p q.desc.w2.slot = .full) :
    execStationaryLoadStart p g errs b = .next (
      let r := readTile s p g q.desc
      let u := r.2.2.modGr p g (fun x => { x with
        back := some (q.id, r.1), loadFault := if r.2.1 then some (q.id, 4) else none })
      if q.desc.hold then u else releaseOperand u p q.desc.w2) := by
  subst hs
  have starts : (q.desc.w2.chk && (strike b p errs).slotSt p q.desc.w2.slot != .full) = false := by
    cases hc : q.desc.w2.chk with
    | false => rfl
    | true => simp [full hc]
  simp [execStationaryLoadStart, next, runs, noFlush, free, noFault, on, starts]

/-- A pass of a degenerate shape that may issue (04 R123). -/
theorem execPassIssueBegin_of_empty {b s : State} {p : Pid} {g : Fin 4} {errs : List (Nat × Bool)} (n : Nat) {q : Pass}
    (hs : strike b p errs = s) (head : (s.gr p g).waiting.head? = some q) (ready : passReady s p g q = true)
    (empty : q.desc.empty = true) :
    execPassIssueBegin p g errs n b = .next (emptyPass s p g q) := by
  subst hs
  simp [execPassIssueBegin, head, ready, empty]

end Sys2Proof.Machine

namespace Sys2Proof

open Sys2Proof.Machine

/-- Settles O19, each command by its lemma above. -/
theorem griddleQueueComplete : Obligations.GriddleQueueComplete :=
  ⟨fun _ _ _ _ h => execPassIssue_of_room h rfl rfl, fun _ _ _ _ => execPassFlush_of_presents,
    fun _ _ _ _ _ => execStationaryLoadStart_of_ready rfl, fun _ _ _ _ n _ => execPassIssueBegin_of_empty n rfl⟩

end Sys2Proof
end

section
/-! PROOFS. A double-bit error that a pass meets where its bank is retired at once (06 R180, R182, 03 R89, R90): the new
bank map discards what the griddles of the skillet hold, and with it the passes in the array. -/

namespace Sys2Proof.Machine

/-! ### What leaves the griddles -/

@[simp] theorem raise_sks (s : State) (node : Nat) (ev : Ev) (ploc data : Nat) :
    (raise s node ev ploc data).sks = s.sks := by
  obtain ⟨m, hm⟩ := raise_eq s node ev ploc data
  rw [hm]
  rfl

@[simp] theorem raise_dict (s : State) (node : Nat) (ev : Ev) (ploc data : Nat) :
    (raise s node ev ploc data).dict = s.dict := by
  obtain ⟨m, hm⟩ := raise_eq s node ev ploc data
  rw [hm]
  rfl

@[simp] theorem raise_gr (s : State) (node : Nat) (ev : Ev) (ploc data : Nat) (p : Pid) (g : Fin 4) :
    (raise s node ev ploc data).gr p g = s.gr p g := by
  simp [State.gr, State.sk]

@[simp] theorem State.gr_modPn (s : State) (p : Pid) (g : Fin 4) (f : Pantry → Pantry) :
    (s.modPn p f).gr p g = s.gr p g := by
  simp [State.gr, State.modPn]

@[simp] theorem sparesLow_gr (s : State) (n : Nat) (p : Pid) (g : Fin 4) : (sparesLow s n).gr p g = s.gr p g := by
  unfold sparesLow raiseMod
  dsimp only
  split <;> simp

@[simp] theorem Griddle.dropHead_active (g : Griddle) : g.dropHead.active = g.active := by
  unfold Griddle.dropHead
  split <;> rfl

@[simp] theorem Griddle.enterWindow_active (g : Griddle) (q : Pass) (vals : List (List W32)) :
    (g.enterWindow q vals).1.active = g.active := by
  unfold Griddle.enterWindow
  dsimp only
  split <;> rfl

/-! ### A bank retired at once -/

/-- A new bank map leaves no tile, window or pass in a griddle (03 R90). -/
theorem gr_modSk_discard (s : State) (p : Pid) (g : Fin 4) :
    (s.modSk p Skillet.discard).gr p g = (s.gr p g).discard := by
  simp [State.gr, Skillet.discard, vget]

/-- A BANK record that takes effect in a powered skillet, with no plan to load again (03 R90). -/
theorem takeEffect_bank_gr {s : State} {r : ColRec} (bank : r.kind = 3) (on : (s.sk r.pid).computeOn = true)
    (noPlan : s.dict.plan = none) (g : Fin 4) : (takeEffect s r).gr r.pid g = (s.gr r.pid g).discard := by
  have hon (c : ColSt) (ev : Ev) (ploc data : Nat) :
      ((raise { s with col := c } 68 ev ploc data).sk r.pid).computeOn = true := by simpa [State.sk] using on
  simp only [takeEffect, sparesLow_gr, raiseEffect, effectOn, bank, hon, if_true, reload, State.modSk_dict, raise_dict,
    noPlan, gr_modSk_discard, raise_gr]
  rfl

/-- A powered skillet in which the next bank to retire, its first, is out of the map at once (03 R89, R91), with no plan to
load again. -/
structure RetiresAtOnce (s : State) (p : Pid) : Prop where
  now : effectNow s p = true
  on : (s.sk p).computeOn = true
  noPlan : s.dict.plan = none
  banks : badBanks s p = []
  asked : (s.pn p).asked = []

theorem RetiresAtOnce.modPn {s : State} {p : Pid} (h : RetiresAtOnce s p) {f : Pantry → Pantry}
    (hf : ∀ k, (f k).asked = k.asked := by exact fun _ => rfl) : RetiresAtOnce (s.modPn p f) p :=
  ⟨h.now, by simpa [State.modPn] using h.on, h.noPlan, h.banks, by simpa [hf] using h.asked⟩

theorem RetiresAtOnce.modGr {s : State} {p : Pid} (h : RetiresAtOnce s p) (g : Fin 4) (f : Griddle → Griddle) :
    RetiresAtOnce (s.modGr p g f) p :=
  ⟨h.now, by simpa [State.modGr] using h.on, h.noPlan, h.banks, by simpa [State.modGr, State.pn] using h.asked⟩

theorem RetiresAtOnce.draw {s : State} {p : Pid} (h : RetiresAtOnce s p) : RetiresAtOnce (draw s).2 p :=
  ⟨h.now, h.on, h.noPlan, h.banks, h.asked⟩

theorem RetiresAtOnce.raise {s : State} {p : Pid} (h : RetiresAtOnce s p) (node : Nat) (ev : Ev) (ploc data : Nat) :
    RetiresAtOnce (raise s node ev ploc data) p := by
  obtain ⟨m, hm⟩ := raise_eq s node ev ploc data
  rw [hm]
  exact ⟨h.now, h.on, h.noPlan, h.banks, h.asked⟩

/-- A BANK record that is written and in force at once (03 R89). -/
theorem appendRecord_bank_gr {s : State} {p : Pid} (h : RetiresAtOnce s p) (origin bank b cause : Nat) (g : Fin 4) :
    (appendRecord s 3 origin p bank b cause).gr p g = (s.gr p g).discard := by
  generalize hr : mkRec 3 origin p bank b (validCount s) cause = r
  obtain rfl : r.pid = p := by rw [← hr]; rfl
  have happ : appendRecord s 3 origin r.pid bank b cause = takeEffect (journalAdd s r) r := by
    simp [appendRecord, h.now, hr]
  rw [happ, takeEffect_bank_gr (s := journalAdd s r) (by rw [← hr]; rfl) h.on h.noPlan]
  rfl

/-- A bank to retire (06 R182). -/
theorem retireBank_gr {s : State} {p : Pid} (h : RetiresAtOnce s p) (bank : Nat) (g : Fin 4) :
    (retireBank s p bank).gr p g = (s.gr p g).discard := by
  have hret : retireBank s p bank =
      appendRecord (raiseSk s p 5 .bankRetireRequest (names [bank])) 3 2 p bank 0 Ev.bankRetireRequest.code := by
    simp [retireBank, h.banks, h.asked]
  rw [hret, raiseSk, appendRecord_bank_gr (h.raise ..), raise_gr]

/-- A double-bit error retires its bank (06 R180). -/
theorem noteError_double_gr {s : State} {p : Pid} (h : RetiresAtOnce s p) (e : Nat) (g : Fin 4) :
    (noteError s p e true).gr p g = (s.gr p g).discard := by
  simp only [noteError, if_true]
  exact (retireBank_gr h.modPn _ g).trans (congrArg _ (State.gr_modPn ..))

/-- The banks hold one error, a double-bit one, and it is met (06 R180). -/
theorem meetErrors_double_gr {s : State} {p : Pid} {e : Nat} {live : Nat → Bool} (h : RetiresAtOnce s p)
    (errs : (s.pn p).errors = [(e, true)]) (hit : live e = true) (g : Fin 4) :
    (meetErrors s p live).gr p g = (s.gr p g).discard := by
  simp only [meetErrors, errs, List.filter_cons, hit, if_true, List.filter_nil, List.isEmpty_cons, Bool.false_eq_true,
    if_false, List.foldl_cons, List.foldl_nil]
  exact (noteError_double_gr h.modPn e g).trans (congrArg _ (State.gr_modPn ..))

/-- A read that meets the one error of the banks, a double-bit one, leaves nothing in the skillet's griddles. -/
theorem readRange_double_gr {s : State} {p : Pid} {m a len e : Nat} (h : RetiresAtOnce s p)
    (opened : rangeOpen (s.pn p) a len = true) (errs : (s.pn p).errors = [(e, true)]) (hit : granuleIn a len e = true)
    (g : Fin 4) : (readRange s p m a len).2.gr p g = (s.gr p g).discard := by
  have offs : (rangeShelves a len).filter (fun n => (s.pn p).shelf n == .off || (s.pn p).shelf n == .waking) = [] := by
    refine List.filter_eq_nil_iff.mpr fun n hn => ?_
    have hopen : (s.pn p).shelf n = .opened := by simpa using List.all_eq_true.mp opened n hn
    simp [hopen]
  have granted : countGranted s p m a len false ((rangeShelves a len).filter (fun n => !([] : List Nat).contains n))
      = countAccess s p m a len 0 := by simp [countGranted]
  have hc : RetiresAtOnce (countAccess s p m a len 0) p := by
    unfold countAccess
    exact h.draw.modPn
  simp only [readRange, offs, List.foldl_nil, granted]
  rw [foldl_keeps (fun t => t.gr p g) (fun t _ => by simp [raiseSk]),
    meetErrors_double_gr (e := e) hc (by simp only [countAccess, State.pn_modPn]; exact errs) (by simpa using hit)]
  exact congrArg Griddle.discard (State.gr_modPn (draw s).2 ..)

/-! ### A pass that begins -/

/-- The state in which a pass begins to read: the tile that it multiplies by stands in front (04 R102, R103). -/
def tileInFront (s : State) (p : Pid) (g : Fin 4) (q : Pass) : State :=
  let s1 := (draw s).2
  let s2 := (draw s1).2
  (draw s2).2.modGr p g (fun x => { x with
    stallInput := sat64 x.stallInput (draw s).1, stallLoad := sat64 x.stallLoad (draw s1).1,
    stallOutput := sat64 x.stallOutput (draw s2).1, accCorrected := sat64 x.accCorrected 0,
    front := frontFor x q, back := if q.desc.loads then none else x.back, saved := if q.retry then x.saved else none })

@[simp] theorem readRows_one_state (s : State) (p : Pid) (m base stride len : Nat) :
    (readRows s p m base stride 1 len).2.2 = (readRange s p m base len).2 := by
  simp [readRows]

/-- A pass of unscaled rows that begins its chain at +0 and does not emit: once it has read them it joins the array. -/
theorem execPassIssueBegin_of_rows {b s : State} {p : Pid} {g : Fin 4} {errs : List (Nat × Bool)} {q : Pass}
    (hs : strike b p errs = s) (head : (s.gr p g).waiting.head? = some q) (ready : passReady s p g q = true)
    (data : q.desc.empty = false) (mul : q.desc.k ≠ 0) (unscaled : fmtScaled q.desc.aFmt = false)
    (zero : q.desc.init = .zero) (quiet : q.desc.emit = false) :
    ∃ f : Griddle → Griddle, execPassIssueBegin p g errs 0 b = .next
        ((readRows (tileInFront s p g q) p g.val q.desc.w4.base (q.desc.w4.stride * 64) q.desc.m
          (rowBytes q.desc.aFmt q.desc.k)).2.2.modGr p g f)
      ∧ ∀ x, (f x).active.length = x.active.length + 1 := by
  subst hs
  have hinit : (q.desc.init == .continue_) = false ∧ (q.desc.init == .source) = false := by simp [zero]
  simp only [execPassIssueBegin, head, ready, data, mul, unscaled, hinit, quiet, readScales, initRows, PassDesc.dests,
    Bool.not_true, Bool.false_eq_true, if_false, Bool.false_and, List.foldl_nil, List.range_zero]
  exact ⟨_, rfl, fun x => by simp⟩

@[simp] theorem tileInFront_pn (s : State) (p : Pid) (g : Fin 4) (q : Pass) : (tileInFront s p g q).pn p = s.pn p := by
  simp [tileInFront, State.modGr, State.pn, State.sk]

/-! ### The counterexample -/

/-- A pass of one row, column and product, in FP16, that reuses the tile in front and reads its row from address 0. -/
def rowPass (id : Nat) : Pass :=
  { desc := { passDescOf (List.replicate 64 0) with m := 1, n := 1, k := 1 }, issuer := ⟨0, 0, false, 0, false⟩, id := id }

/-- Where its row meets a double-bit error whose bank is retired at once, this pass is alone in the array: the passes that
were there are gone. -/
theorem execPassIssueBegin_alone {b s : State} {p : Pid} {g : Fin 4} {errs : List (Nat × Bool)} {id : Nat}
    (hs : strike b p errs = s) (head : (s.gr p g).waiting.head? = some (rowPass id))
    (ready : passReady s p g (rowPass id) = true) (retires : RetiresAtOnce s p) (opened : rangeOpen (s.pn p) 0 2 = true)
    (struck : (s.pn p).errors = [(0, true)]) :
    ∃ u, execPassIssueBegin p g errs 0 b = .next u ∧ (u.gr p g).active.length = 1 := by
  have row : (rowPass id).desc.m = 1 := rfl
  have base : (rowPass id).desc.w4.base = 0 := rfl
  have len : rowBytes (rowPass id).desc.aFmt (rowPass id).desc.k = 2 := (by decide : rowBytes 0 1 = 2)
  obtain ⟨f, hexec, joins⟩ := execPassIssueBegin_of_rows hs head ready rfl Nat.one_ne_zero rfl rfl rfl
  have gone := readRange_double_gr (s := tileInFront s p g (rowPass id)) (m := g.val) (retires.draw.draw.draw.modGr ..)
    (by rwa [tileInFront_pn]) (by rwa [tileInFront_pn]) rfl g
  refine ⟨_, hexec, ?_⟩
  rw [State.gr_modGr, joins, row, readRows_one_state, base, len, gone]
  rfl

/-- A RECOVERING module in which one pass drains in griddle 0 of skillet 0 and the next is at the head of the queue. -/
def drainingState : State :=
  (({ State.reset with life := { st := .recovering } } : State).modSk 0 (fun k => { k with computeOn := true })).modGr 0 0
    (fun x => { x with
      queue := [rowPass 8], active := [⟨rowPass 7, .drain, 1, 0⟩], front := some ⟨0, 1, 1, false, [[.fin false 1 0]]⟩ })

end Sys2Proof.Machine

namespace Sys2Proof

open Sys2Proof.Machine

/-- Refutes O20, by its first clause: in a RECOVERING module a double-bit error in granule 0 retires its bank at once, so
the read of the new pass discards the draining one, and the list ends up with one pass, not two (06 R180, R182, 03 R89,
R90). -/
theorem not_griddlePassComplete : ¬ Obligations.GriddlePassComplete := by
  rintro ⟨begins, -⟩
  have head : ((strike drainingState 0 [(0, true)]).gr 0 0).waiting.head? = some (rowPass 8) := by decide
  have ready : passReady (strike drainingState 0 [(0, true)]) 0 0 (rowPass 8) = true := by decide
  have retires : RetiresAtOnce (strike drainingState 0 [(0, true)]) 0 :=
    ⟨by decide, by decide, by decide, by decide, by decide⟩
  obtain ⟨v, hv, alone⟩ := execPassIssueBegin_alone rfl head ready retires (by decide) (by decide)
  obtain ⟨u, a, hu, joined, -⟩ := begins drainingState 0 0 [(0, true)] 0 (rowPass 8) head ready (by decide)
  obtain rfl : u = v := Host.Outcome.next.inj (hu.symm.trans hv)
  have draining : ((strike drainingState 0 [(0, true)]).gr 0 0).active.length = 1 := by decide
  simp [joined, draining] at alone

end Sys2Proof
end

section
/-! PROOFS. What the slot words, LOAD and MEMOP do once their conditions hold, and SLOT_DRAIN_DONE (06 R161-R168, R172,
R175, 08 R223): each acts on the state after its fetch and takes the task to its next word. -/

namespace Sys2Proof

/-- A lookup among records that stand under rising numbers, those that `keep` drops left out. -/
theorem Tab.find_map_range' {α : Type} (f : Nat → α) (keep : α → Bool) (k lo n : Nat) :
    Tab.find (((List.range' lo n).map (fun i => (i, f i))).filter (fun e => keep e.2)) k
      = if lo ≤ k ∧ k < lo + n ∧ keep (f k) = true then some (f k) else none := by
  induction n generalizing lo with
  | zero =>
    rw [if_neg (by omega)]
    rfl
  | succ n ih =>
    rw [List.range'_succ, List.map_cons, List.filter_cons]
    have rest := ih (lo + 1)
    by_cases first : lo = k
    · subst first
      by_cases kept : keep (f lo) = true
      · simp [kept, Tab.find]
      · simp only [kept, Bool.false_eq_true, if_false, rest, and_false]
    · have low : lo + 1 ≤ k ↔ lo ≤ k := by omega
      have high : k < lo + 1 + n ↔ k < lo + (n + 1) := by omega
      simp only [low, high] at rest
      split
      · rw [Tab.find, if_neg first, rest]
        by_cases before : k < lo
        · rw [if_pos before, if_neg (fun h => Nat.not_le.mpr before h.1)]
        · rw [if_neg before]
      · exact rest

end Sys2Proof

namespace Sys2Proof.Machine

/-- RESET_ALL at each slot (06 R175). -/
theorem emptiedSlots_at (x : Tab Slot) (n : Nat) :
    Tab.at (emptiedSlots x) n {} = if n < 4096 then (Tab.at x n {}).emptied else {} := by
  rw [Tab.at, emptiedSlots, List.range_eq_range', Tab.find_map_range' (fun n => (Tab.at x n {}).emptied) (fun y => y != {})]
  by_cases hn : n < 4096
  · by_cases hy : (Tab.at x n {}).emptied = {} <;> simp [hn, hy]
  · simp [hn]

/-- SET of a slot that no row of R167 refuses (06 R165, R167). -/
theorem execSlotSet_of_stands {s : State} {p : Pid} {t : Fin 16} {w : Nat} (h : Presents s p .set t w)
    (stands : slotSetStatus (fetched s p t) p (bits w 111 100) (bits w 63 0) = 0) :
    execSlotSet p s = .next (advance ((fetched s p t).modPn p (fun k =>
      k.setSlot (bits w 111 100) ((k.slot (bits w 111 100)).configure (bits w 63 0)))) p t) := by
  rw [execSlotSet, issueWord_presents h]
  simp only [stands, finishWord_zero]

/-- RESET of a slot with no work in progress (06 R175). -/
theorem execSlotReset_of_idle {s : State} {p : Pid} {t : Fin 16} {w : Nat} (h : Presents s p .reset t w)
    (idle : workInProgress (fetched s p t) p = false) :
    execSlotReset p s = .next (advance ((fetched s p t).modPn p (fun k =>
      k.setSlot (bits w 111 100) (k.slot (bits w 111 100)).emptied)) p t) := by
  rw [execSlotReset, issueWord_presents h]
  simp only [idle, Bool.false_eq_true, if_false, finishWord_zero]

/-- RESET_ALL with no work in progress (06 R175). -/
theorem execSlotResetAll_of_idle {s : State} {p : Pid} {t : Fin 16} {w : Nat} (h : Presents s p .resetAll t w)
    (idle : workInProgress (fetched s p t) p = false) :
    execSlotResetAll p s = .next (advance ((fetched s p t).modPn p (fun k => { k with
      slots := emptiedSlots k.slots })) p t) := by
  rw [execSlotResetAll, issueWord_presents h]
  simp only [idle, Bool.false_eq_true, if_false, finishWord_zero]

/-- COMPLETE (06 R168, R172). -/
theorem execSlotComplete_of_presents {s : State} {p : Pid} {t : Fin 16} {w : Nat} (h : Presents s p .complete t w) :
    execSlotComplete p s = .next (advance (slotCompletion (fetched s p t) p (bits w 111 100)) p t) := by
  rw [execSlotComplete, issueWord_presents h, finishWord_zero]

/-- RELEASE (06 R168, R172). -/
theorem execSlotRelease_of_presents {s : State} {p : Pid} {t : Fin 16} {w : Nat} (h : Presents s p .release t w) :
    execSlotRelease p s = .next (advance (slotRelease (fetched s p t) p (bits w 111 100)) p t) := by
  rw [execSlotRelease, issueWord_presents h, finishWord_zero]

/-- The reads of a DRAINING slot have retired (06 R168). -/
theorem execSlotDrainDone_of_draining {s : State} {p : Pid} {n : Fin 4096} (h : ((s.pn p).slot n.val).st = .draining) :
    execSlotDrainDone p n s = .next (s.modPn p (fun k => k.setSlot n.val ((s.pn p).slot n.val).emptied)) := by
  simp only [execSlotDrainDone, h, beq_self_eq_true, if_true]

/-- A LOAD that no slot checks and that meets no poison (06 R180, 08 R223). -/
theorem execSlotLoad_of_clean {s : State} {p : Pid} {errs : List (Nat × Bool)} {t : Fin 16} {w : Nat}
    (h : Presents (strike s p errs) p .load t w) (unchecked : bit w 108 = false) {r : ReadRes × State}
    (hr : readRange (fetched (strike s p errs) p t) p 14 (bits w 92 64) 8 = r) (clean : r.1.poison = false) :
    execSlotLoad p errs s = .next (advance (setTr r.2 p t (bits w 111 109) (leNat r.1.bytes)) p t) := by
  subst hr
  have free : checkStatus (fetched (strike s p errs) p t) p w false = 0 := by simp [checkStatus, unchecked]
  rw [execSlotLoad, issueWord_presents h]
  simp only [free, clean, Bool.false_eq_true, if_false, finishWord_zero]

/-- A MEMOP with a descriptor that stands (06 R161-R163). -/
theorem execMemop_of_stands {s : State} {p : Pid} {t : Fin 16} {w : Nat} (h : Presents s p .memop t w)
    (within : bits w 111 88 * 32 + 32 ≤ paLimit) {r : ReadRes × State}
    (hr : readRange (fetched s p t) p 14 (bits w 111 88 * 32) 32 = r) {d : MemDesc} (hd : memDescOf r.1.bytes = d)
    (stands : memopStatus (r.2.pn p) (bits w 111 88 * 32) d = 0) :
    execMemop p s = .next (advance (r.2.modPn p (fun k => { k with memopQueue := k.memopQueue ++ [{
      copy := d.op == 2, length := d.length, pattern := d.pattern, src := d.src, dst := d.dst,
      issuer := issuerOf (fetched s p t) p t w }] })) p t) := by
  subst hr hd
  rw [execMemop, issueWord_presents h]
  simp only [if_neg (Nat.not_lt.mpr within), stands, finishWord_zero]

end Sys2Proof.Machine

namespace Sys2Proof

open Sys2Proof.Machine

/-- Settles O21: each word by its lemma above, and RESET_ALL's slots by the lookup among them. -/
theorem slotWordsComplete : Obligations.SlotWordsComplete :=
  ⟨fun _ _ _ _ h stands => execSlotSet_of_stands h stands,
    fun _ _ _ _ h idle => execSlotReset_of_idle h idle,
    fun _ _ _ _ h idle => execSlotResetAll_of_idle h idle,
    emptiedSlots_at,
    fun _ _ _ _ h => execSlotComplete_of_presents h,
    fun _ _ _ _ h => execSlotRelease_of_presents h,
    fun _ _ _ h => execSlotDrainDone_of_draining h,
    fun _ _ _ _ _ h unchecked clean => execSlotLoad_of_clean h unchecked rfl clean,
    fun _ _ _ _ h within stands => execMemop_of_stands h within rfl rfl stands⟩

end Sys2Proof
end

section
/-! PROOFS. The end of a shelf's wake and of its close (06 R176, R177): the shelf is zero-filled and takes its new state, and
the task that its command holds goes on, which touches no pantry. -/

namespace Sys2Proof.Machine

/-! ### What the sequencer leaves of the pantries -/

theorem State.pn_modPn_ne (s : State) {p q : Pid} (f : Pantry → Pantry) (h : q ≠ p) : (s.modPn p f).pn q = s.pn q :=
  congrArg Skillet.pantry (vget_vmod_ne s.sks (fun k => { k with pantry := f k.pantry }) h.symm)

@[simp] theorem State.pn_modSq (s : State) (p q : Pid) (f : Seq → Seq) : (s.modSq p f).pn q = s.pn q := by
  by_cases h : p = q
  · subst h
    simp [State.pn, State.modSq]
  · exact congrArg Skillet.pantry (vget_vmod_ne s.sks (fun k => { k with seq := f k.seq }) h)

@[simp] theorem State.pn_modTask (s : State) (p q : Pid) (t : Fin 16) (f : Task → Task) :
    (s.modTask p t f).pn q = s.pn q := State.pn_modSq ..

@[simp] theorem selectNext_pn (s : State) (p q : Pid) : (selectNext s p).pn q = s.pn q := by
  unfold selectNext
  split <;> simp

@[simp] theorem leaveRunning_pn (s : State) (p : Pid) (t : Fin 16) (st : TaskState) (q : Pid) :
    (leaveRunning s p t st).pn q = s.pn q := by
  unfold leaveRunning
  dsimp only
  split <;> simp

@[simp] theorem releaseHold_pn (s : State) (p : Pid) (n : Nat) (opens : Bool) (q : Pid) :
    (releaseHold s p n opens).pn q = s.pn q := by
  unfold releaseHold
  split
  · dsimp only
    split
    · split <;> simp [advance]
    · simp
  · rfl

/-! ### A shelf zero-filled -/

/-- The state of a shelf by its number. -/
@[simp] theorem Pantry.shelf_val (k : Pantry) (n : Fin 15) : k.shelf n.val = (vget k.shelves n).st := by
  simp [Pantry.shelf]

@[simp] theorem setShelf_val (s : State) (p : Pid) (n : Fin 15) (x : Shelf) :
    setShelf s p n.val x = s.modPn p (fun k => { k with shelves := vset k.shelves n x }) := by
  simp [setShelf]

/-- The bytes of a shelf (06 R155). -/
theorem shelf_range_iff (a n : Nat) : n * 2 ^ 25 ≤ a ∧ a < n * 2 ^ 25 + 2 ^ 25 ↔ a / 2 ^ 25 = n := by omega

/-- From s to u a shelf has been zero-filled and has taken a state; the rest of its pantry's memory, the other shelves, the
slots and the other pantries stand (06 R176). -/
def ShelfZeroed (s u : State) (p : Pid) (n : Fin 15) (st : ShelfState) : Prop :=
  (vget (u.pn p).shelves n).st = st
    ∧ (∀ a : Nat, Mem.get (u.pn p).mem a = if a / 2 ^ 25 = n.val then 0 else Mem.get (s.pn p).mem a)
    ∧ (∀ m : Fin 15, m ≠ n → vget (u.pn p).shelves m = vget (s.pn p).shelves m)
    ∧ (u.pn p).slots = (s.pn p).slots ∧ (∀ q : Pid, q ≠ p → u.pn q = s.pn q)

/-- A shelf's wake or close ends (06 R176, R177). -/
theorem shelfZeroed_releaseHold (s : State) (p : Pid) (n : Fin 15) (x : Shelf) (opens : Bool) :
    ShelfZeroed s (releaseHold (setShelf (zeroShelf s p n.val) p n.val x) p n.val opens) p n x.st := by
  simp only [ShelfZeroed, releaseHold_pn, setShelf_val, zeroShelf, State.pn_modPn]
  refine ⟨congrArg Shelf.st (vget_vset ..), fun a => ?_, fun m hm => vget_vset_ne _ x hm.symm, trivial, fun q hq => ?_⟩
  · rw [Mem.get_zero]
    exact if_congr (shelf_range_iff a n.val) rfl rfl
  · rw [State.pn_modPn_ne _ _ hq, State.pn_modPn_ne _ _ hq]

/-- A WAKING shelf opens (06 R176). -/
theorem execShelfWakeDone_of_waking {s : State} {p : Pid} {n : Fin 15} (h : (vget (s.pn p).shelves n).st = .waking) :
    ∃ u, execShelfWakeDone p n s = .next u ∧ ShelfZeroed s u p n .opened := by
  refine ⟨_, ?_, shelfZeroed_releaseHold s p n ⟨.opened, false⟩ true⟩
  simp [execShelfWakeDone, h]

/-- A CLOSING shelf goes off (06 R176). -/
theorem execShelfCloseDone_of_closing {s : State} {p : Pid} {n : Fin 15} (h : (vget (s.pn p).shelves n).st = .closing) :
    ∃ u, execShelfCloseDone p n s = .next u ∧ ShelfZeroed s u p n .off := by
  refine ⟨_, ?_, shelfZeroed_releaseHold s p n ⟨.off, (vget (s.pn p).shelves n).rejected⟩ false⟩
  simp [execShelfCloseDone, h]

end Sys2Proof.Machine

namespace Sys2Proof

open Sys2Proof.Machine

/-- Settles O23, by the lemma of each command above. -/
theorem shelfDataIsGone : Obligations.ShelfDataIsGone :=
  fun _ _ _ => ⟨execShelfWakeDone_of_waking, execShelfCloseDone_of_closing⟩

end Sys2Proof
end

section
/-! PROOFS. A read of pantry that meets a double-bit error while the module is RECOVERING (06 R180, R182, 03 R89, R90): its
bank is retired at once, and the new bank map discards what the pantry holds. -/

namespace Sys2Proof.Machine

/-! ### The counterexample -/

/-- The plan word STORE of register 0 at address 64, unchecked (08 R223, R224). -/
def storeWord : Nat := 4 * 2 ^ 124 + 9 * 2 ^ 120 + 64 * 2 ^ 64

/-- A RECOVERING module in which task 0 of skillet 0 presents that word at address 0, and the bank of the word's first
granule has taken a double-bit error. -/
def struckState : State :=
  ({ State.reset with life := { st := .recovering } } : State).modSk 0 (fun k => { k with
    computeOn := true
    pantry := { k.pantry with mem := Mem.store [] 0 (leBytes 16 storeWord), errors := [(0, true)] }
    seq := { k.seq with current := some 0, tasks := vset k.seq.tasks 0 { st := .running } } })

/-- A COPY of the 64 bytes at address 0 to address 64. -/
def copyFirst : MemOp :=
  { copy := true, length := 1, pattern := 0, src := {}, dst := { addr := 1 }, issuer := ⟨0, 0, false, 0, false⟩ }

/-- The last byte of the word: family 4, operation 9. -/
theorem struckState_word : Mem.get (struckState.pn 0).mem 15 = 0x49#8 := by decide

/-- The fetch of the word meets the error; the discard takes the poison of the granule with it, so the word comes clean and
stands. -/
theorem struckState_presents : Presents struckState 0 .store 0 storeWord := .of_checks (by decide)

/-- After the STORE the word's last byte is gone. -/
theorem exec_slotStore_struckState :
    ∃ u, exec (.slotStore 0) struckState = .next u ∧ Mem.get (u.pn 0).mem 15 = 0 :=
  ⟨_, rfl, by decide⟩

/-- The read of the source of a COPY meets the error too; the COPY writes the zeros that the source holds after it. -/
theorem memopRun_struckState : Mem.get ((memopRun struckState 0 copyFirst).2.pn 0).mem 79 = 0 := by decide

end Sys2Proof.Machine

namespace Sys2Proof

open Sys2Proof.Machine

/-- Refutes O22: the fetch of the word itself meets a double-bit error, and in a RECOVERING module its bank is retired at
once, so byte 15, which the STORE at address 64 does not write, goes from 0x49 to 0 (06 R180, R182, 03 R89, R90). -/
theorem not_storeWritesEightBytes : ¬ Obligations.StoreWritesEightBytes := by
  intro stores
  obtain ⟨u, hu, -, kept, -⟩ := stores struckState 0 0 storeWord struckState_presents (by decide) (by decide)
  obtain ⟨v, hv, lost⟩ := exec_slotStore_struckState
  obtain rfl : u = v := Host.Outcome.next.inj (hu.symm.trans hv)
  have stays : Mem.get (u.pn 0).mem 15 = 0x49#8 := (kept 15 (by decide)).trans struckState_word
  exact absurd (lost.symm.trans stays) (by decide)

/-- Refutes O24, by its clause on a COPY between open shelves: the read of the source meets a double-bit error, and in a
RECOVERING module its bank is retired at once, so the copy of byte 15, which held 0x49, is 0 (06 R161, R180, R182, 03 R89,
R90). -/
theorem not_pantryUpkeepComplete : ¬ Obligations.PantryUpkeepComplete := by
  rintro ⟨-, -, -, -, -, -, copies, -⟩
  obtain ⟨-, written⟩ := copies struckState 0 copyFirst (by decide)
  have copied : Mem.get ((memopRun struckState 0 copyFirst).2.pn 0).mem 79 = 0x49#8 := (written 79).trans struckState_word
  exact absurd (memopRun_struckState.symm.trans copied) (by decide)

end Sys2Proof
end

section
/-! PROOFS. The plan words that wait, branch and act on tasks (08 R217, R218, R223, R224, R226, R227, R229-R231, R249):
each acts on the state after its fetch, and a word that sends needs room in the cobalt node's queue. -/

namespace Sys2Proof.Machine

/-- A word that stands answers what its operation makes of the state after its fetch. -/
theorem next_issueWord {s u : State} {p : Pid} {op : WordOp} {t : Fin 16} {w : Nat} (h : Presents s p op t w)
    {act : State → Fin 16 → Nat → State} (acts : act (fetched s p t) t w = u) :
    (Host.Outcome.next (issueWord s p op act) : Out) = .next u :=
  congrArg Host.Outcome.next ((issueWord_presents h act).trans acts)

/-- A word that sends is as any other where the send queue has room (09 R278). -/
theorem sendingWord_of_room {s : State} {p : Pid} (room : sendRoom s p = true) (op : WordOp)
    (act : State → Fin 16 → Nat → State) : sendingWord s p op act = issueWord s p op act :=
  if_pos room

/-- A full send queue holds the word that would send (09 R278). -/
theorem sendingWord_of_full {s : State} {p : Pid} (full : sendRoom s p = false) (op : WordOp)
    (act : State → Fin 16 → Nat → State) : sendingWord s p op act = s := by
  rw [sendingWord, full, if_neg Bool.false_ne_true]

/-- A word that sends and stands, where the queue has room. -/
theorem next_sendingWord {s u : State} {p : Pid} {op : WordOp} {t : Fin 16} {w : Nat} (h : Presents s p op t w)
    (room : sendRoom s p = true) {act : State → Fin 16 → Nat → State} (acts : act (fetched s p t) t w = u) :
    (Host.Outcome.next (sendingWord s p op act) : Out) = .next u := by
  rw [sendingWord_of_room room]
  exact next_issueWord h acts

/-- A FOR whose count is not 0 (08 R231). -/
theorem execLoopFor_of_pos {s : State} {p : Pid} {t : Fin 16} {w : Nat} (h : Presents s p .for_ t w)
    (pos : forCount ((fetched s p t).task p t) w ≠ 0) :
    execLoopFor p s = .next (advance ((fetched s p t).modTask p t (fun x => { x with
      loops := ⟨forCount ((fetched s p t).task p t) w, x.pc + 1, bits w 88 64⟩ :: x.loops })) p t) :=
  next_issueWord h (if_neg pos)

/-- A NEXT whose loop has iterations left (08 R231). -/
theorem execLoopNext_of_more {s : State} {p : Pid} {t : Fin 16} {w : Nat} {l : Loop} {r : List Loop}
    (h : Presents s p .next t w) (top : ((fetched s p t).task p t).loops = l :: r) (more : 1 < l.count) :
    execLoopNext p s = .next (jumpTo ((fetched s p t).modTask p t (fun x => { x with
      loops := { l with count := l.count - 1 } :: r })) p t l.body) := by
  have left : l.count - 1 ≠ 0 := Nat.sub_ne_zero_of_lt more
  refine next_issueWord h ?_
  simp only [top, if_neg left]

/-- A NEXT whose loop has run its last iteration (08 R231). -/
theorem execLoopNext_of_last {s : State} {p : Pid} {t : Fin 16} {w : Nat} {l : Loop} {r : List Loop}
    (h : Presents s p .next t w) (top : ((fetched s p t).task p t).loops = l :: r) (last : l.count ≤ 1) :
    execLoopNext p s = .next (advance ((fetched s p t).modTask p t (fun x => { x with loops := r })) p t) := by
  have done : l.count - 1 = 0 := Nat.sub_eq_zero_of_le last
  refine next_issueWord h ?_
  simp only [top, if_pos done]

end Sys2Proof.Machine

namespace Sys2Proof

open Sys2Proof.Machine

/-- Settles O26: the operation of each word tests its condition on the state after the fetch, TIMEAT at the instant
given. -/
theorem waitWordsComplete : Obligations.WaitWordsComplete :=
  ⟨fun _ _ _ _ full => next_issueWord full rfl,
    fun _ _ _ _ empty => next_issueWord empty rfl,
    fun _ _ _ _ counter => next_issueWord counter rfl,
    fun _ _ _ _ signal => next_issueWord signal rfl,
    fun _ _ _ _ _ abs => next_issueWord abs rfl,
    fun _ _ _ _ _ rel => next_issueWord rel rfl⟩

/-- Settles O27: the two cases of FOR by its count and of NEXT by what is left of the loop, every other word by its
operation. -/
theorem branchWordsComplete : Obligations.BranchWordsComplete :=
  ⟨fun _ _ _ _ h zero => next_issueWord h (if_pos zero),
    fun _ _ _ _ h pos => execLoopFor_of_pos h pos,
    fun _ _ _ _ _ _ h top more => execLoopNext_of_more h top more,
    fun _ _ _ _ _ _ h top last => execLoopNext_of_last h top last,
    fun _ _ _ _ jump => next_issueWord jump rfl,
    fun _ _ _ _ jumpIf => next_issueWord jumpIf rfl,
    fun _ _ _ _ loadi => next_issueWord loadi rfl,
    fun _ _ _ _ addi => next_issueWord addi rfl,
    fun _ _ _ _ readreg => next_issueWord readreg rfl⟩

/-- Settles O28: RAISE by the room in the send queue, every other word by its operation. -/
theorem taskWordsComplete : Obligations.TaskWordsComplete :=
  ⟨fun _ _ _ _ spawn => next_issueWord spawn rfl,
    fun _ _ _ _ ends => next_issueWord ends rfl,
    fun _ _ _ _ yields => next_issueWord yields rfl,
    fun _ _ _ _ h room => next_sendingWord h room rfl,
    fun _ _ full => congrArg Host.Outcome.next (sendingWord_of_full full _ _)⟩

end Sys2Proof
end

section
/-! PROOFS. Signals, completions and releases between skillets: the words that send them and what a message does where it
arrives (08 R228, R229, 09 R270-R278). -/

namespace Sys2Proof.Machine

/-- A COMPLETE to the skillet of its logical number (08 R228). -/
theorem execRemoteComplete_of_room {s : State} {p q : Pid} {t : Fin 16} {w : Nat} (h : Presents s p .remoteComplete t w)
    (room : sendRoom s p = true) (target : (countSignal (fetched s p t) p).pidOf (bits w 111 106) = some q) :
    execRemoteComplete p s =
      .next (advance (sendSk (countSignal (fetched s p t) p) .remoteComplete p q.val (bits w 105 94)) p t) := by
  refine next_sendingWord h room ?_
  simp only [target, finishWord_zero]

/-- A RELEASE to the skillet of its logical number (08 R228). -/
theorem execRemoteRelease_of_room {s : State} {p q : Pid} {t : Fin 16} {w : Nat} (h : Presents s p .remoteRelease t w)
    (room : sendRoom s p = true) (target : (countSignal (fetched s p t) p).pidOf (bits w 111 106) = some q) :
    execRemoteRelease p s =
      .next (advance (sendSk (countSignal (fetched s p t) p) .remoteRelease p q.val (bits w 105 94)) p t) := by
  refine next_sendingWord h room ?_
  simp only [target, finishWord_zero]

section
variable {s : State} {kind : CobaltKind} {src : Nat} {p : Pid} {m : CobaltMsg} {rest : List CobaltMsg}

/-- A message of the epoch in force, from a source that may send it, acts at its node (09 R271, R277). -/
theorem receiveMsg_of_admitted (live : s.nodeLive p.val = true)
    (took : takeMsg s.mesh.cobalt kind src p.val = some (m, rest)) (epoch : m.epoch = s.mesh.epoch)
    (admitted : cobaltAdmitted m = true) (act : State → Nat → State) :
    receiveMsg s kind src p act = act (recvCobalt { s with mesh := { s.mesh with cobalt := rest } } p.val) m.arg := by
  simp [receiveMsg, live, took, epoch, admitted]

/-- Any other message is discarded and counted (09 R271, R277). -/
theorem receiveMsg_of_discarded (live : s.nodeLive p.val = true)
    (took : takeMsg s.mesh.cobalt kind src p.val = some (m, rest))
    (bad : m.epoch ≠ s.mesh.epoch ∨ cobaltAdmitted m = false) (act : State → Nat → State) :
    receiveMsg s kind src p act = { s with mesh := { s.mesh with cobalt := rest } }.modRt (nodeOf p)
      (fun r => { r with cobaltDiscarded := sat64 r.cobaltDiscarded 1 }) := by
  simp [receiveMsg, live, took, bad]

end

end Sys2Proof.Machine

namespace Sys2Proof

open Sys2Proof.Machine

/-- Settles O29: the words by the room in the send queue, the messages by whether their node admits them. -/
theorem signalsComplete : Obligations.SignalsComplete :=
  ⟨fun _ _ _ _ send room => next_sendingWord send room rfl,
    fun _ _ _ _ _ h room target => execRemoteComplete_of_room h room target,
    fun _ _ _ _ _ h room target => execRemoteRelease_of_room h room target,
    fun _ _ full => ⟨congrArg Host.Outcome.next (sendingWord_of_full full _ _),
      congrArg Host.Outcome.next (sendingWord_of_full full _ _), congrArg Host.Outcome.next (sendingWord_of_full full _ _)⟩,
    fun _ _ _ _ _ live took epoch admitted => congrArg Host.Outcome.next (receiveMsg_of_admitted live took epoch admitted _),
    fun _ _ _ _ _ live took epoch admitted => congrArg Host.Outcome.next (receiveMsg_of_admitted live took epoch admitted _),
    fun _ _ _ _ _ live took epoch admitted => congrArg Host.Outcome.next (receiveMsg_of_admitted live took epoch admitted _),
    fun _ _ _ _ _ live took bad => congrArg Host.Outcome.next (receiveMsg_of_discarded live took bad _)⟩

end Sys2Proof
end

section
/-! PROOFS. The steward's commands to a skillet's sequencer and tap banks, and the sequencer's own events (08 R217-R219,
R226, R245, 13 R404, R405). -/

namespace Sys2Proof.Machine

/-! ### A command that a skillet's node receives -/

/-- A command that a skillet's node receives is counted there (09 R280), which touches no skillet. -/
theorem recvCobalt_pid (s : State) (p : Pid) :
    recvCobalt s p.val = s.modRt (nodeOf p) (fun r => { r with cobaltReceived := sat64 r.cobaltReceived 1 }) :=
  dif_pos (nodeOf p).isLt

@[simp] theorem recvCobalt_sk (s : State) (p q : Pid) : (recvCobalt s p.val).sk q = s.sk q := by
  rw [recvCobalt_pid]
  rfl

@[simp] theorem recvCobalt_sq (s : State) (p q : Pid) : (recvCobalt s p.val).sq q = s.sq q :=
  congrArg Skillet.seq (recvCobalt_sk s p q)

@[simp] theorem recvCobalt_pn (s : State) (p q : Pid) : (recvCobalt s p.val).pn q = s.pn q :=
  congrArg Skillet.pantry (recvCobalt_sk s p q)

@[simp] theorem recvCobalt_task (s : State) (p q : Pid) (t : Fin 16) : (recvCobalt s p.val).task q t = s.task q t := by
  simp [State.task]

/-- TASK_START of a FREE task (08 R219). -/
theorem execTaskStart_of_free {s : State} {p : Pid} {task : Fin 16} (live : s.nodeLive p.val = true)
    (powered : (recvCobalt s p.val).sequences p = true) (free : (s.task p task).st = .free) (pc : BitVec 25) (arg : W64) :
    execTaskStart p task pc arg s = .next (sendReply (kick ((recvCobalt s p.val).modTask p task (fun _ => {
      pc := pc.toNat, tr := vset (Vector.replicate 8 0) 0 arg, st := .ready, inc := (s.task p task).inc })) p)
      p.val 0 []) := by
  simp [execTaskStart, startTask, live, powered, free]

/-- HALT_ALL at a live skillet whose sequencer is powered (08 R219). -/
theorem execHaltAll_of_live {s : State} {p : Pid} (live : s.nodeLive p.val = true) (powered : s.sequences p = true) :
    execHaltAll p s = .next (haltAll (recvCobalt s p.val) p) := by
  simp [execHaltAll, live, powered]

/-- CLEAR_LOSS at a live skillet (08 R219). -/
theorem execClearLoss_of_live {s : State} {p : Pid} (live : s.nodeLive p.val = true) :
    execClearLoss p s = .next (clearLoss (recvCobalt s p.val) p) := by
  simp [execClearLoss, live]

/-- TAP_CLEAR_IDLE at a live skillet (13 R404). -/
theorem execTapClearIdle_of_live {s : State} {p : Pid} (live : s.nodeLive p.val = true) :
    execTapClearIdle p s = .next (clearIdle (recvCobalt s p.val) p) := by
  simp [execTapClearIdle, live]

/-- TAP_CLEAR_ACTIVE at a live skillet (13 R404). -/
theorem execTapClearActive_of_live {s : State} {p : Pid} (live : s.nodeLive p.val = true) :
    execTapClearActive p s = .next (clearActive (recvCobalt s p.val) p) := by
  simp [execTapClearActive, live]

/-- A bank switch at a skillet that does not train (13 R405). -/
theorem tapSwitch_of_not_training {s : State} {p : Pid} (other : p ∉ trainingPids s) :
    tapSwitch s p = s.modSk p (fun k => { k with taps := k.taps.switch }) := by
  have still : p ∉ trainingPids (s.modSk p (fun k => { k with taps := k.taps.switch })) := other
  simp [tapSwitch, still]

/-- TAP_SWITCH at a live skillet that does not train (13 R405). -/
theorem execTapSwitch_of_live {s : State} {p : Pid} (live : s.nodeLive p.val = true) (other : p ∉ trainingPids s) :
    execTapSwitch p s = .next ((recvCobalt s p.val).modSk p (fun k => { k with taps := k.taps.switch })) := by
  have still : p ∉ trainingPids (recvCobalt s p.val) := by rwa [recvCobalt_pid]
  simp [execTapSwitch, live, tapSwitch_of_not_training still]

/-! ### HALT_ALL -/

theorem State.sk_modSk_ne (s : State) {p q : Pid} (f : Skillet → Skillet) (h : q ≠ p) : (s.modSk p f).sk q = s.sk q :=
  vget_vmod_ne s.sks f h.symm

/-- HALT_ALL stops the running task at once unless a shelf command holds it (08 R219). -/
theorem haltTask_of_unheld {q : Seq} (unheld : q.hold = none) (t : Fin 16) : haltTask q t = (vget q.tasks t).halt := by
  simp [haltTask, unheld]

/-- HALT_ALL stops every task but the running one at once (08 R219). -/
theorem haltTask_of_other {q : Seq} {t k : Fin 16} (runs : q.current = some t) (other : k ≠ t) :
    haltTask q k = (vget q.tasks k).halt := by
  simp [haltTask, runs, other.symm]

theorem haltTask_status (q : Seq) (t : Fin 16) : (haltTask q t).status = 0 := by
  unfold haltTask
  dsimp only
  split <;> rfl

@[simp] theorem haltAll_task (s : State) (p : Pid) (k : Fin 16) : (haltAll s p).task p k = haltTask (s.sq p) k := by
  simp [haltAll, State.task, State.sq, vget]

@[simp] theorem haltAll_sg (s : State) (p : Pid) : ((haltAll s p).sq p).sg = Vector.replicate 64 0 := by
  simp [haltAll, State.sq]

@[simp] theorem haltAll_current (s : State) (p : Pid) :
    ((haltAll s p).sq p).current = if (s.sq p).hold.isSome then (s.sq p).current else none :=
  congrArg (fun k => k.seq.current) (State.sk_modSk s p _)

@[simp] theorem haltAll_halting (s : State) (p : Pid) :
    ((haltAll s p).sq p).halting = ((s.sq p).hold.isSome && (s.sq p).current.isSome) := by
  simp [haltAll, State.sq]

@[simp] theorem haltAll_queue (s : State) (p : Pid) : ((haltAll s p).wh p).queue = [] := by
  simp [haltAll, State.wh]

@[simp] theorem haltAll_mem (s : State) (p : Pid) : ((haltAll s p).pn p).mem = (s.pn p).mem := by
  simp [haltAll, State.pn]

@[simp] theorem haltAll_memopQueue (s : State) (p : Pid) :
    ((haltAll s p).pn p).memopQueue = (s.pn p).memopQueue.filter (fun m => memopReady s p m) := by
  simp [haltAll, State.pn]

theorem haltAll_sk_ne (s : State) {p q : Pid} (h : q ≠ p) : (haltAll s p).sk q = s.sk q :=
  State.sk_modSk_ne s _ h

/-- A task that HALT_ALL stops at once (08 R219). -/
theorem haltAll_task_of_unheld {s : State} {p : Pid} (unheld : (s.sq p).hold = none) (k : Fin 16) :
    (haltAll s p).task p k = (s.task p k).halt := by
  rw [haltAll_task, haltTask_of_unheld unheld, State.task]

/-- A task that does not run when HALT_ALL comes (08 R219). -/
theorem haltAll_task_of_other {s : State} {p : Pid} {t k : Fin 16} (runs : (s.sq p).current = some t) (other : k ≠ t) :
    (haltAll s p).task p k = (s.task p k).halt := by
  rw [haltAll_task, haltTask_of_other runs other, State.task]

/-- The memory operations that HALT_ALL leaves wait on no slot (08 R219). -/
theorem memopReady_of_mem_haltAll {s : State} {p : Pid} {m : MemOp} (kept : m ∈ ((haltAll s p).pn p).memopQueue) :
    memopReady s p m = true := by
  rw [haltAll_memopQueue] at kept
  exact (List.mem_filter.mp kept).2

/-! ### The sequencer's own events -/

/-- The slice of the running task expires while another is READY (08 R218). -/
theorem execSliceExpired_of_ready {s : State} {p : Pid} {t : Fin 16} (runs : (s.sq p).current = some t)
    (unheld : (s.sq p).hold = none) (ready : (s.sq p).tasks.toList.any (fun x => x.st == .ready) = true) :
    execSliceExpired p s = .next (leaveRunning (s.modSq p (fun q => { q with
      sliceExpired := sat64 q.sliceExpired 1 })) p t .ready) := by
  simp only [execSliceExpired, runs, unheld, ready, Option.isSome_none, Bool.not_true, Bool.or_self, Bool.false_eq_true,
    if_false]

/-- A WAITING task whose condition holds (08 R217). -/
theorem execTaskWake_of_holds {s : State} {p : Pid} {t : Fin 16} {frac : Fin 1024} (waits : (s.task p t).st = .waiting)
    (holds : wakeHolds s p t ((s.atFrac frac.val).fracAt p.val) = true) :
    execTaskWake p t frac s = .next (kick ((s.atFrac frac.val).modTask p t Task.wake) p) := by
  simp [execTaskWake, waits, holds]

/-- A woken task is past its wait word, or before the word that waited for acceptance (08 R217, R218). -/
theorem Task.wake_fields (x : Task) : (Task.wake x).st = .ready ∧ (Task.wake x).waitKind = 0 ∧ (Task.wake x).tr = x.tr
    ∧ (Task.wake x).pc = (match wordOp x.word with | some .issue | some .run => x.pc | _ => (x.pc + 1) % 2 ^ 25) := by
  unfold Task.wake
  split <;> simp_all

/-- A parity error in the table at a task that has neither ended nor faulted (08 R226). -/
theorem execTaskTableParity_of_live {s : State} {p : Pid} {t : Fin 16} (notFree : (s.task p t).st ≠ .free)
    (notFaulted : (s.task p t).st ≠ .faulted) : execTaskTableParity p t s = .next (taskFault s p t 4) := by
  simp [execTaskTableParity, notFree, notFaulted]

end Sys2Proof.Machine

namespace Sys2Proof

open Sys2Proof.Machine

/-- Settles O31, each command and event by its lemma above. That TAP_CLEAR_ACTIVE keeps TAP_TABLE_FULL from being raised
anew is the model's choice (notes/assumptions/65). -/
theorem sequencerCommandsComplete : Obligations.SequencerCommandsComplete := by
  refine ⟨fun _ _ _ pc arg live powered free => execTaskStart_of_free live powered free pc arg,
    fun _ _ live powered => execHaltAll_of_live live powered, fun s p unheld => ?unheld, fun s p t held runs => ?held,
    fun _ _ live => execClearLoss_of_live live, fun _ _ _ runs unheld ready => execSliceExpired_of_ready runs unheld ready,
    fun _ _ _ _ waits holds => execTaskWake_of_holds waits holds, Task.wake_fields,
    fun _ _ _ notFree notFaulted => execTaskTableParity_of_live notFree notFaulted,
    fun _ _ live other => execTapSwitch_of_live live other, fun _ _ live => execTapClearIdle_of_live live,
    fun _ _ live => execTapClearActive_of_live live⟩
  case unheld =>
    have unheld' : ((recvCobalt s p.val).sq p).hold = none := by rwa [recvCobalt_sq]
    refine ⟨_, rfl, fun k => ?_, haltAll_sg .., by simp [unheld], haltAll_queue .., by simp,
      fun m kept => memopReady_of_mem_haltAll kept, fun q other => ?_⟩
    · rw [haltAll_task_of_unheld unheld', recvCobalt_task]
      exact ⟨rfl, rfl, rfl, rfl, rfl, rfl⟩
    · rw [haltAll_sk_ne _ other, recvCobalt_sk]
  case held =>
    have runs' : ((recvCobalt s p.val).sq p).current = some t := by rwa [recvCobalt_sq]
    refine ⟨by simp [held, runs], by simp [held, runs], ?_, fun k other => ?_⟩
    · rw [haltAll_task, haltTask_status]
    · rw [haltAll_task_of_other runs' other]
      rfl

end Sys2Proof
end

section
/-! PROOFS. The whisk (08 R232, R239, R240, R243): a RUN whose descriptor stands, the start and the end of an operation, and
its faults. -/

namespace Sys2Proof.Machine

/-- A RUN of a descriptor that stands, with room in the queue (08 R232, R240). -/
theorem execWhiskRun_of_stands {s : State} {p : Pid} {t : Fin 16} {w : Nat} (h : Presents s p .run t w)
    (room : ((fetched s p t).wh p).queue.length < 4) (within : bits w 111 89 * 64 + 64 ≤ paLimit) {r : ReadRes × State}
    (hr : readRange (fetched s p t) p 4 (bits w 111 89 * 64) 64 = r)
    (stands : whiskStatus (r.2.pn p) (bits w 111 89) (whiskDescOf r.1.bytes) = 0) :
    execWhiskRun p s = .next (advance (r.2.modWh p (fun h => { h with
      queue := h.queue ++ [
        { addr := bits w 111 89, desc := whiskDescOf r.1.bytes, issuer := issuerOf (fetched s p t) p t w }] })) p t) := by
  subst hr
  refine next_issueWord h ?_
  simp only [if_neg (Nat.not_le.mpr room), if_neg (Nat.not_lt.mpr within), stands, finishWord_zero]

/-- The whisk may take its next operation (08 R232, R243): it is on, runs none and is not halted. -/
structure WhiskFree (s : State) (p : Pid) : Prop where
  idle : (s.wh p).running = none
  unhalted : (s.wh p).halted = false
  on : s.computeOn p = true

section
variable {s : State} {p : Pid} {x : WhiskOp}

/-- The oldest operation starts, where its slots let it and its shape is not empty (08 R232). -/
theorem execWhiskOpStart_of_shaped {b : State} {errs : List (Nat × Bool)} {rest : List WhiskOp} (hs : strike b p errs = s)
    (head : (s.wh p).queue = x :: rest) (free : WhiskFree s p) (rows : x.desc.rows ≠ 0) (cols : x.desc.cols ≠ 0)
    (slots : whiskSlotsOk (s.modWh p (fun h => { h with queue := rest })) p x.desc = true) :
    execWhiskOpStart p errs b = .next (startWhisk (s.modWh p (fun h => { h with queue := rest })) p x) := by
  subst hs
  simp [execWhiskOpStart, head, free.idle, free.unhalted, free.on, rows, cols, slots]

/-- An operation of no rows or columns ends at once (08 R232). -/
theorem execWhiskOpStart_of_empty {b : State} {errs : List (Nat × Bool)} {rest : List WhiskOp} (hs : strike b p errs = s)
    (head : (s.wh p).queue = x :: rest) (free : WhiskFree s p) (empty : x.desc.rows = 0 ∨ x.desc.cols = 0) :
    execWhiskOpStart p errs b = .next (postCompletion ((whiskSlots (s.modWh p (fun h => { h with queue := rest })) p
      x.desc).modWh p (fun h => { h with ops := sat64 h.ops 1 })) p x.issuer 0) := by
  subst hs
  simp [execWhiskOpStart, head, free.idle, free.unhalted, free.on, empty]

/-- The end of an operation that has met no fault and whose writes are all accepted (08 R232, R239). -/
theorem whiskEnd_of_accepted (runs : (s.wh p).running = some x) (clean : x.fault = 0) {o : Bool × State}
    (ho : x.outs.foldl (fun r e => ((r.1 && (writeRange r.2 p 4 e.1 e.2).1), (writeRange r.2 p 4 e.1 e.2).2)) (true, s) = o)
    (accepted : o.1 = true) :
    whiskEnd s p = (
      let u := o.2.modWh p (fun h => { h.addLosses x.losses with
        running := none, ops := sat64 h.ops 1, elements := sat64 h.elements (x.desc.rows * x.desc.cols) })
      postCompletion (whiskSlots (if x.taps.isEmpty then u else tapBins u p x.taps) p x.desc) p x.issuer 0) := by
  subst ho
  simp [whiskEnd, runs, clean, accepted]

/-- A fault that the running operation has met, or a parity error, halts the queue (08 R243). -/
theorem execWhiskFault_of_met {cause : Nat} (runs : (s.wh p).running = some x) (unhalted : (s.wh p).halted = false)
    (met : cause = 3 ∨ (cause ≠ 0 ∧ x.fault = cause)) :
    execWhiskFault p cause s = .next (raiseSk (s.modWh p (fun h => { h with
      halted := true, cause := cause, running := none })) p 4 .whiskFault (names [x.addr, cause])) := by
  have fires : (cause = 3 || (cause != 0 && x.fault = cause)) = true := by simpa using met
  simp only [execWhiskFault, runs, unhalted, fires, Bool.not_true, Bool.or_self, Bool.false_eq_true, if_false]

end

end Sys2Proof.Machine

namespace Sys2Proof

open Sys2Proof.Machine

/-- Settles O32, by the lemma of each command above. -/
theorem whiskComplete : Obligations.WhiskComplete :=
  ⟨fun _ _ _ _ h room within stands => execWhiskRun_of_stands h room within rfl stands,
    fun _ _ _ _ _ head idle unhalted on rows cols slots =>
      execWhiskOpStart_of_shaped rfl head ⟨idle, unhalted, on⟩ rows cols slots,
    fun _ _ _ _ _ head idle unhalted on empty => execWhiskOpStart_of_empty rfl head ⟨idle, unhalted, on⟩ empty,
    fun _ _ _ runs clean accepted => congrArg Host.Outcome.next (whiskEnd_of_accepted runs clean rfl accepted),
    fun _ _ _ _ runs unhalted met => execWhiskFault_of_met runs unhalted met⟩

end Sys2Proof
end

section
/-! PROOFS. The steward's messages to the mesh (09 R255, R268, R271, R274, R277): MESH_CTL, a table write and a parity error
at a node. -/

namespace Sys2Proof.Machine

/-! ### A MESH_CTL message at the nodes -/

/-- What no change of a router touches, the count of a received message leaves (09 R280). -/
theorem recvCobalt_keeps {β : Type} {view : State → β} (h : ∀ t n f, view (t.modRt n f) = view t) (s : State) (node : Nat) :
    view (recvCobalt s node) = view s := by
  unfold recvCobalt
  split
  · exact h ..
  · rfl

/-- What no change of a router touches, a MESH_CTL message leaves: the nodes only count it (09 R277, R280). -/
theorem meshCtl_keeps {β : Type} {view : State → β} (h : ∀ t n f, view (t.modRt n f) = view t) (s : State) :
    view (meshCtl s) = view s := by
  refine foldl_keeps view (fun t n => ?_) _ s
  split
  · exact recvCobalt_keeps h t n
  · rfl

section
variable (s : State)

@[simp] theorem meshCtl_epoch : (meshCtl s).mesh.epoch = s.mesh.epoch :=
  meshCtl_keeps (view := fun t => t.mesh.epoch) (fun _ _ _ => rfl) s

@[simp] theorem meshCtl_bank : (meshCtl s).mesh.bank = s.mesh.bank :=
  meshCtl_keeps (view := fun t => t.mesh.bank) (fun _ _ _ => rfl) s

@[simp] theorem meshCtl_westHalf : (meshCtl s).mesh.westHalf = s.mesh.westHalf :=
  meshCtl_keeps (view := fun t => t.mesh.westHalf) (fun _ _ _ => rfl) s

@[simp] theorem meshCtl_eastHalf : (meshCtl s).mesh.eastHalf = s.mesh.eastHalf :=
  meshCtl_keeps (view := fun t => t.mesh.eastHalf) (fun _ _ _ => rfl) s

@[simp] theorem meshCtl_outQ : (meshCtl s).mesh.outQ = s.mesh.outQ :=
  meshCtl_keeps (view := fun t => t.mesh.outQ) (fun _ _ _ => rfl) s

@[simp] theorem meshCtl_cobalt : (meshCtl s).mesh.cobalt = s.mesh.cobalt :=
  meshCtl_keeps (view := fun t => t.mesh.cobalt) (fun _ _ _ => rfl) s

@[simp] theorem meshCtl_sks : (meshCtl s).sks = s.sks :=
  meshCtl_keeps (view := State.sks) (fun _ _ _ => rfl) s

end

/-! ### RELEASE and the clocks -/

section
variable {s : State} {half : Bool}

/-- A RELEASE with no bank written during the hold leaves the routes (09 R271). -/
theorem releaseMesh_of_unwritten (unwritten : s.mesh.banksWritten = false) :
    releaseMesh s = { meshCtl s with mesh := { (meshCtl s).mesh with
      epoch := (s.mesh.epoch + 1) % 4, hold := false, banksWritten := false } } := by
  simp [releaseMesh, unwritten]

/-- A RELEASE with a bank written during the hold switches the routes (09 R255, R271). -/
theorem releaseMesh_of_written (written : s.mesh.banksWritten = true) :
    releaseMesh s = raiseMod { meshCtl s with mesh := { (meshCtl s).mesh with
      epoch := (s.mesh.epoch + 1) % 4, hold := false, bank := 1 - s.mesh.bank, banksWritten := false } } .routesRebuilt
      (names [1 - s.mesh.bank]) := by
  simp [releaseMesh, written]

/-- RELEASE in a powered module (09 R271, R277). -/
theorem execMeshRelease_of_powered (powered : s.powered = true) :
    execMeshRelease s = .next (sendReply (releaseMesh s) 67 0 []) := by
  simp [execMeshRelease, powered]

/-- The west half takes the other clock (09 R268, R277). -/
theorem clockCtl_west_of_change (powered : s.powered = true) (change : s.mesh.westHalf ≠ half) :
    clockCtl s false half = sendReply (raiseMod { meshCtl s with mesh := { (meshCtl s).mesh with westHalf := half } }
      .meshClockChanged (names [0, b2n half])) 67 0 [] := by
  simp [clockCtl, setHalf, powered, change, b2n]

/-- The east half takes the other clock (09 R268, R277). -/
theorem clockCtl_east_of_change (powered : s.powered = true) (change : s.mesh.eastHalf ≠ half) :
    clockCtl s true half = sendReply (raiseMod { meshCtl s with mesh := { (meshCtl s).mesh with eastHalf := half } }
      .meshClockChanged (names [1, b2n half])) 67 0 [] := by
  simp [clockCtl, setHalf, powered, change, b2n]

end

/-! ### Tables and parity -/

section
variable {s : State} {node : Fin 68} (live : s.nodeLive node.val = true)
include live

/-- TABLE_WRITE at a live node (09 R255, R277). -/
theorem execTableWrite_of_live (dest : Fin 128) (entry : W64) :
    execTableWrite node dest entry s = .next (
      let u := s.modRt node (fun r => { r with
        tables := vmod r.tables (Fin.ofNat 2 (1 - s.mesh.bank)) (fun t => Tab.put t dest.val (Config.tableEntry entry)),
        cobaltReceived := sat64 r.cobaltReceived 1 })
      { u with mesh := { u.mesh with banksWritten := true } }) := by
  simp [execTableWrite, live]

/-- A parity error in a router of a live node (09 R274). -/
theorem execRouterParity_of_router :
    execRouterParity node false s = .next ((raise s node.val .routerParity (routerPloc node) (names [0])).modRt node
      (fun r => { r with faulty := true })) := by
  simp [execRouterParity, live, b2n]

/-- A parity error in the cobalt node of a live node (09 R274). -/
theorem execRouterParity_of_cobalt :
    execRouterParity node true s = .next ((raise s node.val .routerParity
      (if node.val < 64 then plocUnit node.val 0x11 else routerPloc node) (names [1])).modRt node
      (fun r => { r with cobaltFaulty := true })) := by
  simp [execRouterParity, live, b2n]

end

end Sys2Proof.Machine

namespace Sys2Proof

open Sys2Proof.Machine

/-- Settles O33, RELEASE by whether a bank was written, the clocks by their half. That a MESH_CTL message counts at every
live node and that node 67 answers it are the model's choices (notes/assumptions/64 and 27). -/
theorem meshControlComplete : Obligations.MeshControlComplete := by
  refine ⟨fun s powered unwritten => ?unwritten, fun s powered written => ?written,
    fun s => ⟨meshCtl_epoch s, meshCtl_bank s, meshCtl_outQ s, meshCtl_cobalt s, meshCtl_sks s⟩,
    fun _ powered slow => congrArg Host.Outcome.next (clockCtl_west_of_change powered (by simp [slow])),
    fun _ powered fast => congrArg Host.Outcome.next (clockCtl_west_of_change powered (by simp [fast])),
    fun _ powered slow => congrArg Host.Outcome.next (clockCtl_east_of_change powered (by simp [slow])),
    fun _ powered fast => congrArg Host.Outcome.next (clockCtl_east_of_change powered (by simp [fast])),
    fun _ _ dest entry live => execTableWrite_of_live live dest entry,
    fun _ _ live => execRouterParity_of_router live, fun _ _ live => execRouterParity_of_cobalt live⟩
  case unwritten =>
    rw [← releaseMesh_of_unwritten unwritten]
    exact execMeshRelease_of_powered powered
  case written =>
    rw [← releaseMesh_of_written written]
    exact execMeshRelease_of_powered powered

end Sys2Proof
end

section
/-! PROOFS. The registers over the cobalt network (09 R271, R277, 13 R404): REG_READ, REG_WRITE and what the steward takes
from a node. -/

namespace Sys2Proof.Machine

/-! ### Reads and writes -/

section
variable {s : State} {node : Fin 69} {unit : Fin 32} {off : Nat}

theorem unitReserved_of_skillet {node unit : Nat} (skillet : node < 64) :
    unitReserved node unit = decide (0x10 < unit) := if_pos skillet

/-- No unit of a skillet has what passes only until it is read (10 R319, R320). -/
theorem passRefreshes_of_skillet {node : Nat} (skillet : node < 64) (s : State) (unit : Nat) :
    passRefreshes s node unit = s := by
  simp [passRefreshes, Nat.not_le.mpr skillet]

/-- REG_READ of a register of a live skillet (09 R277). -/
theorem execRegRead_of_value {v : Nat} (live : s.nodeLive node.val = true) (skillet : node.val < 64)
    (named : unit.val ≤ 0x10) (aligned : off % 8 = 0)
    (value : regValue (recvCobalt s node.val) node.val unit.val off = some v) :
    execRegRead node unit off s = .next (sendReply (recvCobalt s node.val) node.val 0 [v]) := by
  have unreserved : unitReserved node.val unit.val = false := by
    rw [unitReserved_of_skillet skillet]
    exact decide_eq_false (Nat.not_lt.mpr named)
  simp [execRegRead, live, unreserved, passRefreshes_of_skillet skillet, aligned, value]

/-- REG_READ of a reserved unit of a live node (09 R277). -/
theorem execRegRead_of_reserved (live : s.nodeLive node.val = true) (reserved : unitReserved node.val unit.val = true) :
    execRegRead node unit off s = .next (sendReply (recvCobalt s node.val) node.val stReserved []) := by
  simp [execRegRead, live, reserved]

/-- REG_WRITE of a register that a write changes (09 R277). -/
theorem execRegWrite_of_written {value : W64} {status : Nat} {u : State} (live : s.nodeLive node.val = true)
    (unreserved : unitReserved node.val unit.val = false)
    (written : writeReg (recvCobalt s node.val) node.val unit.val off value.toNat = some (status, u)) :
    execRegWrite node unit off value s = .next (sendReply u node.val status []) := by
  simp [execRegWrite, live, unreserved, written]

end

/-! ### LATE_LIMIT of a ladle -/

/-- A limit in its range is accepted (07 R214). -/
theorem limitStatus_of_range {v : Nat} (low : 64 ≤ v) (high : v ≤ 1048576) : limitStatus v = 0 := by
  rw [limitStatus, natRange, if_neg (Nat.not_lt.mpr low), if_neg (Nat.not_lt.mpr high)]

/-- A limit above its range is refused (07 R214). -/
theorem limitStatus_of_above {v : Nat} (above : 1048576 < v) : limitStatus v = stAbove := by
  rw [limitStatus, natRange, if_neg (by omega), if_pos above]

/-- LATE_LIMIT of a ladle takes a limit by its range (07 R214). -/
theorem writeReg_lateLimit (s : State) (p : Pid) (l : Fin 8) (v : Nat) :
    writeReg s p.val (8 + l.val) 0x40 v =
      some (accept (limitStatus v) s (s.modLd p l (fun d => { d with lateLimit := v }))) := by
  have ladle : 8 ≤ 8 + l.val ∧ 8 + l.val ≤ 0xF := ⟨Nat.le_add_right .., by omega⟩
  simp [writeReg, ladle]

/-! ### What the steward takes -/

section
variable {s : State} {node : Fin 69} {m : CobaltMsg} {rest : List CobaltMsg}

/-- The steward takes its own messages, and those of a node that are of the epoch in force and admitted (09 R271). -/
theorem stewardTake_of_admitted {kind : CobaltKind} {src : Nat}
    (took : takeMsg s.mesh.cobalt kind src 68 = some (m, rest))
    (admitted : src < 68 → m.epoch = s.mesh.epoch ∧ cobaltAdmitted m = true) :
    stewardTake s kind src = some (some m, { s with mesh := { s.mesh with cobalt := rest } }) := by
  by_cases crosses : src < 68
  case pos =>
    obtain ⟨epoch, admits⟩ := admitted crosses
    simp [stewardTake, took, epoch, admits]
  case neg => simp [stewardTake, took, crosses]

/-- REPLY of an answer that the steward takes (09 R277). -/
theorem execReply_of_admitted (took : takeMsg s.mesh.cobalt .reply node.val 68 = some (m, rest))
    (admitted : node.val < 68 → m.epoch = s.mesh.epoch ∧ cobaltAdmitted m = true) :
    execReply node s = .next { s with mesh := { s.mesh with cobalt := rest } } := by
  simp [execReply, stewardTake_of_admitted took admitted]

/-- EVENT_RECORD of a record that the steward takes (09 R271, 15 R452). -/
theorem execEventRecord_of_admitted {r : EventRec} (on : s.life.st ≠ .off)
    (took : takeMsg s.mesh.cobalt .event node.val 68 = some (m, rest))
    (admitted : node.val < 68 → m.epoch = s.mesh.epoch ∧ cobaltAdmitted m = true) (record : m.record = some r) :
    execEventRecord node s = .next (handleRecord { s with mesh := { s.mesh with cobalt := rest } } r) := by
  simp [execEventRecord, on, stewardTake_of_admitted took admitted, record]

end

end Sys2Proof.Machine

namespace Sys2Proof

open Sys2Proof.Machine

/-- Settles O36: reads and writes by their unit, LATE_LIMIT by its range, and what the steward takes by its epoch. -/
theorem registerMessagesComplete : Obligations.RegisterMessagesComplete := by
  refine ⟨fun _ _ _ _ _ live skillet named aligned value => execRegRead_of_value live skillet named aligned value,
    fun _ _ _ _ live reserved => execRegRead_of_reserved live reserved,
    fun _ _ _ _ _ _ _ live unreserved written => execRegWrite_of_written live unreserved written,
    fun s p l v low high => ?range, fun s p l v above => ?above,
    fun _ _ _ _ took admitted => execReply_of_admitted took admitted,
    fun _ _ _ _ _ on took admitted record => execEventRecord_of_admitted on took admitted record⟩
  case range =>
    rw [writeReg_lateLimit, limitStatus_of_range low high]
    rfl
  case above =>
    rw [writeReg_lateLimit, limitStatus_of_above above]
    rfl

end Sys2Proof
end

section
/-! PROOFS. The stacks and the parts that they and the rim buffers serve (10 R282-R284, R286, R299, R300, R303): the readings,
scrub and failure of a powered stack, and the next MEM flit of a port. -/

namespace Sys2Proof.Machine

/-! ### Readings, scrub and failure -/

section
variable {s : State} (powered : s.powered = true)
include powered

/-- A temperature of 85 °C or more (10 R284): the stack is hot, and STACK_HOT is raised where it was cool. -/
theorem execStackTempRead_of_high {temp : Nat} (sl : Slice) (high : 85 ≤ temp) :
    execStackTempRead sl temp s = .next (
      let t := s.modMc sl (fun m => { m with temp := min temp 255, hot := true })
      if (s.slice sl).mc.hot then t else raiseMc t sl .stackHot (names [temp])) := by
  cases hot : (s.slice sl).mc.hot <;> simp [execStackTempRead, powered, high, hot]

/-- A temperature below 80 °C (10 R284). -/
theorem execStackTempRead_of_low {temp : Nat} (sl : Slice) (low : temp < 80) :
    execStackTempRead sl temp s = .next (s.modMc sl (fun m => { m with temp := temp, hot := false })) := by
  have below : ¬ 85 ≤ temp := by omega
  have held : min temp 255 = temp := by omega
  simp [execStackTempRead, powered, below, low, held]

/-- A temperature from 80 °C to below 85 °C (10 R284): the refresh rate stays. -/
theorem execStackTempRead_of_between {temp : Nat} (sl : Slice) (least : 80 ≤ temp) (below : temp < 85) :
    execStackTempRead sl temp s = .next (s.modMc sl (fun m => { m with temp := temp })) := by
  have held : min temp 255 = temp := by omega
  simp [execStackTempRead, powered, Nat.not_le.mpr below, Nat.not_lt.mpr least, held]

theorem execEcsRead_of_powered (sl : Slice) (n : Nat) :
    execEcsRead sl n s = .next (s.modMc sl (fun m => { m with ecsCorrected := n })) := by
  simp [execEcsRead, powered]

theorem execStackFailed_of_powered (sl : Slice) (channels : BitVec 32) :
    execStackFailed sl channels s = .next (raiseMc (s.modMc sl (fun m => { m with
      link := 2, failed := m.failed ||| channels })) sl .stackFailed (names [channels.toNat])) := by
  simp [execStackFailed, powered]

/-- Scrub of a burst that has an uncorrectable error or is marked already (10 R286). -/
theorem execStackScrub_of_uncorrectable {sl : Slice} {burst : Nat} {e : Ecc} (within : burst < 96 * 2 ^ 24)
    (met : e = .double ∨ (s.slice sl).mc.bad.contains burst = true) :
    execStackScrub sl burst e s = .next (stackUncorrectable s sl burst
      (if persistentLocal s (burst * 64) then .contained else .notice)) := by
  have goes : (decide (96 * 2 ^ 24 ≤ burst) || !s.powered) = false := by simp [powered]; omega
  have bad : (e == .double || (s.slice sl).mc.bad.contains burst) = true := by
    obtain rfl | marked := met
    · rfl
    · rw [marked, Bool.or_true]
  simp only [execStackScrub, goes, bad]
  rfl

/-- Scrub of a burst without an uncorrectable error (10 R286, R288). -/
theorem execStackScrub_of_unmarked {sl : Slice} {burst : Nat} {e : Ecc} (within : burst < 96 * 2 ^ 24)
    (unmarked : (s.slice sl).mc.bad.contains burst = false) (corrigible : e ≠ .double) :
    execStackScrub sl burst e s = .next (if e = .single then stackCorrected s sl burst else s) := by
  have goes : (decide (96 * 2 ^ 24 ≤ burst) || !s.powered) = false := by simp [powered]; omega
  cases e with
  | double => exact absurd rfl corrigible
  | clean | single =>
    simp only [execStackScrub, goes, unmarked]
    rfl

end

/-! ### The parts of a stack (10 R299, R300) -/

section
variable {s t : State} {sl : Fin 36} {f : Flit} (taken : rimTake s (64 + sl.val) [.memRead, .memWrite] = some (f, t))
include taken

/-- MEM_READ of a part of a stack. -/
theorem execMemRead_of_stack (stack : sl.val < 32) (read : f.kind = .memRead) (errs : List (Nat × Bool)) :
    execMemRead sl errs s = .next (if partRefused t f false then
      sendDone (refusePart t ⟨sl.val, stack⟩) (64 + sl.val) f f.len stDescRange else readPart t ⟨sl.val, stack⟩ f errs) := by
  simp [execMemRead, taken, read, stack, apply_ite Host.Outcome.next]

/-- MEM_WRITE of a flit that the controller takes: its last flit answers the part. -/
theorem execMemWrite_of_stack (stack : sl.val < 32) (write : f.kind = .memWrite) (admitted : partRefused t f true = false) :
    execMemWrite sl s = .next (
      let spoilt := f.poison.map (fun g => (f.loc + 8 * g) / 64)
      let u := (writeStack t ⟨sl.val, stack⟩ f.loc f.payload).modMc ⟨sl.val, stack⟩ (fun m => { m with
        bad := spoilt.foldl insertNat m.bad, rewrites := m.rewrites.filter (fun e => !spoilt.contains e.1) })
      if f.last then sendDone u (64 + sl.val) f 0 0 else u) := by
  simp [execMemWrite, taken, write, stack, admitted]

/-- MEM_WRITE of a flit that the controller refuses: its last flit counts and answers the part. -/
theorem execMemWrite_of_refused (stack : sl.val < 32) (write : f.kind = .memWrite) (refused : partRefused t f true = true) :
    execMemWrite sl s = .next (if f.last then
      sendDone (refusePart t ⟨sl.val, stack⟩) (64 + sl.val) f 0 stDescRange else t) := by
  cases last : f.last <;> simp [execMemWrite, taken, write, stack, refused, last]

/-! ### The parts of a rim buffer (10 R303) -/

/-- MEM_READ of a part of a rim buffer. -/
theorem execMemRead_of_buffer {i : Fin 4} (buffer : sl.val = 32 + i.val) (read : f.kind = .memRead)
    (errs : List (Nat × Bool)) : execMemRead sl errs s = .next (readBuffer t i f errs) := by
  have far : ¬ sl.val < 32 := by omega
  have index : Fin.ofNat 4 (sl.val - 32) = i := by simp [buffer]
  simp only [execMemRead, taken, read, far, index]
  rfl

/-- MEM_WRITE of a flit to a rim buffer. -/
theorem execMemWrite_of_buffer {i : Fin 4} (buffer : sl.val = 32 + i.val) (write : f.kind = .memWrite) :
    execMemWrite sl s = .next (
      let u := t.modBuffer i (fun b =>
        { b with
          mem := Mem.store b.mem f.loc f.payload
          poison := (f.poison.map (fun g => f.loc / 8 + g)).foldl insertNat
            (b.poison.filter (fun g => !(f.loc ≤ 8 * g && 8 * g + 8 ≤ f.loc + f.payload.length))) })
      if f.last then sendDone u (64 + sl.val) f 0 0 else u) := by
  have far : ¬ sl.val < 32 := by omega
  have index : Fin.ofNat 4 (sl.val - 32) = i := by simp [buffer]
  simp only [execMemWrite, taken, write, far, index]
  rfl

end

end Sys2Proof.Machine

namespace Sys2Proof

open Sys2Proof.Machine

/-- Settles O37: a powered stack by its temperature and by what scrub meets, a part by its unit, its kind and whether the
controller refuses it. -/
theorem stacksComplete : Obligations.StacksComplete := by
  refine ⟨?heats, ?staysHot, fun _ sl _ powered low => execStackTempRead_of_low powered sl low,
    fun _ sl _ powered least below => execStackTempRead_of_between powered sl least below,
    fun _ sl n powered => execEcsRead_of_powered powered sl n,
    fun _ _ _ _ powered within met => execStackScrub_of_uncorrectable powered within met,
    fun _ _ _ powered within unmarked =>
      ⟨execStackScrub_of_unmarked powered within unmarked (by decide),
        execStackScrub_of_unmarked powered within unmarked (by decide)⟩,
    fun _ sl channels powered => execStackFailed_of_powered powered sl channels, fun _ => rfl,
    fun _ _ _ stack _ errs taken read => execMemRead_of_stack taken stack read errs,
    fun _ _ _ _ _ errs buffer taken read => execMemRead_of_buffer taken buffer read errs,
    fun _ _ _ stack _ taken write admitted => execMemWrite_of_stack taken stack write admitted,
    fun _ _ _ stack _ taken write refused => execMemWrite_of_refused taken stack write refused,
    fun _ _ _ _ _ buffer taken write => execMemWrite_of_buffer taken buffer write⟩
  case heats =>
    intro s sl temp powered high cool
    have read := execStackTempRead_of_high powered sl high
    simp only [cool] at read
    exact read
  case staysHot =>
    intro s sl temp powered high hot
    have read := execStackTempRead_of_high powered sl high
    simp only [hot] at read
    exact read

end Sys2Proof
end

section
/-! PROOFS. Remote accumulate (10 R304, R305, R307, 11 R330, R332) and the faults of the update engines (10 R314): what is
received, applied and dropped, and where a fault stops an engine. -/

namespace Sys2Proof.Machine

/-! ### Operations received (10 R304, 11 R330, R332) -/

/-- The next RIM flit of a slice in ordinary mode: where it is of the command's kind, its operations are received in turn. -/
theorem rimOp_of_taken {s t : State} {sl : Slice} {f : Flit} {add : Bool} (ordinary : s.mesh.ordered = false)
    (taken : rimTake s (64 + sl.val) [.rimWrite, .rimAdd] = some (f, t)) (kind : (f.kind == .rimAdd) = add) :
    rimOp s sl add = noteProgress ((flitOps f add).foldl (fun u o => receiveRa u sl o) t) 0 := by
  simp [rimOp, taken, kind, ordinary]

/-- An operation on a padding block is discarded (11 R332). -/
theorem receiveRa_of_padding {s : State} {o : RaOp} (sl : Slice) (padding : s.padding o.block = true) :
    receiveRa s sl o = s := if_pos padding

/-- An operation for a bucket that is past OPEN (11 R330). -/
theorem receiveRa_of_complete {s : State} {sl : Slice} {o : RaOp} {b : Nat} (real : s.padding o.block = false)
    (bucket : bucketOf s o.block = some b) (complete : bucketComplete s b sl = true) :
    receiveRa s sl o = raiseMc (s.modRed (fun r => { r with overruns := sat64 r.overruns 1 })) sl .bucketOverrun
      (names [s.commit.step, b]) := by
  simp [receiveRa, real, bucket, complete]

/-! ### Operations applied and dropped (10 R304, R305, R307) -/

theorem applyRa_of_write {s : State} {o : RaOp} (sl : Slice) (write : o.add = false) :
    applyRa s sl o = (writeBlock s o.block o.g).modMc sl (fun m => { m with raWrites := sat64 m.raWrites 1 }) := by
  simp [applyRa, write]

section
variable {s t : State} {sl : Slice} {block : Nat} {o : RaOp} (taken : takeRa s sl block = some (o, t))
include taken

/-- The adder applies its next operation on a block; one of source 64 is a ring's delivery (11 R334). -/
theorem execRaBlockOp_of_taken : execRaBlockOp sl block s =
    .next (if o.src = 64 then ringDelivered (applyRa t sl o) sl block else applyRa t sl o) := by
  simp [execRaBlockOp, taken]

/-- Parity at the adder drops the operation. -/
theorem execRaFault_of_taken : execRaFault sl block s = .next (raiseMc t sl .raFault (names [block])) := by
  simp [execRaFault, taken]

end

/-! ### Faults of an update engine (10 R314) -/

/-- Outside G the engine has dealt with no blocks before the one at fault. -/
theorem ueReach_of_not_update {s : State} {sl : Slice} (block cause : Nat) (other : (s.slice sl).ue.phase ≠ 2) :
    ueReach s sl block cause = s := by
  simp [ueReach, other]

/-- A fault of an engine at work on a block: parity where it has met no poisoned input, or the poisoned input that it has
met. -/
theorem execUeFault_of_met {s : State} {sl : Slice} {cause block : Nat} (works : (s.slice sl).ue.phase ≠ 0)
    (goes : (s.slice sl).ue.stopped = false) (reached : ueAt s sl block = true)
    (met : cause = 1 ∧ ((ueReach s sl block cause).slice sl).ue.poisonAt = none
      ∨ cause = 2 ∧ ((ueReach s sl block cause).slice sl).ue.poisonAt = some block) :
    execUeFault sl cause block s = .next (raiseUe ((ueReach s sl block cause).modUe sl (fun u => { u with
      phase := 0, cause := cause, faults := sat64 u.faults 1, gDone := false, stopped := true })) sl .ueFault
      (cause * 2 ^ 62 + block % 2 ^ 36)) := by
  obtain ⟨rfl, clean⟩ | ⟨rfl, poisoned⟩ := met
  · simp [execUeFault, works, goes, reached, clean]
  · simp [execUeFault, works, goes, reached, poisoned]

end Sys2Proof.Machine

namespace Sys2Proof

open Sys2Proof.Machine

/-- Settles O38: a flit by its kind, an operation by its block and its bucket, a fault by the engine's phase and cause. -/
theorem remoteAccumulateComplete : Obligations.RemoteAccumulateComplete := by
  refine ⟨fun s t sl f ordinary _ taken write => ?write, fun s t sl f ordinary _ taken add => ?add,
    fun _ sl _ padding => receiveRa_of_padding sl padding,
    fun _ _ _ _ real bucket complete => receiveRa_of_complete real bucket complete,
    fun _ _ _ _ _ taken => execRaBlockOp_of_taken taken, fun _ sl _ write => applyRa_of_write sl write,
    fun _ _ _ _ _ taken => execRaFault_of_taken taken,
    fun _ _ _ _ works goes reached met => execUeFault_of_met works goes reached met,
    fun _ _ block cause other => ueReach_of_not_update block cause other⟩
  case write => exact congrArg Host.Outcome.next (rimOp_of_taken ordinary taken (by rw [write]; rfl))
  case add => exact congrArg Host.Outcome.next (rimOp_of_taken ordinary taken (by rw [add]; rfl))

end Sys2Proof
end

section
/-! PROOFS. The writes of the optimizer, reduction and watch entries (10 R312, R313, R322, R323, 11 R352, R356, R360, 13 R415):
what each entry's own check answers, from which the common checks make the answer of the write. -/

namespace Sys2Proof.Machine

/-- A value within a closed range. -/
theorem natRange_of_mem {v lo hi : Nat} (low : lo ≤ v) (high : v ≤ hi) : natRange v lo hi = 0 := by
  rw [natRange, if_neg (Nat.not_lt.mpr low), if_neg (Nat.not_lt.mpr high)]

/-! ### When a write of an optimizer entry takes effect (10 R313) -/

theorem optimBase_of_settled {s : State} (settled : s.life.st = .paused ∨ s.life.st = .ready) :
    optimBase s = s.rim.optim := by
  obtain paused | ready := settled
  · simp [optimBase, paused]
  · simp [optimBase, ready]

theorem optimBase_of_running {s : State} (running : s.life.st = .running) : optimBase s = optimPending s := by
  simp [optimBase, running]

theorem optimTry_of_settled {s : State} (settled : s.life.st = .paused ∨ s.life.st = .ready) (key n : Nat) :
    optimTry s 0 key n = (0, { s with rim := { s.rim with optim := s.rim.optim.set key n } }) := by
  obtain paused | ready := settled
  · simp [optimTry, optimPut, paused]
  · simp [optimTry, optimPut, ready]

theorem optimTry_of_running {s : State} (running : s.life.st = .running) (key n : Nat) :
    optimTry s 0 key n = (0, { s with rim := { s.rim with optimNext := s.rim.optimNext ++ [(key, n)] } }) := by
  simp [optimTry, optimPut, running]

/-! ### The entries of 5010 (10 R313, R322) -/

/-- The pending set does not depend on the frame counted. -/
@[simp] theorem countFrame_optimPending (s : State) (r : Req) : optimPending (countFrame s r) = optimPending s := by
  simp [optimPending]

section
variable {s : State} {r : Req} {x : Session} {sub : Nat} (passes : Passes s r 0x5010 sub x)
include passes

/-- In PAUSED and READY a value that its entry takes is in force at once. -/
theorem execOptimizerWrite_of_settled (settled : s.life.st = .paused ∨ s.life.st = .ready)
    (taken : optimStatus s.rim.optim sub r = 0) :
    execOptimizerWrite sub r s = .next (storeAnswer (
      { countFrame s r with rim := { s.rim with optim := s.rim.optim.set sub (reqNat r) } }) r 0) := by
  have counted : (countFrame s r).life.st = .paused ∨ (countFrame s r).life.st = .ready := by simpa using settled
  refine congrArg Host.Outcome.next (serveWrite_accepted passes ?_)
  rw [wOptimizer, optimBase_of_settled counted, countFrame_rim, taken, optimTry_of_settled counted, countFrame_rim]

/-- In RUNNING a value that its entry takes joins the pending set. -/
theorem execOptimizerWrite_of_running (running : s.life.st = .running) (taken : optimStatus (optimPending s) sub r = 0) :
    execOptimizerWrite sub r s = .next (storeAnswer (
      { countFrame s r with rim := { s.rim with optimNext := s.rim.optimNext ++ [(sub, reqNat r)] } }) r 0) := by
  have counted : (countFrame s r).life.st = .running := by simpa using running
  refine congrArg Host.Outcome.next (serveWrite_accepted passes ?_)
  rw [wOptimizer, optimBase_of_running counted, countFrame_optimPending, taken, optimTry_of_running counted,
    countFrame_rim]

end

/-- RULE takes its range whatever the other settings are. -/
theorem optimStatus_rule (o : Optim) (r : Req) : optimStatus o 1 r = natRange (reqNat r) 0 2 := rfl

/-- RULE above its range is refused, whatever the state of the module. -/
theorem wOptimizer_rule_of_above {r : Req} (s : State) (above : 2 < reqNat r) : wOptimizer 1 r s = (stAbove, s) := by
  have range : natRange (reqNat r) 0 2 = stAbove := by simp [natRange, above]
  rw [wOptimizer, optimStatus_rule, range]
  rfl

/-- APPLY_STEP in RUNNING (10 R313). -/
theorem wApplyStep_of_later {s : State} {r : Req} (running : s.life.st = .running) (later : s.commit.step < reqNat r) :
    wApplyStep r s = (0, { s with rim := { s.rim with applyStep := reqNat r, applySet := true } }) := by
  simp [wApplyStep, running, Nat.not_le.mpr later]

/-! ### The class ranges (10 R312, R323) -/

/-- The keys from 0x100 on are those of the class ranges: each key of another setting lies below. -/
theorem Optim.set_class (o : Optim) (i : Fin 64) (n : Nat) :
    o.set (0x100 + i.val) n = { o with classes := vset o.classes i n } := by
  have index : Fin.ofNat 64 (0x100 + i.val) = i := by
    ext
    simp only [Fin.val_ofNat]
    omega
  conv_rhs => rw [← index]
  generalize key : 0x100 + i.val = k
  unfold Optim.set
  split
  case h_23 => rfl
  all_goals omega

/-- A range in READY that is well formed and overlaps no other. -/
theorem wClassRange_of_apart {s : State} {i : Fin 64} {r : Req} (ready : s.life.st = .ready)
    (reserved : bit (reqNat r) 60 = false)
    (ordered : bit (reqNat r) 61 = true → bits (reqNat r) 59 30 ≤ bits (reqNat r) 29 0)
    (apart : ∀ k : Fin 64, k ≠ i → rangesOverlap (reqNat r) (vget s.rim.optim.classes k) = false) :
    wClassRange i r s = (0, { s with rim := { s.rim with
      optim := { s.rim.optim with classes := vset s.rim.optim.classes i (reqNat r) } } }) := by
  have inOrder : (bit (reqNat r) 61 && decide (bits (reqNat r) 29 0 < bits (reqNat r) 59 30)) = false := by
    simpa using ordered
  have alone : (List.finRange 64).any (fun k => k != i && rangesOverlap (reqNat r) (vget s.rim.optim.classes k)) = false := by
    simpa using apart
  simp only [wClassRange, optimBase_of_settled (.inr ready), reserved, inOrder, alone, Bool.false_eq_true, if_false]
  rw [optimTry_of_settled (.inr ready), Optim.set_class]

/-! ### The reduction's entries (11 R352, R356, R360) -/

/-- CLIP_NORM takes a finite value that is not below 0. -/
theorem wClipNorm_of_finite {r : Req} (s : State) (finite : (f32num (reqF32 r)).isFin = true)
    (least : Num.lt (f32num (reqF32 r)) (numOf 0 0) = false) :
    wClipNorm r s = (0, s.modRed (fun x => { x with clipNorm := reqF32 r })) := by
  simp [wClipNorm, finite, least, accept]

theorem wSkipLimit_of_range {r : Req} (s : State) (high : reqNat r ≤ 1024) :
    wSkipLimit r s = (0, s.modRed (fun x => { x with skipLimit := reqNat r })) := by
  rw [wSkipLimit, natRange_of_mem (Nat.zero_le _) high]
  rfl

theorem wOrdered_of_idle {s : State} (r : Req) (idle : s.life.st = .ready ∨ s.life.st = .paused ∨ s.life.st = .service) :
    wOrdered r s = (0, { s with mesh := { s.mesh with ordered := reqNat r = 1 } }) := by
  obtain h | h | h := idle <;> simp [wOrdered, h]

theorem wOrdered_of_running {s : State} (r : Req) (running : s.life.st = .running) : wOrdered r s = (stWrongState, s) := by
  simp [wOrdered, running]

/-- CHECK_DIVISOR within its range takes the powers of two. -/
theorem wCheckDivisor_of_range {r : Req} (s : State) (low : 16 ≤ reqNat r) (high : reqNat r ≤ 4096) :
    wCheckDivisor r s = accept (if ∃ i ≤ 12, reqNat r = 2 ^ i then 0 else stInconsistent) s
      (s.modRed (fun x => { x with divisor := reqNat r })) := by
  simp [wCheckDivisor, natRange_of_mem low high, Nat.lt_succ_iff]

theorem wCheckDivisor_of_power {r : Req} {i : Nat} (s : State) (low : 4 ≤ i) (high : i ≤ 12) (power : reqNat r = 2 ^ i) :
    wCheckDivisor r s = (0, s.modRed (fun x => { x with divisor := 2 ^ i })) := by
  have least : 2 ^ 4 ≤ reqNat r := power ▸ Nat.pow_le_pow_right (by decide) low
  have most : reqNat r ≤ 2 ^ 12 := power ▸ Nat.pow_le_pow_right (by decide) high
  rw [wCheckDivisor_of_range s least most, if_pos ⟨i, high, power⟩, power]
  rfl

theorem wCheckDivisor_of_no_power {r : Req} (s : State) (low : 16 ≤ reqNat r) (high : reqNat r ≤ 4096)
    (noPower : ∀ i, i ≤ 12 → reqNat r ≠ 2 ^ i) : wCheckDivisor r s = (stInconsistent, s) := by
  rw [wCheckDivisor_of_range s low high, if_neg (fun ⟨i, most, power⟩ => noPower i most power)]
  rfl

theorem wReduceEpoch_of_idle {s : State} (r : Req) (idle : s.life.st = .recovering ∨ s.life.st = .ready) :
    wReduceEpoch r s = (0, s.modRed (fun x => { x with epoch := reqNat r })) := by
  obtain h | h := idle <;> simp [wReduceEpoch, h]

/-! ### The watch's entry (13 R415) -/

theorem wQuietSteps_of_range {r : Req} (s : State) (low : 1 ≤ reqNat r) (high : reqNat r ≤ 65535) :
    wQuietSteps r s = (0, s.modWatch (fun w => { w with quietSteps := reqNat r })) := by
  rw [wQuietSteps, natRange_of_mem low high]
  rfl

end Sys2Proof.Machine

namespace Sys2Proof

open Sys2Proof.Machine

/-- Settles O39: each write passes the common checks, and its entry accepts or refuses it on the state with the frame
counted, which keeps the lifecycle, the commit record and the settings. -/
theorem trainingWritesComplete : Obligations.TrainingWritesComplete := by
  refine ⟨fun _ _ _ _ h settled taken => execOptimizerWrite_of_settled h settled taken,
    fun _ _ _ _ h running taken => execOptimizerWrite_of_running h running taken,
    fun _ _ _ h paused range => execOptimizerWrite_of_settled h (.inl paused) (natRange_of_mem (Nat.zero_le _) range),
    fun _ _ _ h running range => execOptimizerWrite_of_running h running (natRange_of_mem (Nat.zero_le _) range),
    fun s r x h above => congrArg _ (serveWrite_refused h (wOptimizer_rule_of_above _ above) (by decide) (by decide)),
    fun _ _ _ h ready taken => execOptimizerWrite_of_settled h (.inr ready) taken,
    ?applyStep, ?classRange,
    fun _ _ _ h finite least => congrArg _ (serveWrite_accepted h (wClipNorm_of_finite _ finite least)),
    fun _ _ _ h high => congrArg _ (serveWrite_accepted h (wSkipLimit_of_range _ high)),
    ?ordered, ?orderedRunning,
    fun _ _ _ _ h low high power => congrArg _ (serveWrite_accepted h (wCheckDivisor_of_power _ low high power)),
    fun _ _ _ h low high noPower =>
      congrArg _ (serveWrite_refused h (wCheckDivisor_of_no_power _ low high noPower) (by decide) (by decide)),
    ?reduceEpoch, fun _ _ _ h low high => congrArg _ (serveWrite_accepted h (wQuietSteps_of_range _ low high))⟩
  case applyStep =>
    intro s r x h running later
    have taken := wApplyStep_of_later (s := countFrame s r) (by simpa using running) (by simpa using later)
    rw [countFrame_rim] at taken
    exact congrArg _ (serveWrite_accepted h taken)
  case classRange =>
    intro s i r x h ready reserved ordered apart
    have taken := wClassRange_of_apart (s := countFrame s r) (by simpa using ready) reserved ordered (by simpa using apart)
    rw [countFrame_rim] at taken
    exact congrArg _ (serveWrite_accepted h taken)
  case ordered =>
    intro s r x h idle
    have taken := wOrdered_of_idle (s := countFrame s r) r (by simpa using idle)
    rw [countFrame_mesh] at taken
    exact congrArg _ (serveWrite_accepted h taken)
  case orderedRunning =>
    intro s r x h running
    exact congrArg _ (serveWrite_refused h (wOrdered_of_running (s := countFrame s r) r (by simpa using running))
      (by decide) (by decide))
  case reduceEpoch =>
    intro s r x h idle
    exact congrArg _ (serveWrite_accepted h (wReduceEpoch_of_idle (s := countFrame s r) r (by simpa using idle)))

end Sys2Proof
end

section
/-! PROOFS. The addition of two G16 blocks (05 R144, 11 R325): rounding to the nearest integer, and the sum with at most
one raise. -/

namespace Sys2Proof.Machine

/-! ### Rounding to the nearest integer, ties to even -/

/-- The quotient, or the next integer where at least half is left. -/
theorem rneShift_cases (m k : Nat) :
    (rneShift m k = m / 2 ^ k ∧ 2 * (m % 2 ^ k) ≤ 2 ^ k) ∨ (rneShift m k = m / 2 ^ k + 1 ∧ 2 ^ k ≤ 2 * (m % 2 ^ k)) := by
  unfold rneShift
  dsimp only
  split_ifs with above below whole
  · exact .inr ⟨rfl, above.le⟩
  · exact .inl ⟨rfl, below.le⟩
  · exact .inl ⟨rfl, not_lt.mp above⟩
  · rcases Nat.mod_two_eq_zero_or_one (m / 2 ^ k) with even | odd
    · exact .inl ⟨by rw [even, Nat.add_zero], not_lt.mp above⟩
    · exact .inr ⟨by rw [odd], not_lt.mp below⟩

theorem rneShift_even_of_tie {m k : Nat} (tie : 2 * (m % 2 ^ k) = 2 ^ k) : rneShift m k % 2 = 0 := by
  have pos : k ≠ 0 := by
    rintro rfl
    omega
  simp only [rneShift, tie, lt_irrefl, if_false, if_neg pos]
  omega

/-- What the rounding moves: the remainder down or its complement up, whichever is less. -/
theorem rneInt_dist (v : Int) (k : Nat) :
    (rneInt v k * 2 ^ k - v).natAbs = min (v.natAbs % 2 ^ k) (2 ^ k - v.natAbs % 2 ^ k) := by
  have split := Nat.div_add_mod' v.natAbs (2 ^ k)
  have below := Nat.mod_lt v.natAbs (Nat.two_pow_pos k)
  have magnitude : ((rneShift v.natAbs k * 2 ^ k : Nat) - v.natAbs : Int).natAbs
      = min (v.natAbs % 2 ^ k) (2 ^ k - v.natAbs % 2 ^ k) := by
    rcases rneShift_cases v.natAbs k with ⟨down, least⟩ | ⟨up, least⟩
    · rw [down]
      omega
    · rw [up, Nat.add_mul, Nat.one_mul]
      omega
  rw [← magnitude]
  push_cast
  unfold rneInt signed
  rcases lt_or_ge v 0 with neg | pos
  · rw [if_pos (decide_eq_true neg), abs_of_neg neg, ← Int.natAbs_neg]
    ring_nf
  · rw [if_neg (by simpa using pos), abs_of_nonneg pos]

/-- The rounding moves a value by at most one half. -/
theorem rneInt_near (v : Int) (k : Nat) : 2 * (rneInt v k * 2 ^ k - v).natAbs ≤ 2 ^ k := by
  rw [rneInt_dist]
  omega

/-- Where it moves a value by one half, the result is even. -/
theorem rneInt_even_of_half {v : Int} {k : Nat} (half : 2 * (rneInt v k * 2 ^ k - v).natAbs = 2 ^ k) :
    rneInt v k % 2 = 0 := by
  rw [rneInt_dist] at half
  have even : rneShift v.natAbs k % 2 = 0 := rneShift_even_of_tie (by omega)
  unfold rneInt signed
  split <;> omega

/-- A value within an integer limit rounds to one within it. -/
theorem rneInt_mem {v b : Int} {k : Nat} (low : -b * 2 ^ k ≤ v) (high : v ≤ b * 2 ^ k) :
    -b ≤ rneInt v k ∧ rneInt v k ≤ b := by
  have near := rneInt_near v k
  have pos : (0 : Int) < 2 ^ k := by positivity
  zify at near
  have below : (-b - rneInt v k) * 2 ^ k < 1 * 2 ^ k := by linarith [neg_abs_le (rneInt v k * 2 ^ k - v)]
  have above : (rneInt v k - b) * 2 ^ k < 1 * 2 ^ k := by linarith [le_abs_self (rneInt v k * 2 ^ k - v)]
  have := lt_of_mul_lt_mul_right below pos.le
  have := lt_of_mul_lt_mul_right above pos.le
  omega

/-! ### The range of the mantissas -/

theorem inRange_iff {xs : List Int} : inRange xs = true ↔ ∀ v ∈ xs, -32767 ≤ v ∧ v ≤ 32767 := by
  simp [inRange]

theorem not_inRange_iff {xs : List Int} : ¬ inRange xs = true ↔ ∃ v ∈ xs, v < -32767 ∨ 32767 < v := by
  rw [inRange_iff]
  push Not
  exact exists_congr fun v => and_congr_right fun _ => by omega

theorem inRange_map_clampM (xs : List Int) : inRange (xs.map clampM) = true := by
  simp only [inRange_iff, List.forall_mem_map, clampM]
  omega

/-! ### The sum of two blocks -/

namespace G16

/-- The places between the two exponents. -/
def gap (a b : G16) : Nat := max a.exp b.exp - min a.exp b.exp

/-- The exact sums in units of the lower exponent. -/
def exactSums (a b : G16) : List Int :=
  (List.zip a.m b.m).map (fun p => p.1 * 2 ^ (a.exp - min a.exp b.exp) + p.2 * 2 ^ (b.exp - min a.exp b.exp))

/-- The exact sums rounded `up` exponents above the higher one. -/
def roundedSums (a b : G16) (up : Nat) : List Int := (exactSums a b).map (fun v => rneInt v (gap a b + up))

/-- The rule of R325 over these. -/
theorem add_eq (a b : G16) : add a b =
    if inRange (roundedSums a b 0) then
      ⟨max a.exp b.exp, max a.raises b.raises, a.nonfinite || b.nonfinite, a.sat || b.sat, a.sovf || b.sovf,
        roundedSums a b 0⟩
    else if max a.raises b.raises = 15 then
      ⟨max a.exp b.exp, max a.raises b.raises, a.nonfinite || b.nonfinite, true, a.sovf || b.sovf,
        (roundedSums a b 0).map clampM⟩
    else if max a.exp b.exp = 0xFE then
      ⟨max a.exp b.exp, max a.raises b.raises, a.nonfinite || b.nonfinite, a.sat || b.sat, true,
        (roundedSums a b 0).map clampM⟩
    else
      ⟨max a.exp b.exp + 1, max a.raises b.raises + 1, a.nonfinite || b.nonfinite, a.sat || b.sat, a.sovf || b.sovf,
        roundedSums a b 1⟩ := rfl

theorem gap_comm (a b : G16) : gap a b = gap b a := by
  rw [gap, gap, max_comm, min_comm]

theorem exactSums_comm (a b : G16) : exactSums a b = exactSums b a := by
  unfold exactSums
  rw [← List.zip_swap a.m b.m, List.map_map, min_comm]
  exact List.map_congr_left fun _ _ => Int.add_comm _ _

theorem roundedSums_comm (a b : G16) (up : Nat) : roundedSums a b up = roundedSums b a up := by
  rw [roundedSums, roundedSums, exactSums_comm, gap_comm]

theorem add_comm (a b : G16) : add a b = add b a := by
  rw [add_eq a b, add_eq b a, roundedSums_comm b a, roundedSums_comm b a, max_comm b.exp, max_comm b.raises,
    Bool.or_comm b.nonfinite, Bool.or_comm b.sat, Bool.or_comm b.sovf]

/-- With A at the higher exponent only its mantissas are shifted. -/
theorem exactSums_of_le {a b : G16} (higher : b.exp ≤ a.exp) :
    exactSums a b = List.zipWith (fun x y : Int => x * 2 ^ (a.exp - b.exp) + y) a.m b.m := by
  simp only [exactSums, List.map_zip_eq_zipWith, min_eq_right higher, Nat.sub_self, pow_zero, mul_one]
  rfl

theorem gap_of_le {a b : G16} (higher : b.exp ≤ a.exp) : gap a b = a.exp - b.exp := by
  rw [gap, max_eq_left higher, min_eq_right higher]

theorem roundedSums_length (a b : G16) (up : Nat) : (roundedSums a b up).length = min a.m.length b.m.length := by
  simp [roundedSums, exactSums]

/-- One exponent above the higher one every sum of mantissas in range is in range: a raise is enough. -/
theorem inRange_roundedSums_one {a b : G16} (ha : ∀ v ∈ a.m, -32767 ≤ v ∧ v ≤ 32767)
    (hb : ∀ v ∈ b.m, -32767 ≤ v ∧ v ≤ 32767) : inRange (roundedSums a b 1) = true := by
  simp only [inRange_iff, roundedSums, exactSums, List.forall_mem_map]
  rintro ⟨x, y⟩ mem
  obtain ⟨hx, hy⟩ := List.of_mem_zip mem
  have scaled {z : Int} {d : Nat} (hz : -32767 ≤ z ∧ z ≤ 32767) (hd : d ≤ gap a b) :
      -(32767 * 2 ^ gap a b) ≤ z * 2 ^ d ∧ z * 2 ^ d ≤ 32767 * 2 ^ gap a b := by
    have pow : (2 : Int) ^ d ≤ 2 ^ gap a b := pow_le_pow_right₀ (by norm_num) hd
    have pos : (0 : Int) < 2 ^ d := by positivity
    constructor <;> nlinarith
  obtain ⟨lowX, highX⟩ := scaled (d := a.exp - min a.exp b.exp) (ha x hx) (by unfold gap; omega)
  obtain ⟨lowY, highY⟩ := scaled (d := b.exp - min a.exp b.exp) (hb y hy) (by unfold gap; omega)
  apply rneInt_mem <;> rw [pow_succ] <;> linarith

/-- The result of blocks in range is in range. -/
theorem add_inRange {a b : G16} (ha : ∀ v ∈ a.m, -32767 ≤ v ∧ v ≤ 32767) (hb : ∀ v ∈ b.m, -32767 ≤ v ∧ v ≤ 32767) :
    inRange (add a b).m = true := by
  rw [add_eq]
  split
  case isTrue fits => exact fits
  case isFalse =>
    split
    · exact inRange_map_clampM _
    · split
      · exact inRange_map_clampM _
      · exact inRange_roundedSums_one ha hb

theorem add_exp_le {a b : G16} (ha : a.exp ≤ 0xFE) (hb : b.exp ≤ 0xFE) : (add a b).exp ≤ 0xFE := by
  rw [add_eq]
  split_ifs <;> dsimp only <;> omega

theorem add_raises_le {a b : G16} (ha : a.raises ≤ 15) (hb : b.raises ≤ 15) : (add a b).raises ≤ 15 := by
  rw [add_eq]
  split_ifs <;> dsimp only <;> omega

theorem add_m_length (a b : G16) : (add a b).m.length = min a.m.length b.m.length := by
  rw [add_eq]
  split_ifs <;> simp only [List.length_map, roundedSums_length]

/-- A received EXP 0xFF enters as 0xFE with NONFINITE (05 R144). -/
theorem ofBytes_of_exp_top {h : W16} (top : h.toNat / 256 = 0xFF) (bs : List Byte) :
    (ofBytes h bs).exp = 0xFE ∧ (ofBytes h bs).nonfinite = true := by
  simp [ofBytes, top]

theorem ofBytes_exp_le (h : W16) (bs : List Byte) : (ofBytes h bs).exp ≤ 0xFE := Nat.min_le_right _ _

/-! The four results, for A at the higher exponent. -/

section
variable {a b : G16} (higher : b.exp ≤ a.exp)
include higher

theorem add_of_inRange (fits : inRange (roundedSums a b 0) = true) : add a b =
    ⟨a.exp, max a.raises b.raises, a.nonfinite || b.nonfinite, a.sat || b.sat, a.sovf || b.sovf, roundedSums a b 0⟩ := by
  rw [add_eq, if_pos fits, max_eq_left higher]

variable (outside : ¬ inRange (roundedSums a b 0) = true)
include outside

theorem add_of_last_raise (last : max a.raises b.raises = 15) : add a b =
    ⟨a.exp, 15, a.nonfinite || b.nonfinite, true, a.sovf || b.sovf, (roundedSums a b 0).map clampM⟩ := by
  rw [add_eq, if_neg outside, if_pos last, max_eq_left higher, last]

theorem add_of_last_exp (left : max a.raises b.raises ≠ 15) (last : a.exp = 0xFE) : add a b =
    ⟨0xFE, max a.raises b.raises, a.nonfinite || b.nonfinite, a.sat || b.sat, true, (roundedSums a b 0).map clampM⟩ := by
  rw [add_eq, if_neg outside, if_neg left, max_eq_left higher, if_pos last, last]

theorem add_of_raise (left : max a.raises b.raises ≠ 15) (room : a.exp ≠ 0xFE) : add a b =
    ⟨a.exp + 1, max a.raises b.raises + 1, a.nonfinite || b.nonfinite, a.sat || b.sat, a.sovf || b.sovf,
      roundedSums a b 1⟩ := by
  rw [add_eq, if_neg outside, if_neg left, max_eq_left higher, if_neg room]

end

end G16

end Sys2Proof.Machine

namespace Sys2Proof

open Sys2Proof.Machine

/-- Settles O7: the rounding, then the four results of the rule, then what they keep in range. -/
theorem gradientAdditionRule : Obligations.GradientAdditionRule := by
  refine ⟨fun v k => ⟨rneInt_near v k, rneInt_even_of_half⟩, G16.add_comm, ?rule,
    fun _ _ ha hb ea eb ra rb => ⟨inRange_iff.mp (G16.add_inRange ha hb), G16.add_exp_le ea eb, G16.add_raises_le ra rb,
      G16.add_m_length _ _⟩,
    fun h bs => ⟨G16.ofBytes_exp_le h bs, fun top => G16.ofBytes_of_exp_top top bs⟩⟩
  case rule =>
    intro a b higher k sums m raises nf sat sovf
    have rounded (up : Nat) : G16.roundedSums a b up = sums.map (fun v => rneInt v (k + up)) := by
      rw [G16.roundedSums, G16.exactSums_of_le higher, G16.gap_of_le higher]
    have unraised : G16.roundedSums a b 0 = m := rounded 0
    refine ⟨fun fits => ?_, fun outside => ?_⟩
    · rw [← unraised]
      exact G16.add_of_inRange higher (inRange_iff.mpr (by rwa [unraised]))
    · have out : ¬ inRange (G16.roundedSums a b 0) = true := not_inRange_iff.mpr (by rwa [unraised])
      rw [← unraised, ← rounded 1]
      exact ⟨G16.add_of_last_raise higher out, G16.add_of_last_exp higher out, G16.add_of_raise higher out⟩

end Sys2Proof
end

section
/-! PROOFS. Buckets and the rings (11 R331, R334-R336): the launch of a bucket, the end of its reduction, and a block's way
from the landing store through a link adder. -/

namespace Sys2Proof.Machine

/-! ### Buckets -/

/-- The next bucket launches once its share is complete and applied (11 R331, R334, R343). -/
theorem execBucketLaunch_of_complete {s : State} {sl : Slice} {b : Nat} (active : s.run.active = true)
    (next : b = (s.slice sl).red.launched) (planned : b < s.red.buckets.length) (complete : bucketComplete s b sl = true)
    (applied : (s.slice sl).red.queue.any (fun o => (bucketBlocks s b sl).contains o.block) = false) :
    execBucketLaunch sl b s = .next (
      let real := (bucketBlocks s b sl).filter (fun j => !s.padding j)
      let u := ((bucketBlocks s b sl).filter (fun j => s.padding j && s.ownsBlock j)).foldl
        (fun t j => finalize (writeBlock t j G16.zero) sl j)
        (noteProgress (s.modRedSl sl (fun r => { r with launched := r.launched + 1 })) 0)
      if u.modules = 1 then real.foldl (fun t j => finalize t sl j) u
      else (real.filter (sampled u)).foldl sendCopy (launchRings u sl real)) := by
  have comes : (!s.run.active || b != (s.slice sl).red.launched || s.red.buckets.length ≤ b || !bucketComplete s b sl
      || (s.slice sl).red.queue.any (fun o => (bucketBlocks s b sl).contains o.block)) = false := by
    simp only [active, ← next, complete, applied, decide_eq_false (not_le.mpr planned), bne_self_eq_false, Bool.not_true,
      Bool.or_self]
  simp only [execBucketLaunch, comes, Bool.false_eq_true, if_false]
  exact (apply_ite Host.Outcome.next _ _ _).symm

/-- A launched bucket that is final at its owner and of which nothing is under way is REDUCED (11 R331). -/
theorem execBucketReduced_of_final {s : State} {sl : Slice} {b : Nat} (launched : b < (s.slice sl).red.launched)
    (unreduced : (s.slice sl).red.reduced.contains b = false)
    (final : ((bucketBlocks s b sl).filter (fun j => s.ownsBlock j)).all (fun j => (s.slice sl).red.final.contains j) = true)
    (unheld : (s.slice sl).red.held.any (fun h => (bucketBlocks s b sl).contains h.block) = false)
    (applied : (s.slice sl).red.queue.any (fun o => (bucketBlocks s b sl).contains o.block) = false)
    (acked : ∀ n : Slice, portHolds s b sl (s.port n) = false) :
    execBucketReduced sl b s = .next (
      let u := s.modRedSl sl (fun r => { r with reduced := r.reduced ++ [b] })
      if allReduced u then noteProgress (noteProgress (noteProgress u 1) 2) 3 else u) := by
  have allFinal : ((bucketBlocks s b sl).filter (fun j => s.ownsBlock j)).any
      (fun j => !(s.slice sl).red.final.contains j) = false := by
    rw [← List.not_all_eq_any_not, final, Bool.not_true]
  have noPort : (List.finRange 32).any (fun n => portHolds s b sl (s.port n)) = false :=
    List.any_eq_false.mpr fun n _ => by simp [acked n]
  simp only [execBucketReduced, launched, unreduced, allFinal, unheld, applied, noPort]
  rfl

/-! ### The way of a block -/

section
variable {s : State} {port : Slice} {k : Nat} {c : Content} (landed : landedReduce s port k [1, 2] = some c)
include landed

/-- A partial sum of another epoch or step is dropped (11 R338). -/
theorem execRsReceived_of_stale (stale : staleFrame s c [s.commit.step] = true) :
    execRsReceived port k s = .next (dropStale s port k) := by
  simp only [execRsReceived, landed, stale, if_true]

/-- Partial sums that are awaited wait in the reduction buffer (11 R334, R335). -/
theorem execRsReceived_of_awaited (current : staleFrame s c [s.commit.step] = false) (active : s.run.active = true)
    (room : heldAt s port + (frameBlocks c).length ≤ 1024)
    (awaited : (frameBlocks c).all (fun e => sumAwaited s (c.kind == 2) e.1) = true) :
    execRsReceived port k s = .next (noteProgress ((frameBlocks c).foldl (fun t e => t.modRedSl (blockSlice e.1)
      (fun r => { r with
        held := r.held ++ [⟨c.kind = 2, port.val, c.block, c.hop, e.1, e.2⟩]
        passed := r.passed ++ [(e.1, c.kind == 2)] })) (takeLanded s port k)) 0) := by
  have allAwaited : (frameBlocks c).any (fun e => !sumAwaited s (c.kind == 2) e.1) = false := by
    rw [← List.not_all_eq_any_not, awaited, Bool.not_true]
  simp only [execRsReceived, landed, current, active, allAwaited, decide_eq_false (not_lt.mpr room)]
  rfl

end

section
variable {s : State} {sl : Slice} {k : Nat} {h : RingHeld} (held : (s.slice sl).red.held[k]? = some h)
include held

/-- At the owner a sum goes to the adder of the memory controller (11 R334). -/
theorem execLinkAdd_of_owner (ready : ringReady s h.yRing h.block = true)
    (owner : ringPlace s h.yRing = ringOwner s h.yRing (blockStripe h.block)) :
    execLinkAdd sl k s = .next (queueRa (leaveHeld s sl k h) sl ⟨h.block, true, 64, h.g⟩) := by
  simp only [execLinkAdd, held, ready, owner, beq_self_eq_true, Bool.not_true, Bool.and_false, Bool.false_and,
    Bool.or_self, Bool.false_eq_true, if_false, if_true]

/-- On the X ring elsewhere the local block is added and the sum sent on (11 R334, R336). -/
theorem execLinkAdd_of_xRing (xRing : h.yRing = false) (ready : ringReady s false h.block = true)
    (other : ringPlace s false ≠ ringOwner s false (blockStripe h.block)) :
    execLinkAdd sl k s = .next (
      let u := takeBlock (leaveHeld s sl k h) h.block
      let out := G16.add h.g u.1
      traceOutput (sendRing (countLinkAdd u.2 (sliceOf h.port) h.g u.1) sl false (h.hop + 1) h.block out)
        (h.hop + 1) h.block out) := by
  simp only [execLinkAdd, held, xRing, ready, beq_eq_false_iff_ne.mpr other]
  rfl

end

/-- Parity at an adder with no block raises its event alone (11 R336). -/
theorem execLinkAdderParity_of_empty {s : State} {port : Slice}
    (empty : ∀ sl : Slice, (s.slice sl).red.held.any (fun h => h.port = port.val) = false) :
    execLinkAdderParity port s = .next (raisePort s port .linkAdderParity (names [s.commit.step, port.val])) := by
  have nowhere : allSlices.find? (fun sl => (s.slice sl).red.held.any (fun h => h.port = port.val)) = none :=
    List.find?_eq_none.mpr fun sl _ => by simp only [empty sl, Bool.false_eq_true, not_false_eq_true]
  simp only [execLinkAdderParity, nowhere]

end Sys2Proof.Machine

namespace Sys2Proof

open Sys2Proof.Machine

/-- Settles O40, by the lemma of each command above. -/
theorem bucketsComplete : Obligations.BucketsComplete :=
  ⟨fun _ _ _ => execBucketLaunch_of_complete, fun _ _ _ => execBucketReduced_of_final,
    fun _ _ _ _ => execRsReceived_of_stale, fun _ _ _ _ => execRsReceived_of_awaited,
    fun _ _ _ _ => execLinkAdd_of_owner, fun _ _ _ _ => execLinkAdd_of_xRing,
    fun _ _ => execLinkAdderParity_of_empty⟩

end Sys2Proof
end

section
/-! PROOFS. The sampled check and its traces (11 R338, R343, R344, R346). -/

namespace Sys2Proof.Machine

/-! ### Copies -/

section
variable {s : State} {port : Slice} {k : Nat} {c : Content} (landed : landedReduce s port k [5] = some c)
include landed

/-- A CHECK frame of another epoch or step is dropped (11 R338). -/
theorem execCheckReceived_of_stale (stale : staleFrame s c [s.commit.step] = true) :
    execCheckReceived port k s = .next (dropStale s port k) := by
  simp only [execCheckReceived, landed, stale, if_true]

/-- The copies of sampled owned blocks that a CHECK frame brings are stored (11 R343). -/
theorem execCheckReceived_of_new (current : staleFrame s c [s.commit.step] = false) (active : s.run.active = true)
    (new : (frameBlocks c).any (fun e =>
      (s.slice (blockSlice e.1)).red.compared.contains e.1 || (copyOf s e.1 c.origin).isSome) = false) :
    execCheckReceived port k s = .next (
      let u := noteProgress (dropLanded s port k) 1
      ((frameBlocks c).filter (fun e => u.ownsBlock e.1 && sampled u e.1)).foldl
        (fun t e => storeCopy t ⟨e.1, c.origin, e.2⟩) u) := by
  simp only [execCheckReceived, landed, current, active, new]
  rfl

end

/-! ### The comparison and the trace -/

/-- A sampled owned block that is final, with every copy held, is compared with the fold of the copies (11 R344, R346). -/
theorem execCheckCompare_of_fold {s : State} {sl : Slice} {j : Nat} {f : G16} (active : s.run.active = true)
    (here : blockSlice j = sl) (owned : s.ownsBlock j = true) (chosen : sampled s j = true)
    (uncompared : (s.slice sl).red.compared.contains j = false) (unskipped : (s.slice sl).red.skipped.contains j = false)
    (final : (s.slice sl).red.final.contains j = true) (fold : fullFold s j = some f) :
    execCheckCompare sl j s = .next (
      let n := fullFoldSats s j
      let v := (takeBlock s j).2.modRed (fun m => { m with blocksSaturated := sat64 m.blocksSaturated n })
      let u := (noteProgress (v.modRedSl sl (fun r => { r with compared := r.compared ++ [j] })) 1).modRed
        (fun m => { m with checked := sat64 m.checked 1 })
      if f = (takeBlock s j).1 then judgeTrace u j false
      else judgeTrace (raiseMc (u.modRed (fun m => { m with
          mismatches := sat64 m.mismatches 1
          tracesNew := if m.tracesNew.contains j then m.tracesNew else m.tracesNew ++ [j] })) sl .reduceMismatch
        (u.commit.step % 65536 * 2 ^ 36 + j % 2 ^ 36)) j true) := by
  have comes : (!s.run.active || blockSlice j != sl || !s.ownsBlock j || !sampled s j || (s.slice sl).red.compared.contains j
      || (s.slice sl).red.skipped.contains j || !(s.slice sl).red.final.contains j) = false := by
    simp only [active, here, owned, chosen, uncompared, unskipped, final, bne_self_eq_false, Bool.not_true, Bool.or_self]
  simp only [execCheckCompare, comes, fold, Bool.false_eq_true, if_false]
  exact (apply_ite Host.Outcome.next _ _ _).symm

/-- The outputs that a TRACE frame brings are held and judged (11 R346). -/
theorem execTraceReceived_of_current {s : State} {port : Slice} {k : Nat} {c : Content}
    (landed : landedReduce s port k [6] = some c) (current : staleFrame s c [s.commit.step] = false)
    (active : s.run.active = true) :
    execTraceReceived port k s = .next ((frameBlocks c).foldl (fun t e =>
      judgeTrace (t.modRed (fun r => { r with traceOuts := r.traceOuts ++ [⟨e.1, c.origin, e.2⟩] })) e.1
        (t.red.tracesNew.contains e.1)) (dropLanded s port k)) := by
  simp only [execTraceReceived, landed, current, active]
  rfl

end Sys2Proof.Machine

namespace Sys2Proof

open Sys2Proof.Machine

/-- Settles O41, by the lemma of each command above. -/
theorem checksComplete : Obligations.ChecksComplete :=
  ⟨fun _ _ _ _ => execCheckReceived_of_new, fun _ _ _ _ => execCheckReceived_of_stale,
    fun _ _ _ _ => execCheckCompare_of_fold, fun _ _ _ _ => execTraceReceived_of_current⟩

end Sys2Proof
end

section
/-! PROOFS. The fused records (11 R338, R347-R350): a strip's FUSE, the module's record and those that it receives. -/

namespace Sys2Proof.Machine

/-- A live strip whose eight update engines are done sends its FUSE (11 R347, R348). -/
theorem execFuse_of_done {s : State} {side : Fin 4} (active : s.run.active = true)
    (live : s.nodeLive (64 + side.val) = true) (unsent : vget s.red.fuse side = none) (planned : s.red.buckets ≠ [])
    (done : (sideSlices side).all (fun sl => ueDone s sl) = true) :
    execFuse side s = .next ((countSent s (64 + side.val)).modRed (fun r => { r with fuse := vset r.fuse side (some
      { sumsq := ((sideSlices side).map (fun sl => (s.slice sl).ue)).foldl (fun a u => f64add a u.sumsq) 0
        blocks := ((sideSlices side).map (fun sl => (s.slice sl).ue.blocks)).sum
        flags := b2n ((sideSlices side).any (fun sl => (s.slice sl).ue.nonfinite))
          + 2 * b2n ((sideSlices side).any (fun sl => (s.slice sl).ue.sat))
          + 4 * b2n ((sideSlices side).any (fun sl => (s.slice sl).ue.sovf)) }) })) := by
  have some_bucket : s.red.buckets.isEmpty = false := List.isEmpty_eq_false_iff.mpr planned
  simp only [execFuse, active, live, unsent, some_bucket, done, List.map_map, List.any_map]
  rfl

/-- The module forms its record once the last bucket is REDUCED, the checks are done, the taps are read and the buddy has
answered (11 R349, R350, 13 R405, R407, 15 R460). -/
theorem execFusedRecordForm_of_ready {s : State} (active : s.run.active = true) (unsent : s.red.sent = false)
    (fused : s.red.fuse.toList.all (fun m => m.isSome) = true) (reduced : allReduced s = true)
    (checked : checksDone s = true) (read : (trainingPids s).all (fun p => s.watch.read.contains p) = true)
    (buddy : s.modules = 1 ∨ s.rim.acked = true) :
    execFusedRecordForm s = .next (
      let f := formFused s
      let u := ((trainingPids s).foldl (fun t p => clearLoss (recvCobalt t p.val) p) s).modRed
        (fun r => { r with sent := true, gathered := Tab.put r.gathered f.shard f })
      sendRow (if 1 < u.torus.x then sendFused u false 0 f else u)) := by
  have answered : (decide (s.modules = 1) || s.rim.acked) = true := by simpa using buddy
  simp only [execFusedRecordForm, active, unsent, fused, reduced, checked, read, answered]
  rfl

section
variable {s : State} {port : Slice} {k : Nat} {c : Content} (landed : landedReduce s port k [9] = some c)
include landed

/-- A record of another epoch or step is dropped (11 R338). -/
theorem execFusedReceived_of_stale (stale : staleFrame s c [s.commit.step] = true) :
    execFusedReceived port k s = .next (dropStale s port k) := by
  simp only [execFusedReceived, landed, stale, if_true]

/-- A record that is not yet held is gathered and sent on while it has hops to go (11 R350). -/
theorem execFusedReceived_of_new (current : staleFrame s c [s.commit.step] = false) (active : s.run.active = true)
    (new : Tab.find s.red.gathered (fusedOf c.bytes).shard = none) :
    execFusedReceived port k s = .next (
      let f := fusedOf c.bytes
      let u := (noteProgress (dropLanded s port k) 2).modRed (fun r => { r with gathered := Tab.put r.gathered f.shard f })
      let y := f.shard / max 1 u.torus.x != u.torus.cy
      sendRow (if c.hop + 2 < ringSize u y then sendFused u y (c.hop + 1) f else u)) := by
  simp only [execFusedReceived, landed, current, active, new]
  rfl

end

end Sys2Proof.Machine

namespace Sys2Proof

open Sys2Proof.Machine

/-- Settles O42, by the lemma of each command above. -/
theorem fusedRecordsComplete : Obligations.FusedRecordsComplete :=
  ⟨fun _ _ => execFuse_of_done, fun _ => execFusedRecordForm_of_ready, fun _ _ _ _ => execFusedReceived_of_new,
    fun _ _ _ _ => execFusedReceived_of_stale⟩

end Sys2Proof
end

section
/-! PROOFS. The watchdog (11 R339, R340): a stall at an all-wait point and a step that runs too long are each reported
once. -/

namespace Sys2Proof.Machine

/-- A point of a step, once STALL_LIMIT has gone by (11 R340). -/
theorem execWatchdogStall_of_expired {s : State} {point : Fin 6} (ofStep : point.val ≠ 5)
    (waits : (waitingAt s point).1 = true) (unreported : s.run.stallRaised.contains point.val = false)
    (expired : vget s.run.progress point + s.red.stallLimit ≤ s.time.ticks) :
    execWatchdogStall point s = .next (raiseMod ((s.modRed (fun r => { r with
        watchdogExpiries := sat64 r.watchdogExpiries 1 })).modRun (fun r => { r with
        stallRaised := r.stallRaised ++ [point.val] })) .watchdogStall (names (point.val :: (waitingAt s point).2))) := by
  simp only [execWatchdogStall, waits, unreported, if_neg ofStep, decide_eq_false (not_lt.mpr expired)]
  rfl

/-- The gather of a recovery, once STALL_LIMIT has gone by (11 R340, 15 R457). -/
theorem execWatchdogStall_gather_of_expired {s : State} (waits : (waitingAt s 5).1 = true)
    (unreported : s.recov.stallRaised = false) (expired : vget s.run.progress 5 + s.red.stallLimit ≤ s.time.ticks) :
    execWatchdogStall 5 s = .next (raiseMod { s.modRed (fun r => { r with
        watchdogExpiries := sat64 r.watchdogExpiries 1 }) with recov := { s.recov with stallRaised := true } }
      .watchdogStall (names (5 :: (waitingAt s 5).2))) := by
  have gather : (5 : Fin 6).val = 5 := rfl
  simp only [execWatchdogStall, waits, unreported, if_pos gather, decide_eq_false (not_lt.mpr expired)]
  rfl

/-- A point of a step that has been reported (11 R340). -/
theorem execWatchdogStall_of_reported {s : State} {point : Fin 6} (ofStep : point.val ≠ 5)
    (reported : s.run.stallRaised.contains point.val = true) : execWatchdogStall point s = .next s := by
  simp only [execWatchdogStall, if_neg ofStep, reported, Bool.or_true, Bool.true_or, if_true]

/-- A step that has run for STEP_LIMIT (11 R340). -/
theorem execWatchdogStep_of_expired {s : State} (active : s.run.active = true) (unreported : s.run.stepRaised = false)
    (expired : s.run.begin_ + s.red.stepLimit ≤ s.time.ticks) :
    execWatchdogStep s = .next (raiseMod ((s.modRed (fun r => { r with
        watchdogExpiries := sat64 r.watchdogExpiries 1 })).modRun (fun r => { r with stepRaised := true })) .watchdogStep
      (names [s.commit.step])) := by
  simp only [execWatchdogStep, active, unreported, decide_eq_false (not_lt.mpr expired)]
  rfl

end Sys2Proof.Machine

namespace Sys2Proof

open Sys2Proof.Machine

/-- Settles O43, by the lemma of each command above. -/
theorem watchdogOnlyReports : Obligations.WatchdogOnlyReports :=
  ⟨fun _ _ => execWatchdogStall_of_expired, fun _ => execWatchdogStall_gather_of_expired,
    fun _ _ => execWatchdogStall_of_reported, fun _ => execWatchdogStep_of_expired⟩

end Sys2Proof
end

section
/-! PROOFS. The lanes of a lit port (12 R367-R370, R373): a frame that comes in whole, with a codeword that is not corrected
or with a bad CRC, a replay, and what the lane's lock and error ratio bring. -/

namespace Sys2Proof.Machine

/-! ### A sequenced frame (12 R367-R370) -/

/-- What the receiver found is counted. A frame that came in whole has its link word taken, and its SEQ then says whether
it is accepted, dropped or discarded; any other is discarded with its link word. -/
theorem execLinkFrameReceived_of_sequenced {s : State} {port : Slice} {lane : Fin 32} {f : Frame} (corrected crcOk : Bool)
    (lit : (s.port port).lit = true) (notIdle : f.content.ftype ≠ .idle) (notReserved : f.content.ftype ≠ .reservedType) :
    execLinkFrameReceived port lane f corrected crcOk s = .next (
      let e := Config.freeNat s.free
      let t := { s with free := s.free + 1 }.modPort port (fun p => if corrected then
          { p with fecCorrected := sat64 p.fecCorrected e }
        else { p with fecUncorrectable := sat64 p.fecUncorrectable (1 + e % 2) })
      let v := if crcOk then t else t.modPort port (fun p => { p with crcErrors := sat64 p.crcErrors 1 })
      if corrected && crcOk then
        let u := takeLinkWord v port lane.val f
        let behind := (((u.port port).lane lane.val).expect + 256 - f.seq % 256) % 256
        if behind = 0 then acceptFrame u port lane.val f else if behind ≤ 128 then u else noteDiscard u port lane.val
      else noteDiscard v port lane.val) := by
  simp only [execLinkFrameReceived, lit, bne, beq_eq_false_iff_ne.mpr notIdle, beq_eq_false_iff_ne.mpr notReserved]
  cases whole : corrected && crcOk <;> rfl

/-! ### Replays and failures (12 R370, R373) -/

section
variable {s : State} {port : Slice} {lane : Fin 32} {ber : W32} (lit : (s.port port).lit = true)
include lit

theorem execNakReceived_of_nak (nak : ((s.port port).lane lane.val).nakGot = true) :
    execNakReceived port lane s = .next (replayLane s port lane.val) := by
  simp only [execNakReceived, lit, nak, Bool.and_self, if_true]

theorem execReplayTimeout_of_outstanding (outstanding : ((s.port port).lane lane.val).replay ≠ []) :
    execReplayTimeout port lane s = .next (replayLane s port lane.val) := by
  simp only [execReplayTimeout, lit, List.isEmpty_eq_false_iff.mpr outstanding, Bool.not_false, Bool.and_self, if_true]

theorem execLaneLockLost_of_lit : execLaneLockLost port lane s = .next (failPort s port) := if_pos lit

/-- A ratio above 2.4e-4 fails the port. -/
theorem execLaneBerWindow_of_above
    (above : Num.lt (numOf 24 0) (Num.mul (f32num ber) (numOf 100000 0)) = true) :
    execLaneBerWindow port lane ber s = .next (failPort (s.modPort port
      (fun p => { p with ber := Tab.put p.ber lane.val ber })) port) := by
  simp only [execLaneBerWindow, lit, above, Bool.not_true, Bool.false_eq_true, if_false, if_true]

/-- A ratio at or below BER_WARN is only held: the reading leaves BER_WARN as it is. -/
theorem execLaneBerWindow_of_low
    (below : Num.lt (numOf 24 0) (Num.mul (f32num ber) (numOf 100000 0)) = false)
    (low : Num.lt (f32num s.torus.berWarn) (f32num ber) = false) :
    execLaneBerWindow port lane ber s = .next (s.modPort port
      (fun p => { p with ber := Tab.put p.ber lane.val ber })) := by
  have held : Num.lt (f32num (s.modPort port (fun p => { p with ber := Tab.put p.ber lane.val ber })).torus.berWarn)
      (f32num ber) = false := low
  simp only [execLaneBerWindow, lit, below, held, Bool.not_true, Bool.not_false, Bool.false_eq_true, if_false, if_true]

end

end Sys2Proof.Machine

namespace Sys2Proof

open Sys2Proof.Machine

/-- Settles O44, by the lemma of each command above: what is said of a frame is one equation, at what the receiver found. -/
theorem linkLanesComplete : Obligations.LinkLanesComplete :=
  ⟨fun _ _ _ _ => execLinkFrameReceived_of_sequenced true true, fun _ _ _ _ => execLinkFrameReceived_of_sequenced false true,
    fun _ _ _ _ => execLinkFrameReceived_of_sequenced true false, fun _ _ _ => execNakReceived_of_nak,
    fun _ _ _ => execReplayTimeout_of_outstanding, fun _ _ lane => execLaneLockLost_of_lit (lane := lane),
    fun _ _ _ _ => execLaneBerWindow_of_above, fun _ _ _ _ => execLaneBerWindow_of_low⟩

end Sys2Proof
end

section
/-! PROOFS. The states of a port (12 R371, R375, R381-R386, R399): failures and training, HELLO, JOIN and the drain, and the
writes of PORT_ENABLE. -/

namespace Sys2Proof.Machine

/-! ### What an event, a frame taken and an identity noted leave of the ports -/

@[simp] theorem raisePort_port (s : State) (m n : Slice) (ev : Ev) (data : Nat) :
    (raisePort s m ev data).port n = s.port n := by
  simp only [State.port, raisePort, raise_links]

@[simp] theorem modTorus_port (s : State) (f : TorusSt → TorusSt) (n : Slice) : (s.modTorus f).port n = s.port n := rfl

@[simp] theorem noteIdentity_port (s : State) (m n : Slice) (id : List Byte) :
    (noteIdentity s m id).port n = s.port n := by
  unfold noteIdentity
  split
  · rfl
  · dsimp only
    split
    · rfl
    · exact raisePort_port ..

@[simp] theorem dropLanded_st (s : State) (n : Slice) (k : Nat) : ((dropLanded s n k).port n).st = (s.port n).st := by
  unfold dropLanded freePlace
  split <;> simp

/-! ### Failures and training (12 R371, R375, R381, R382) -/

section
variable {s : State} {port : Slice}

theorem execPortFailedTimeout_of_failed (failed : (s.port port).st = .failed) :
    execPortFailedTimeout port s = .next (s.modPort port (fun p => { p with
      st := if (s.bay (bayOf port)).st = .lit then .down else .disabled })) := by
  simp [execPortFailedTimeout, failed]

theorem execCodewordLock_of_down (down : (s.port port).st = .down) :
    execCodewordLock port s = .next (s.modPort port (fun p => { p with st := .training })) := by
  simp [execCodewordLock, down]

theorem execTrainingTimeout_of_training (training : (s.port port).st = .training) :
    execTrainingTimeout port s = .next (s.modPort port (fun p => { p with st := .down })) := by
  simp [execTrainingTimeout, training]

/-- Lanes and credits start afresh and the round trip is held (12 R371, R375). -/
theorem execTrainingDone_of_training {rtt : Nat} (training : (s.port port).st = .training) :
    execTrainingDone port rtt s = .next (
      let u := s.modPort port (fun p => { p with
        st := .verify, lanes := [], landing := [], tx := [], taken := Vector.replicate 3 0, freed := Vector.replicate 3 0,
        credits := vset (vset (vset (Vector.replicate 3 0) 0 2048) 1 512) 2 64, rtt := rtt, long := 1224 < rtt })
      sendHello (if 1224 < rtt then raisePort u port .linkLong (names [port.val, rtt]) else u) port) := by
  simp only [execTrainingDone, training]
  rfl

/-! ### HELLO (12 R381, R383) -/

theorem execHelloPeriod_of_held_or_verify (st : (s.port port).st = .held ∨ (s.port port).st = .verify) :
    execHelloPeriod port s = .next (sendHello s port) := by
  simp [execHelloPeriod, st]

/-- A HELLO passes a VERIFY port to STANDBY, or to HELD with the reason of the first check that fails (12 R383). -/
theorem execLinkHello_of_verify {k : Nat} {c : Content} (landed : landedNeighbour s port k 1 = some c)
    (verify : (s.port port).st = .verify) :
    execLinkHello port k s = .next (
      let h := c.bytes.take 52
      let coord := leNat ((h.drop 44).take 2)
      let u := (noteIdentity (dropLanded s port k) port (helloIdentity h)).modPort port (fun p => { p with
        hello := h, peerPort := some ((h.drop 46).headD 0).toNat, peerCoord := if coord = 0xFFFF then none else some coord })
      if helloReason u port h = 0 then discover (joinDone (sendJoin (u.modPort port (fun p => { p with
          st := .standby, joinSent := false, joinGot := false, heldReason := 0 })) port) port)
      else raisePort (u.modPort port (fun p => { p with st := .held, heldReason := helloReason u port h })) port .portHeld
          (names [port.val, helloReason u port h])) := by
  simp only [execLinkHello, landed, State.port_modPort, noteIdentity_port, dropLanded_st, verify]
  split
  next passes => rw [if_pos passes]
  next fails => rw [if_neg fails]

/-! ### JOIN and the drain (12 R385, R386) -/

theorem execJoin_of_standby {k : Nat} {c : Content} (landed : landedNeighbour s port k 5 = some c)
    (standby : (s.port port).st = .standby) :
    execJoin port k s = .next (discover (joinDone (sendJoin ((dropLanded s port k).modPort port
      (fun p => { p with joinGot := true })) port) port)) := by
  simp only [execJoin, landed, standby]
  rfl

theorem execQuiesce_of_inService {k : Nat} {c : Content} (landed : landedNeighbour s port k 6 = some c)
    (inService : (s.port port).st = .inService) :
    execQuiesce port k s = .next (beginDrain (dropLanded s port k) port) := by
  simp only [execQuiesce, landed, dropLanded_st, inService, beq_self_eq_true, if_true]

theorem execLast_of_draining {k : Nat} {c : Content} (landed : landedNeighbour s port k 7 = some c)
    (draining : (s.port port).st = .draining) :
    execLast port k s = .next (drainDone ((dropLanded s port k).modPort port (fun p => { p with lastGot := true })) port) := by
  simp only [execLast, landed, dropLanded_st, draining, beq_self_eq_true, if_true]

/-! ### PORT_ENABLE (12 R381, R386) -/

theorem wPortEnable_of_off {r : Req} (off : reqNat r = 0) (kept : strandsBundle s [port] = false) :
    wPortEnable port r s = (0, leaveService (s.modPort port (fun p => { p with enable := false })) port) := by
  simp only [wPortEnable, if_pos off, kept, Bool.false_eq_true, if_false]

theorem wPortEnable_of_stranded {r : Req} (off : reqNat r = 0) (stranded : strandsBundle s [port] = true) :
    wPortEnable port r s = (stNoResource, s) := by
  rw [wPortEnable, if_pos off, if_pos stranded]

end

end Sys2Proof.Machine

namespace Sys2Proof

open Sys2Proof.Machine

/-- Settles O45, by the lemma of each command above; a write passes the common checks first, and its entry judges it on the
state with the frame counted. -/
theorem portStatesComplete : Obligations.PortStatesComplete :=
  ⟨fun _ _ => execPortFailedTimeout_of_failed, fun _ _ => execCodewordLock_of_down,
    fun _ _ => execTrainingTimeout_of_training, fun _ _ _ => execTrainingDone_of_training,
    fun _ _ _ _ => execLinkHello_of_verify, fun _ _ => execHelloPeriod_of_held_or_verify,
    fun _ _ _ _ => execJoin_of_standby, fun _ _ _ _ => execQuiesce_of_inService, fun _ _ _ _ => execLast_of_draining,
    fun _ _ _ _ passes off kept => congrArg _ (serveWrite_accepted passes (wPortEnable_of_off off kept)),
    fun _ _ _ _ passes off stranded =>
      congrArg _ (serveWrite_refused passes (wPortEnable_of_stranded off stranded) (by decide) (by decide))⟩

end Sys2Proof
end

section
/-! PROOFS. The laser bays (12 R381, R389, R394, R397): the writes of CARTRIDGE_PREPARE, and a cartridge that is put in,
lights, wears, fails and is taken out. -/

namespace Sys2Proof.Machine

section
variable {s : State} {b : Fin 16}

/-! ### CARTRIDGE_PREPARE (12 R389) -/

theorem wCartridgePrepare_of_stranded {r : Req} (on : reqNat r ≠ 0) (stranded : strandsBundle s (bayPorts b) = true) :
    wCartridgePrepare b r s = (stNoResource, s) := by
  rw [wCartridgePrepare, if_neg on, if_pos stranded]

/-- Both ports leave service; a bay whose cartridge has failed is PREPARED at once. -/
theorem wCartridgePrepare_of_kept {r : Req} (on : reqNat r ≠ 0) (kept : strandsBundle s (bayPorts b) = false) :
    wCartridgePrepare b r s = (0,
      let u := (bayPorts b).foldl (fun t n => leaveService (t.modPort n (fun p => { p with prepared := true })) n)
        (s.modBay b (fun y => { y with prepare := true }))
      if (u.bay b).st = .failed then bayReady ((bayPorts b).foldl disablePort u) b else u) := by
  simp only [wCartridgePrepare, if_neg on, kept, Bool.false_eq_true, if_false, beq_iff_eq]

theorem wCartridgePrepare_of_off {r : Req} (off : reqNat r = 0) :
    wCartridgePrepare b r s = (0, (bayPorts b).foldl
      (fun t n => portUp (t.modPort n (fun p => { p with prepared := false })) n)
      (s.modBay b (fun y => { y with prepare := false }))) := if_pos off

theorem execCartridgeReady_of_disabled (prepare : (s.bay b).prepare = true) (fed : (s.bay b).st = .lit ∨ (s.bay b).st = .warming)
    (dark : ∀ n ∈ bayPorts b, (s.port n).st = .disabled) : execCartridgeReady b s = .next (bayReady s b) := by
  simp [execCartridgeReady, prepare, fed, List.all_eq_true.mpr fun n hn => beq_iff_eq.mpr (dark n hn)]

/-! ### The life of a cartridge (12 R381, R389, R394, R397) -/

theorem execCartridgeInserted_of_empty {serial : List Byte} (empty : (s.bay b).st = .empty) :
    execCartridgeInserted b serial s = .next (s.modBay b (fun y => { y with
      st := .warming, serial := serial, wear := 0 })) := by
  simp [execCartridgeInserted, empty]

theorem execCartridgeLit_of_warming (warming : (s.bay b).st = .warming) (on : s.life.st ≠ .off)
    (trusted : s.life.st ≠ .quarantined) :
    execCartridgeLit b s = .next ((bayPorts b).foldl
      (fun t n => portUp (t.modPort n (fun p => { p with prepared := false })) n)
      (s.modBay b (fun y => { y with st := .lit, prepare := false }))) := by
  simp [execCartridgeLit, warming, on, trusted]

/-- A port that loses its light fails where it is lit, and is then DISABLED unless it is FAILED or so already. That a lit
port goes to FAILED first is deduced (log 26). -/
theorem portDark_eq :
    portDark = fun t n =>
      let u := if (t.port n).lit then failPort t n else t
      if (u.port n).st = .failed ∨ (u.port n).st = .disabled then u else disablePort u n := by
  funext t n
  simp only [portDark, Bool.or_eq_true, beq_iff_eq]

theorem execCartridgeFailed_of_lit (lit : (s.bay b).st = .lit) :
    execCartridgeFailed b s = .next ((bayPorts b).foldl portDark
      (raiseBay (s.modBay b (fun y => { y with st := .failed })) b .cartridgeFailed (names [b.val]))) := by
  simp [execCartridgeFailed, lit]

theorem execCartridgeRemoved_of_present (present : (s.bay b).st ≠ .empty) :
    execCartridgeRemoved b s = .next (((bayPorts b).foldl
      (fun t n => disablePort (if (t.port n).lit then failPort t n else t) n) s).modBay b (fun y => { y with
      st := .empty, serial := [], wear := 0 })) := by
  simp [execCartridgeRemoved, present]

/-- The bias is held, and reported as it passes 90 %. -/
theorem execCartridgeWear_of_lit {bias : Nat} (lit : (s.bay b).st = .lit) :
    execCartridgeWear b bias s = .next (
      let u := s.modBay b (fun y => { y with wear := min 100 bias })
      if (s.bay b).wear ≤ 90 ∧ 90 < bias then raiseBay u b .cartridgeWear (names [b.val, min 100 bias]) else u) := by
  simp [execCartridgeWear, lit]

theorem execCartridgeWear_of_passing {bias : Nat} (lit : (s.bay b).st = .lit) (low : (s.bay b).wear ≤ 90)
    (high : 90 < bias) :
    execCartridgeWear b bias s = .next (raiseBay (s.modBay b (fun y => { y with wear := min 100 bias })) b
      .cartridgeWear (names [b.val, min 100 bias])) :=
  (execCartridgeWear_of_lit lit).trans (congrArg _ (if_pos ⟨low, high⟩))

theorem execCartridgeWear_of_not_passing {bias : Nat} (lit : (s.bay b).st = .lit)
    (stays : 90 < (s.bay b).wear ∨ bias ≤ 90) :
    execCartridgeWear b bias s = .next (s.modBay b (fun y => { y with wear := min 100 bias })) :=
  (execCartridgeWear_of_lit lit).trans (congrArg _ (if_neg (by omega)))

end

end Sys2Proof.Machine

namespace Sys2Proof

open Sys2Proof.Machine

/-- Settles O46, by the lemma of each command above; a write passes the common checks first, and its entry judges it on the
state with the frame counted. -/
theorem cartridgesComplete : Obligations.CartridgesComplete :=
  ⟨fun _ _ _ _ passes on stranded =>
      congrArg _ (serveWrite_refused passes (wCartridgePrepare_of_stranded on stranded) (by decide) (by decide)),
    fun _ _ _ _ passes on kept => congrArg _ (serveWrite_accepted passes (wCartridgePrepare_of_kept on kept)),
    fun _ _ _ _ passes off => congrArg _ (serveWrite_accepted passes (wCartridgePrepare_of_off off)),
    fun _ _ => execCartridgeReady_of_disabled, fun _ _ _ => execCartridgeInserted_of_empty,
    fun _ _ => execCartridgeLit_of_warming,
    fun _ _ lit => (execCartridgeFailed_of_lit lit).trans (by rw [portDark_eq]),
    fun _ _ => execCartridgeRemoved_of_present, fun _ _ _ => execCartridgeWear_of_passing,
    fun _ _ _ => execCartridgeWear_of_not_passing⟩

end Sys2Proof
end

section
/-! PROOFS. The frames of a recovery (12 R380, 15 R455-R457, R462, R463): ROLLBACK, STATE, RESTORE_REQ and RESTORE. -/

namespace Sys2Proof.Machine

section
variable {s : State} {port : Slice} {k : Nat} {c : Content}

/-! ### ROLLBACK (15 R455, R462) -/

section
variable {h : Nat × Nat × Nat} (landed : landedRecovery s port k 1 = some c)
include landed

/-- In a job a higher number starts the recovery afresh, any other is merged. -/
theorem execRollback_of_inJob (job : (dropLanded s port k).inJob = true) :
    execRollback port k s = .next (
      let u := dropLanded s port k
      if u.recov.n < leNat (c.bytes.take 4) then
        startRecovery u (leNat (c.bytes.take 4)) (leNat ((c.bytes.drop 6).take 2)) (leNat ((c.bytes.drop 4).take 2) % 1024)
          0 0xFF false
      else u.modRecov (fun v => { v with merged := sat64 v.merged 1 })) := by
  simp only [execRollback, landed, job, if_true]
  exact (apply_ite Host.Outcome.next ..).symm

section
variable (noJob : (dropLanded s port k).inJob = false) (trusted : (dropLanded s port k).life.st ≠ .quarantined)
include noJob trusted

/-- Outside a job a number above every one heard is kept (log 72). -/
theorem execRollback_of_newest
    (newest : ∀ h, (dropLanded s port k).recov.heard = some h → h.1 < leNat (c.bytes.take 4)) :
    execRollback port k s = .next ((dropLanded s port k).modRecov (fun v => { v with
      heard := some (leNat (c.bytes.take 4), leNat ((c.bytes.drop 6).take 2), leNat ((c.bytes.drop 4).take 2) % 1024) })) := by
  simp only [execRollback, landed, noJob, beq_eq_false_iff_ne.mpr trusted, Bool.false_eq_true, if_false]
  cases heard : (dropLanded s port k).recov.heard with
  | none => rfl
  | some h => simp only [newest h heard, decide_true, if_true]

theorem execRollback_of_older (heard : (dropLanded s port k).recov.heard = some h)
    (older : leNat (c.bytes.take 4) ≤ h.1) : execRollback port k s = .next (dropLanded s port k) := by
  simp only [execRollback, landed, noJob, beq_eq_false_iff_ne.mpr trusted, heard, decide_eq_false (Nat.not_lt.mpr older),
    Bool.false_eq_true, if_false]

end

end

/-! ### STATE and RESTORE_REQ (15 R456, R457, R461, R463) -/

/-- A record is kept by shard. Whether its sender has this module's plan and job is an operand (log 72). -/
theorem execState_of_landed {sameJob : Bool} (landed : landedRecovery s port k 2 = some c) :
    execState port ⟨k, sameJob⟩ s = .next (
      let flags := leNat ((c.bytes.drop 6).take 2)
      let x : RecState :=
        ⟨leNat (c.bytes.take 4), leNat ((c.bytes.drop 8).take 8), leNat ((c.bytes.drop 16).take 8), bit flags 0, bit flags 1⟩
      let u := keepState (dropLanded s port k) ((dropLanded s port k).torus.shardOf (leNat ((c.bytes.drop 4).take 2))) x
      if sameJob = false ∧ u.life.st = .recovering then stateLost u
      else if u.recov.phase = 4 && x.n = u.recov.n then noteProgress u 5 else u) := by
  simp only [execState, landed, Bool.and_eq_true, Bool.not_eq_true', beq_iff_eq]

theorem execRestoreReq_of_landed (landed : landedRecovery s port k 3 = some c) :
    execRestoreReq port k s = .next (
      let u := dropLanded s port k
      let a := leNat ((c.bytes.drop 8).take 8) * 64
      if leNat (c.bytes.take 4) = u.recov.n && u.inJob then
        sendRestore u (u.torus.shardOf (leNat ((c.bytes.drop 4).take 2))) a a (leNat ((c.bytes.drop 16).take 8) * 64)
          (leNat ((c.bytes.drop 6).take 2))
      else u) := by
  simp only [execRestoreReq, landed]
  by_cases awaited : leNat (c.bytes.take 4) = (dropLanded s port k).recov.n ∧ (dropLanded s port k).inJob = true
  case pos => simp [awaited]
  case neg => simp [awaited]

/-! ### RESTORE (12 R380) -/

section
variable {r : Region} (lands : landed s port k = some c) (routed : c.ftype = .routed) (restore : c.kind = 1)
include lands routed restore

theorem execRestore_of_stale (stale : c.repoch ≠ s.red.epoch) : execRestore port k s = .next (dropStale s port k) := by
  simp [execRestore, lands, routed, restore, stale]

/-- A frame of this epoch whose entry of the region table is not there is discarded. -/
theorem execRestore_of_no_region (current : c.repoch = s.red.epoch)
    (missing : (dropLanded s port k).regions[c.region]? = none) :
    execRestore port k s = .next ((dropLanded s port k).modPort port (fun p => { p with
      framesDiscarded := sat64 p.framesDiscarded 1 })) := by
  simp [execRestore, lands, routed, restore, current, missing]

/-- A frame of this epoch inside its region is written, and its bytes are counted (log 34). -/
theorem execRestore_of_inside (current : c.repoch = s.red.epoch)
    (entry : (dropLanded s port k).regions[c.region]? = some r) (used : r.kind ≠ 0) (low : r.base * regUnit ≤ c.addr * 64)
    (high : c.addr * 64 + 8 * (c.len % 32 + 1) ≤ (r.base + r.size) * regUnit) :
    execRestore port k s = .next (
      let n := 8 * (c.len % 32 + 1)
      checkLoop (((List.range ((n + 63) / 64)).foldl
        (fun t i => planWrite t (c.addr * 64 + 64 * i) (((c.bytes.take n).drop (64 * i)).take 64)) (dropLanded s port k)).modRecov
        (fun v => { v with restored := v.restored + n }))) := by
  simp [execRestore, lands, routed, restore, current, entry, used, low, high]

end

end

end Sys2Proof.Machine

namespace Sys2Proof

open Sys2Proof.Machine

/-- Settles O52, by the lemma of each command above. Where the spec leaves a point open, the model's choice is proved: the
number kept outside a job and the operand of a STATE record (log 72), and the count of restored bytes (log 34). -/
theorem rollbackFramesComplete : Obligations.RollbackFramesComplete :=
  ⟨fun _ _ _ _ landed job higher => (execRollback_of_inJob landed job).trans (congrArg _ (if_pos higher)),
    fun _ _ _ _ landed job low => (execRollback_of_inJob landed job).trans (congrArg _ (if_neg (Nat.not_lt.mpr low))),
    fun _ _ _ _ => execRollback_of_newest, fun _ _ _ _ _ => execRollback_of_older, fun _ _ _ _ _ => execState_of_landed,
    fun _ _ _ _ => execRestoreReq_of_landed, fun _ _ _ _ => execRestore_of_stale, fun _ _ _ _ => execRestore_of_no_region,
    fun _ _ _ _ _ => execRestore_of_inside⟩

end Sys2Proof
end

section
/-! PROOFS. The queue of waiting commands (17 R497): no command reaches it, and a step takes its front. -/

namespace Sys2Proof.Machine

theorem exec_pending {i : Instr} {s t : State} (h : exec i s = .next t) : t.pending = s.pending := by
  have k : StaysOut s (exec i s) := exec_stays i (.refl s)
  rw [h] at k
  exact k.1

theorem step_of_cons {s : State} {c : Instr} {rest : List Instr} (queue : s.pending = c :: rest) :
    step s = exec c { s with pending := rest } := by
  unfold step
  rw [queue]

theorem step_of_nil {s : State} (idle : s.pending = []) : step s = .next s := by
  unfold step
  rw [idle]

end Sys2Proof.Machine

namespace Sys2Proof

open Sys2Proof.Machine

/-- Settles O1, by the two cases of the queue. That an empty queue idles is the model's choice (log 1). -/
theorem stepRunsFrontCommand : Obligations.StepRunsFrontCommand :=
  ⟨fun _ _ _ => step_of_cons, fun _ => step_of_nil⟩

/-- Settles O3: a command leaves the queue, and a step runs its front on the state whose queue is the rest. -/
theorem queueIsTheSendersAlone : Obligations.QueueIsTheSendersAlone := by
  refine ⟨fun _ _ _ => exec_pending, fun s t h => ?_⟩
  obtain ⟨idle, rfl⟩ | ⟨c, rest, queue, hc⟩ := step_eq_next h
  · rw [idle]; rfl
  · rw [queue]; exact exec_pending hc

end Sys2Proof
end

section
/-! PROOFS. Every command answers a next state (17 R496, R499, R500): what a meaning cannot do it turns away with a status or
leaves undone. -/

namespace Sys2Proof.Machine

/-- An outcome that is a next state. -/
def Answers (o : Out) : Prop := ∃ t, o = .next t

theorem answers_next (t : State) : Answers (.next t) := ⟨t, rfl⟩

theorem answers_ite {c : Prop} [Decidable c] {a b : Out} (ha : Answers a) (hb : Answers b) :
    Answers (if c then a else b) := by
  split
  · exact ha
  · exact hb

/-- A command that its condition turns away from the start. -/
theorem answers_unless {c : Prop} [Decidable c] {t : State} {o : Out} (h : Answers o) :
    Answers (if c then .next t else o) := answers_ite (answers_next t) h

theorem answers_guard {c : Prop} [Decidable c] {t u : State} : Answers (if c then .next t else .next u) :=
  answers_unless (answers_next u)

theorem execReadyTaskStart_answers (b : Nat) (s : State) : Answers (execReadyTaskStart b s) := by
  unfold execReadyTaskStart
  dsimp only
  cases s.red.buckets[b]? with
  | none => exact answers_next _
  | some e => exact answers_guard

/-- Every command answers: at once, behind the conditions that its meaning tests, or in each case of what it looks up (a
frame, the front of a queue, a running task). -/
theorem exec_answers (i : Instr) (s : State) : Answers (exec i s) := by
  cases i with
  -- no condition before the next state is written
  | cbcLoad | beatSourceWrite | beatLinkPortWrite | schedEntryWrite | markSend | holeRequest | passIssue | passFlush |
    passBoundary | passDrainEnd | passEmitEnd | griddleFault | memop | memopDone | slotSet | slotReset |
    slotResetAll | slotComplete | slotRelease | slotDrainDone | shelfOpen | shelfClose | slotLoad | slotStore |
    scrubAccess | scrubForce | ceWindowEnd | ladleArm | ladleStop | haltAll | clearLoss | waitSlotFull |
    waitSlotEmpty | waitCounter | waitSignal | signalSend | signalReceived | remoteComplete | remoteRelease |
    remoteCompleteReceived | remoteReleaseReceived | loopFor | loopNext | jump | jumpIf | loadi | addi | readreg |
    spawn | endTask | yieldTask | timeatAbs | timeatRel | planEvent | whiskRun | whiskOpEnd | tapSwitch |
    tapClearIdle | tapClearActive | mcastBranchRelease | meshHold | meshRelease | westFullClock | westHalfClock |
    eastFullClock | eastHalfClock | ecsRead | stackRowWindowEnd | stackFailed | rimWrite | rimAdd | optimizerWrite |
    applyStep | classRangeWrite | linkAdderParity | clipNormWrite | skipLimitWrite | orderedWrite |
    checkDivisorWrite | reduceEpochWrite | portEnableWrite | cartridgePrepare | torusSettingsWrite | coordConfirm |
    baseCapWrite | capProfileWrite | maxPointWrite | pwrEnDeassert | inputLockout | lockoutClear | moduleReset |
    alertAck | nonce | updateData | ownerKey | dictWrite | assign | clearAddress | chainInputLost | chainBypassOpen |
    commandStart | commandPause | commandStop | commandResume | enterService | commandReset | nodeIdWrite |
    ipConfigWrite | planData | loadPlan | unload | loadJob | planDiscard | jobAddressWrite | jobData | chainFrame |
    ipConfigApply =>
    exact answers_next _
  -- conditions, then the next state
  | late | wide | stuck | trainRestart | oscillatorBeat | holdoverEntry | lockingEntry | slewEnd | holdoverLong |
    windowClose | markStuck | buddyCopyComplete | shelfWakeDone | shelfCloseDone | correctionWriteback |
    ladleStopDone | ladleFault | taskStart | taskWake | whiskFault | routerParity | mcastLag | tableWrite |
    stackTempRead | bucketReduced | fuse | fusedRecordForm | watchdogStall | watchdogStep | nakReceived |
    replayTimeout | laneLockLost | portFailedTimeout | codewordLock | trainingDone | trainingTimeout | helloPeriod |
    cartridgeReady | cartridgeInserted | cartridgeLit | cartridgeFailed | cartridgeWear | claimPeriod | droopDetect |
    droopEnd | modulePowerPeriod | measuredPeriod | marginMeasure | thermalDownPeriod | regionTrip | heatIsolation |
    stackThrottle | pwrEnAssert | stage2Start | inputPairLost | inputPairReturn | coolantRead | resetN |
    stewardFault | regionShort | rollbackDone | reportReady | updateVerify | updateDiscard | subscribe |
    cartridgeRemoved | resetNRelease | stepMarkFall | taskTableParity =>
    exact answers_guard
  | syncInFall | stackScrub | powerCoeff | meshHeatEmergency | loadJobDone =>
    exact answers_unless (answers_unless answers_guard)
  | slewingEntry | schedEntryFire | stepMarkRise | ueGComplete | selfTestDone | ueFault | bucketLaunch |
    budgetEstimate | powerSet | computeOff | softStartDone =>
    exact answers_unless answers_guard
  | laneBerWindow | computeOn =>
    exact answers_unless (answers_unless (answers_unless answers_guard))
  | droopWindow =>
    exact answers_unless (answers_ite answers_guard answers_guard)
  -- something is looked up first, and every case of it ends in a next state
  | readyTaskStart => exact execReadyTaskStart_answers ..
  | syncInRise | stampReceived | beatSymbolReceived | markerReceived | gateEvaluate | updateStart | stepFlip |
    agReceived | buddyReceived | buddyAck | stationaryLoadStart | passIssueBegin | ladleBlockStart |
    ladlePortionIssue | ladlePortionComplete | memTimeout | sliceExpired | whiskOpStart | flitHop | flitLanding |
    mergeLanding | orderedMerge | cancelReceived | regRead | regWrite | reply | eventRecord | eventsSuppressed |
    memRead | memWrite | raBlockOp | raFault | rsReceived | linkAdd | checkReceived | checkCompare | traceReceived |
    fusedReceived | linkFrameReceived | linkHello | join | quiesce | last | claim | restore | levelRampDone |
    checkWindow | thermalUpPeriod | rollback | state | resumeRule | restoreReq | spareAdopt | updateVerifyDone |
    shupoHello | proof | proofTimeout | close | sessionTimeout | loadPlanDone =>
    dsimp -zeta only [exec, execSyncInRise, execStampReceived, execBeatSymbolReceived, execMarkerReceived,
      execGateEvaluate, execUpdateStart, execStepFlip, execAgReceived, execBuddyReceived, execBuddyAck,
      execStationaryLoadStart, execPassIssueBegin, execLadleBlockStart, execLadlePortionIssue,
      execLadlePortionComplete, execMemTimeout, execSliceExpired, execWhiskOpStart, execFlitHop, execFlitLanding,
      execMergeLanding, execOrderedMerge, execCancelReceived, execRegRead, execRegWrite, execReply, execEventRecord,
      execEventsSuppressed, execMemRead, execMemWrite, execRaBlockOp, execRaFault, execRsReceived, execLinkAdd,
      execCheckReceived, execCheckCompare, execTraceReceived, execFusedReceived, execLinkFrameReceived, execLinkHello,
      execJoin, execQuiesce, execLast, execClaim, execRestore, execLevelRampDone, execCheckWindow,
      execThermalUpPeriod, execRollback, execState, execResumeRule, execRestoreReq, execSpareAdopt,
      execUpdateVerifyDone, execShupoHello, execProof, execProofTimeout, execClose, execSessionTimeout,
      execLoadPlanDone]
    repeat' first
      | with_reducible exact answers_next _
      | (extract_lets +onlyGivenNames t; clear_value t)
      | with_reducible apply answers_ite
      | split

/-- A step idles or runs a command. -/
theorem step_answers (s : State) : Answers (step s) := by
  unfold step
  split
  next => exact answers_next s
  next => exact exec_answers ..

end Sys2Proof.Machine

namespace Sys2Proof

open Sys2Proof.Machine

/-- Settles O2: the commands one by one, and a step by its queue. That a command whose condition does not hold leaves the
state is the model's choice (log 3). -/
theorem everyCommandAnswersNext : Obligations.EveryCommandAnswersNext :=
  ⟨exec_answers, step_answers⟩

end Sys2Proof
end

section
/-! PROOFS. The monitor of a skillet (14 R418-R421, R426, R432, R433): droop, ageing, ramps and the budget loop. -/

namespace Sys2Proof.Machine

section
variable {s : State} {p : Pid}

/-! ### Droop (14 R432, R433) -/

theorem execDroopDetect_of_runs (running : runs s p = true) (fresh : (s.mon p).stretching = false) :
    execDroopDetect p s = .next (s.modMon p (fun m => { m with
      stretching := true, droopEvents := sat64 m.droopEvents 1 })) := by
  simp [execDroopDetect, running, fresh]

theorem execDroopEnd_of_stretching (cycles : Nat) (stretching : (s.mon p).stretching = true) :
    execDroopEnd p cycles s = .next (s.modMon p (fun m => { m with
      stretching := false, droopCycles := sat64 m.droopCycles cycles })) := by
  simp [execDroopEnd, stretching]

section
variable {cycles stretched : Nat} (control : s.controls = true)
  (due : periodDue s (s.mon p).droopPeriod 10000 = true)
include control due

section
variable (above : cycles < 100 * stretched)
include above

theorem execDroopWindow_of_early (early : (s.mon p).droopRun < 2) :
    execDroopWindow p cycles stretched s = .next ((s.modMon p (fun m => { m with
      droopPeriod := periodNow s 10000 })).modMon p (fun m => { m with droopRun := m.droopRun + 1, droopFree := 0 })) := by
  simp [execDroopWindow, control, due, above, early]

/-- The third droopy window in a row. -/
theorem execDroopWindow_of_third (third : (s.mon p).droopRun = 2) :
    execDroopWindow p cycles stretched s = .next (
      let u := (s.modMon p (fun m => { m with droopPeriod := periodNow s 10000 })).modMon p (fun m => { m with
        droopRun := 0, droopFree := 0, droop := m.droop - 1 })
      settle (raiseMon u p .droopFrequent (names [(u.mon p).droop])) p) := by
  simp [execDroopWindow, control, due, above, third]

end

section
variable (within : 100 * stretched ≤ cycles)
include within

theorem execDroopWindow_of_free (free : (s.mon p).droopFree < 99) :
    execDroopWindow p cycles stretched s = .next ((s.modMon p (fun m => { m with
      droopPeriod := periodNow s 10000 })).modMon p (fun m => { m with droopRun := 0, droopFree := m.droopFree + 1 })) := by
  simp [execDroopWindow, control, due, Nat.not_lt.mpr within, free]

/-- The hundredth window in a row without droop. -/
theorem execDroopWindow_of_hundredth (hundredth : (s.mon p).droopFree = 99) :
    execDroopWindow p cycles stretched s = .next ((s.modMon p (fun m => { m with
      droopPeriod := periodNow s 10000 })).modMon p (fun m => { m with
        droopRun := 0, droopFree := 0, droop := min 23 (m.droop + 1) })) := by
  simp [execDroopWindow, control, due, Nat.not_lt.mpr within, hundredth]

end

end

/-! ### Ramps and ageing (14 R419, R420) -/

theorem execLevelRampDone_of_ramp {l : Nat} (ramp : (s.mon p).ramp = some l) :
    execLevelRampDone p s = .next (setLevel (s.modMon p (fun m => { m with ramp := none })) p l) := by
  rw [execLevelRampDone, ramp]

theorem execMarginMeasure_of_controls (mhz : Nat) (control : s.controls = true) :
    execMarginMeasure p mhz s = .next (applyMargin s p mhz) := by
  simp [execMarginMeasure, control]

/-! ### The budget loop (14 R418, R421, R426, R430) -/

section
variable {temp : Nat} {counts : List Nat} (powered : s.powered = true)
include powered

theorem execBudgetEstimate_of_distrusted (distrusted : (s.mon p).trust.distrusted = true) :
    execBudgetEstimate p counts temp s = .next (
      let u := s.modMon p (fun m => { m with temp := min temp 255 })
      let e := estimate u p counts
      let recent := ((u.mon p).estimates ++ [e]).drop ((u.mon p).estimates.length + 1 - 32)
      u.modMon p (fun m => { m with
        estimateLast := e, estimates := recent, estimateAvg := Config.roundMw recent.sum recent.length })) := by
  simp [execBudgetEstimate, powered, distrusted]

theorem execBudgetEstimate_of_trusted (running : runs s p = true) (unforced : (s.mon p).forced = none)
    (trusted : (s.mon p).trust.distrusted = false) :
    execBudgetEstimate p counts temp s = .next (
      let u := s.modMon p (fun m => { m with temp := min temp 255 })
      let e := estimate u p counts
      let recent := ((u.mon p).estimates ++ [e]).drop ((u.mon p).estimates.length + 1 - 32)
      let u := u.modMon p (fun m => { m with
        estimateLast := e, estimates := recent, estimateAvg := Config.roundMw recent.sum recent.length })
      let b := budgetCeiling u p counts
      climb (settle (u.modMon p (fun m => { m with
        budgetLevel := b, budgetExceeded := sat64 m.budgetExceeded (b2n (decide (m.budget < e))) })) p) p) := by
  have running' : ((s.mon p).domain == Domain.on) = true := running
  simp [execBudgetEstimate, runs, powered, running', unforced, trusted]

end

end

end Sys2Proof.Machine

namespace Sys2Proof

open Sys2Proof.Machine

/-- Settles O48, by the lemma of each command above. The effect of an ageing reading is the model's `applyMargin`
(log 71). -/
theorem monitorsComplete : Obligations.MonitorsComplete :=
  ⟨fun _ _ => execDroopDetect_of_runs, fun _ _ => execDroopEnd_of_stretching, fun _ _ _ _ => execDroopWindow_of_early,
    fun _ _ _ _ => execDroopWindow_of_third, fun _ _ _ _ => execDroopWindow_of_free,
    fun _ _ _ _ => execDroopWindow_of_hundredth, fun _ _ _ => execLevelRampDone_of_ramp,
    fun _ _ => execMarginMeasure_of_controls, fun _ _ _ _ powered _ _ => execBudgetEstimate_of_distrusted powered,
    fun _ _ _ _ => execBudgetEstimate_of_trusted⟩

end Sys2Proof
end

section
/-! PROOFS. Heat (14 R434-R440): the two thermal periods, trips and isolation, the mesh's halves and the stacks. -/

namespace Sys2Proof.Machine

/-- A change of the power state that leaves THROTTLE_TEMP leaves it also where it depends on a condition. -/
theorem throttleTemp_ite_modPower {c : Prop} [Decidable c] (u : State) {f : PowerSt → PowerSt}
    (kept : ∀ w, (f w).throttleTemp = w.throttleTemp) :
    (if c then u.modPower f else u).power.throttleTemp = u.power.throttleTemp := by
  split
  · exact kept _
  · rfl

section
variable {s : State} {p : Pid}

/-! ### Trips and isolation (14 R436, R437) -/

section
variable {tempC : Nat} (on : s.life.st ≠ .off)
include on

theorem execRegionTrip_of_hot (hot : 118 ≤ tempC) (present : (s.mon p).domain ≠ .isolated)
    (closed : (s.mon p).domain ≠ .tripped) :
    execRegionTrip ⟨p, tempC⟩ s = .next (
      let u := s.modMon p (fun m => { m with temp := min tempC 255 })
      let u := ((domainOff u p .tripped).modMon p (fun m => { m with trips := sat64 m.trips 1 })).modPower
        (fun w => { w with tripsTotal := sat32 w.tripsTotal 1 })
      raiseMon u p .regionTrip (names [(u.mon p).trips])) := by
  simp [execRegionTrip, tripTemp, on, Nat.not_lt.mpr hot, present, closed]

theorem execRegionTrip_of_cool (cool : tempC < 118) :
    execRegionTrip ⟨p, tempC⟩ s = .next (s.modMon p (fun m => { m with temp := min tempC 255 })) := by
  simp [execRegionTrip, tripTemp, on, cool]

end

theorem execHeatIsolation_of_third (tripped : (s.mon p).domain = .tripped) (third : 3 ≤ (s.mon p).trips) :
    execHeatIsolation p s = .next (isolateRegion (raiseMon s p .heatIsolation (names [(s.mon p).trips])) p
      Ev.heatIsolation.code) := by
  simp [execHeatIsolation, tripped, third]

theorem execHeatIsolation_of_late (off : (s.mon p).domain = .offHeat)
    (late : (s.mon p).offAt + s.power.restoreLimit ≤ s.time.ticks) (hot : s.power.throttleTemp < (s.mon p).temp + 10) :
    execHeatIsolation p s = .next (isolateRegion (raiseMon s p .heatIsolation (names [(s.mon p).trips])) p
      Ev.heatIsolation.code) := by
  simp [execHeatIsolation, off, late, hot]

/-! ### The halves of the mesh (14 R438) -/

section
variable {east : Bool} {tempC : Nat} (control : s.controls = true)
include control

theorem execMeshHeatEmergency_of_hot (hot : 105 ≤ tempC) :
    execMeshHeatEmergency east tempC s = .next (setHalf (s.modPower (fun w => { w with
      meshCool := vset w.meshCool (if east then 1 else 0) none })) east true) := by
  have above : 95 < tempC := by omega
  simp [execMeshHeatEmergency, control, hot, above]

theorem execMeshHeatEmergency_of_between (above : 95 < tempC) (below : tempC < 105) :
    execMeshHeatEmergency east tempC s = .next (s.modPower (fun w => { w with
      meshCool := vset w.meshCool (if east then 1 else 0) none })) := by
  simp [execMeshHeatEmergency, control, above, Nat.not_le.mpr below]

/-- A half that has been cool since tick t returns 100 ms later. -/
theorem execMeshHeatEmergency_of_cool {t : Nat} (cool : tempC ≤ 95)
    (since : (vget s.power.meshCool (if east then 1 else 0)).getD s.time.ticks = t) :
    execMeshHeatEmergency east tempC s = .next (
      let u := s.modPower (fun w => { w with meshCool := vset w.meshCool (if east then 1 else 0) (some t) })
      if t + 100000 ≤ s.time.ticks then setHalf u east false else u) := by
  have below : ¬ 105 ≤ tempC := by omega
  simp only [execMeshHeatEmergency, control, Nat.not_lt.mpr cool, below, since, Bool.not_true, Bool.false_eq_true, if_false,
    Option.any_some, decide_eq_true_eq]
  exact (apply_ite Host.Outcome.next ..).symm

/-! ### The stacks (14 R439) -/

theorem execStackThrottle_of_hot {sl : Slice} (hot : 95 ≤ (s.slice sl).mc.temp)
    (due : periodDue s s.power.cutPeriod 10000 = true) :
    execStackThrottle s = .next (
      let u := s.modPower (fun w => { w with
        poolCut := min 100 (w.poolCut + 5), throttleEpisode := true, cutPeriod := periodNow s 10000 })
      if s.power.throttleEpisode then u else raiseMod u .stackThrottle (names [u.power.poolCut])) := by
  have some_hot : allSlices.any (fun sl => 95 ≤ (s.slice sl).mc.temp) = true :=
    List.any_eq_true.mpr ⟨sl, by simp [allSlices], by simpa using hot⟩
  simp only [execStackThrottle, control, some_hot, due]
  cases s.power.throttleEpisode <;> rfl

end

end

end Sys2Proof.Machine

namespace Sys2Proof

open Sys2Proof.Machine

/-- Settles O51, by the lemma of each command above. That no region counts as hot since the last slower period by
`hotSeen` is the model's choice (log 71). -/
theorem heatComplete : Obligations.HeatComplete := by
  refine ⟨?down, ?up, fun _ _ _ hot on => execRegionTrip_of_hot on hot, fun _ _ _ cool on => execRegionTrip_of_cool on cool,
    fun _ _ => execHeatIsolation_of_third, fun _ _ => execHeatIsolation_of_late,
    fun _ _ _ => execMeshHeatEmergency_of_hot, fun _ _ _ => execMeshHeatEmergency_of_between,
    fun _ _ _ _ control => execMeshHeatEmergency_of_cool control, fun _ _ control hot => execStackThrottle_of_hot control hot⟩
  case down =>
    intro s temps control due
    show execThermalDownPeriod temps s = _
    simp only [execThermalDownPeriod, control, due, Bool.not_true, Bool.or_self, Bool.false_eq_true, if_false]
    generalize readTemps _ temps = u
    cases anyHot u with
    | true => rfl
    | false => rfl
  case up =>
    intro s temps control due
    show execThermalUpPeriod temps s = _
    simp only [execThermalUpPeriod, control, due, Bool.not_true, Bool.or_self, Bool.false_eq_true, if_false,
      State.modPower_power]
    generalize readTemps _ temps = u
    simp only [throttleTemp_ite_modPower, implies_true]
    generalize ite (α := State) (allSlices.all _ = true) _ u = v
    refine .trans (ite_congr rfl (fun _ => rfl) fun _ => ?_) (apply_ite Host.Outcome.next ..).symm
    generalize coolestOf _ _ = o
    cases o <;> rfl

end Sys2Proof
end

section
/-! PROOFS. The busbar input and the resets (15 R448, 17 R499, 18 R522-R525, R529): what starts it, opens it and clears the
module. -/

namespace Sys2Proof.Machine

section
variable {s : State}

/-! ### Start and shutdown (18 R522, R525) -/

theorem pairRange_iff {v : Nat} : pairRange v = true ↔ 4600 ≤ v ∧ v ≤ 5800 := by
  simp [pairRange]

theorem tryStart_of_present (off : s.input.st = .off) (asserted : s.input.pwrEn = true)
    (present : (s.input.pairA || s.input.pairB) = true) :
    tryStart s = s.modInput (fun x => { x with st := .softStart }) := by
  simp [tryStart, off, asserted, Bool.or_eq_true_iff.mp present]

theorem tryStart_of_on (on : s.input.st = .on) : tryStart s = s := by
  simp [tryStart, on]

theorem execPwrEnAssert_of_present {a b : Nat} (low : s.input.pwrEn = false) (off : s.input.st = .off)
    (present : (4600 ≤ a ∧ a ≤ 5800) ∨ (4600 ≤ b ∧ b ≤ 5800)) :
    execPwrEnAssert a b s = .next ((s.modInput (fun x => { x with
      pwrEn := true, pairA := pairRange a, pairB := pairRange b
      iLim := if pairRange a && pairRange b then 580 else 290 })).modInput (fun x => { x with st := .softStart })) := by
  have inRange : (pairRange a || pairRange b) = true := by simpa [pairRange_iff] using present
  rw [execPwrEnAssert, if_neg (by simp [low])]
  exact congrArg Host.Outcome.next (tryStart_of_present off rfl inRange)

theorem execSoftStartDone_of_asserted (soft : s.input.st = .softStart) (asserted : s.input.pwrEn = true) :
    execSoftStartDone s = .next (
      let u := s.modInput (fun x => { x with st := .on })
      if s.input.resetLow then u else boot u .off) := by
  simp [execSoftStartDone, soft, asserted]

theorem execStage2Start_of_boot (booting : s.life.st = .stewardBoot) (going : s.sec.halted = false) :
    execStage2Start s = .next (changeLife s .selfTest) := by
  simp [execStage2Start, booting, going]

theorem execPwrEnDeassert_of_on (on : s.input.st = .on) :
    execPwrEnDeassert s = .next (shutDown (s.modInput (fun x => { x with pwrEn := false })) .off) := by
  simp [execPwrEnDeassert, on]

theorem execInputLockout_of_on (on : s.input.st = .on) : execInputLockout s = .next (shutDown s .lockout) := by
  simp [execInputLockout, on]

theorem execLockoutClear_of_lockout (lockout : s.input.st = .lockout) (low : s.input.pwrEn = false) :
    execLockoutClear s = .next (s.modInput (fun x => { x with st := .off })) := by
  simp [execLockoutClear, lockout, low]

/-! ### The pairs (18 R522-R524) -/

theorem execInputPairLost_of_out {v us : Nat} (here : s.input.pairB = true) (on : s.input.st = .on)
    (powered : s.powered = true) (out : v < 4200 ∨ (v < 4600 ∧ 5000 < us) ∨ 5800 < v) :
    execInputPairLost ⟨true, v, us⟩ s = .next (raiseInput ((s.modInput (fun x => { x with pairB := false })).modInput
      (fun x => { x with iLim := 290 })) .inputPairLost v) := by
  have lost : (undervoltage v us || decide (5800 < v)) = true := by simpa [undervoltage, or_assoc] using out
  have kept : ((setPair s true false).modInput (fun x => { x with iLim := 290 })).powered = true := powered
  simp only [execInputPairLost, pairHere, if_true, here, lost, on, kept]
  rfl

/-- A dip that ride-through covers. -/
theorem execInputPairLost_of_dip {v us : Nat} (low : 4200 ≤ v) (high : v < 4600) (short : us ≤ 5000) :
    execInputPairLost ⟨true, v, us⟩ s = .next s := by
  have covered : (undervoltage v us || decide (5800 < v)) = false := by
    simp only [undervoltage, Bool.or_eq_false_iff, Bool.and_eq_false_iff, decide_eq_false_iff_not]
    omega
  simp [execInputPairLost, covered]

theorem execInputPairReturn_of_inRange {v us : Nat} (other : s.input.pairA = true) (away : s.input.pairB = false)
    (on : s.input.st = .on) (low : 4600 ≤ v) (high : v ≤ 5800) (long : 1000000 ≤ us) :
    execInputPairReturn ⟨true, v, us⟩ s = .next ((s.modInput (fun x => { x with pairB := true })).modInput (fun x => { x with
      iLim := 580 })) := by
  have inRange : pairRange v = true := pairRange_iff.mpr ⟨low, high⟩
  have short : ¬ us < 1000000 := by omega
  have both : currentLimit (setPair s true true).input = 580 := by simp [currentLimit, setPair, other]
  rw [execInputPairReturn, if_neg (by simp [pairHere, away, inRange, short])]
  refine congrArg Host.Outcome.next (.trans (tryStart_of_on (by exact on)) ?_)
  exact congrArg (fun i => (setPair s true true).modInput (fun x => { x with iLim := i })) both

/-! ### Resets (15 R448, 17 R499, 18 R529) -/

theorem execResetN_of_on (asserted : s.input.pwrEn = true) (on : s.input.st = .on) :
    execResetN s = .next (s.modInput (fun x => { x with resetLow := true })).cleared := by
  simp [execResetN, asserted, on]

theorem execResetNRelease_of_on (low : s.input.resetLow = true) (on : s.input.st = .on) (asserted : s.input.pwrEn = true) :
    execResetNRelease s = .next (boot (s.modInput (fun x => { x with resetLow := false })) .off) := by
  simp [execResetNRelease, low, on, asserted]

theorem execModuleReset_of_due (due : s.life.resetDue = true) : execModuleReset s = .next (moduleReset s) := by
  simp [execModuleReset, due]

theorem execStewardFault_of_powered (canLog : Bool) (on : s.life.st ≠ .off) :
    execStewardFault canLog s = .next (moduleReset (if canLog then s.modRecov (fun v => { v with
      plog := (v.plog ++ [({ seq := v.plogCount
                             record := mkRecord s 68 Ev.stewardFault.code .fatal (plocBlock 68) 0 } : LogEntry)]).drop
        (v.plog.length + 1 - 16384)
      plogCount := v.plogCount + 1 }) else s)) := by
  simp [execStewardFault, on]

end

end Sys2Proof.Machine

namespace Sys2Proof

open Sys2Proof.Machine

/-- Settles O54, by the lemma of each command above. What survives a shutdown (log 7), how OFF is entered and left, and
that a RESET_N held low holds the module in OFF (log 42) are not the spec's words but the model's reading. -/
theorem inputComplete : Obligations.InputComplete :=
  ⟨fun _ _ _ => execPwrEnAssert_of_present, fun _ => pairRange_iff, fun _ => execSoftStartDone_of_asserted,
    fun _ => execStage2Start_of_boot, fun _ => execPwrEnDeassert_of_on, fun _ => execInputLockout_of_on, fun _ _ => rfl,
    fun _ => execLockoutClear_of_lockout, fun _ _ _ => execInputPairLost_of_out, fun _ _ _ => execInputPairLost_of_dip,
    fun _ _ _ => execInputPairReturn_of_inRange, fun _ => execResetN_of_on, fun _ => execResetNRelease_of_on,
    fun _ => execModuleReset_of_due, fun _ => execStewardFault_of_powered false, fun _ => execStewardFault_of_powered true⟩

end Sys2Proof
end

section
/-! PROOFS. A write that is turned away (17 R495, R496, R508): it leaves the count of its frame, OPS_REJECTED and its answer. Of
the checks only those of the entries 9000-9FFF, which the spec leaves to data that it does not carry (17 R493), answer a
status that the model does not fix. -/

namespace Sys2Proof.Machine

section
variable {s : State} {r : Req} {index sub : Nat} {x : Session} {ap : Req → State → Nat × State}

theorem serveWrite_of_failed_check (served : Served s r index x) (failed : writeChecks s r x index sub ≠ 0)
    (ended : writeChecks s r x index sub ≠ stPending) :
    serveWrite s r index sub ap = storeAnswer { countFrame s r with
      dict := { (countFrame s r).dict with opsRejected := sat64 (countFrame s r).dict.opsRejected 1 } } r
      (writeChecks s r x index sub) := by
  unfold serveWrite serveOp
  simp [served.reaches, served.session, served.kept, served.fresh, served.header, failed, ended]

theorem serveWrite_of_failed_entry (passes : Passes s r index sub x) (failed : (ap r (countFrame s r)).1 ≠ 0)
    (ended : (ap r (countFrame s r)).1 ≠ stPending) :
    serveWrite s r index sub ap = storeAnswer { countFrame s r with
      dict := { (countFrame s r).dict with opsRejected := sat64 (countFrame s r).dict.opsRejected 1 } } r
      (ap r (countFrame s r)).1 :=
  serveWrite_refused passes rfl failed ended

theorem serveWrite_of_repeated (reaches : servedWrite s r index = true) (session : s.session r = some x)
    (kept : opDiscarded r x = false) (last : r.seq = x.lastSeq) (answered : x.answers.any (fun a => a.1 == r.op) = true) :
    serveWrite s r index sub ap = countFrame s r := by
  unfold serveWrite serveOp
  simp only [reaches, countFrame_session, session, kept, last, answered]
  rfl

theorem serveWrite_of_older (reaches : servedWrite s r index = true) (session : s.session r = some x)
    (older : r.seq < x.lastSeq) : serveWrite s r index sub ap = discardFrame (countFrame s r) r := by
  have discarded : opDiscarded r x = true := by simp [opDiscarded, older]
  unfold serveWrite serveOp
  simp only [reaches, countFrame_session, session, discarded]
  rfl

/-- The checks of the entries outside 9000-9FFF answer at once. -/
theorem writeChecks_ne_pending_of_outside (outside : ¬ (0x9000 ≤ index ∧ index ≤ 0x9FFF)) :
    writeChecks s r x index sub ≠ stPending := by
  have standard : ¬ (decide (0x9000 ≤ index) && decide (index ≤ 0x9FFF)) = true := by simpa using outside
  rw [writeChecks, if_neg standard]
  split
  · decide
  · decide
  · split_ifs <;> decide

end

/-- An entry of 9000-9FFF answers what the service data say, in SERVICE alone (17 R493). -/
theorem writeChecks_of_service (s : State) (r : Req) (x : Session) {index : Nat} (sub : Nat)
    (inside : 0x9000 ≤ index ∧ index ≤ 0x9FFF) :
    writeChecks s r x index sub = if s.life.st = .service ∧ classOf s r x = .service
      then Config.serviceStatus true index sub r.value else stLocked := by
  have service : (decide (0x9000 ≤ index) && decide (index ≤ 0x9FFF)) = true := by simpa using inside
  rw [writeChecks, if_pos service]
  simp only [Bool.and_eq_true, beq_iff_eq]

/-- The write of a value over the rack chain, which a module in SERVICE serves in the class service (17 R503). -/
def chainWrite (v : List Byte) : Req :=
  { via := .chain, session := 0, src := 0, seq := 1, op := 0, tagOk := true, typ := 9, value := v }

/-- No check leaves a write pending exactly where the service data do not. -/
theorem writeChecks_ne_pending_iff :
    (∀ (s : State) (r : Req) (x : Session) (index sub : Nat), writeChecks s r x index sub ≠ stPending)
      ↔ ∀ (index sub : Nat) (v : List Byte), 0x9000 ≤ index ∧ index ≤ 0x9FFF →
        Config.serviceStatus true index sub v ≠ stPending := by
  constructor
  · intro checks index sub v inside
    have answer := checks { life := { st := .service } } (chainWrite v) {} index sub
    rw [writeChecks_of_service _ _ _ _ inside, if_pos ⟨rfl, rfl⟩] at answer
    exact answer
  · intro status s r x index sub
    by_cases inside : 0x9000 ≤ index ∧ index ≤ 0x9FFF
    · rw [writeChecks_of_service _ _ _ _ inside]
      split
      · exact status _ _ _ inside
      · decide
    · exact writeChecks_ne_pending_of_outside inside

end Sys2Proof.Machine

namespace Sys2Proof

open Sys2Proof.Machine

/-- What O6 comes down to: it holds exactly where no status of the service data is 0x0403. That status is an opaque constant
of the model (17 R493, log 52), so that neither O6 nor its negation follows from the model. -/
theorem dictionaryWritesTurnedAway_iff :
    Obligations.DictionaryWritesTurnedAway ↔ ∀ (index sub : Nat) (v : List Byte), 0x9000 ≤ index ∧ index ≤ 0x9FFF →
      Config.serviceStatus true index sub v ≠ stPending := by
  rw [← writeChecks_ne_pending_iff]
  constructor
  · exact fun ⟨_, checks, _⟩ => checks
  · exact fun checks => ⟨fun _ _ _ _ _ _ => serveWrite_of_failed_check, checks,
      fun _ _ _ _ _ _ => serveWrite_of_failed_entry, fun _ _ _ _ _ _ => serveWrite_of_repeated,
      fun _ _ _ _ _ _ => serveWrite_of_older⟩

end Sys2Proof
end

section
/-! PROOFS. Shupo handshakes (17 R506, R507): a CHALLENGE numbers its session by 32 bits, and only sessions that are open are
limited, so that a module whose clients have answered no CHALLENGE can run out of numbers. -/

namespace Sys2Proof.Machine

/-- The number of a new session has 32 bits and is not zero. -/
theorem freshSession_mem (d : DictSt) (x : Nat) : 1 ≤ freshSession d x ∧ freshSession d x ≤ 2 ^ 32 - 1 := by
  unfold freshSession
  dsimp only
  cases found : List.find? (fun n => (sessionNum d n).isNone)
      ((List.range (d.sessions.length + 1)).map (fun i => 1 + (x + i) % (2 ^ 32 - 1))) with
  | none => decide
  | some n =>
    obtain ⟨i, -, rfl⟩ := List.mem_map.mp (List.mem_of_find?_eq_some found)
    rw [Option.getD_some]
    omega

/-- The session that a HELLO brings. -/
def challenged (s : State) (key eph nonce : List Byte) : Session :=
  let c := Config.challenge s.free
  let n := freshSession s.dict c.2.2
  let t := key ++ eph ++ nonce ++ c.1 ++ c.2.1 ++ (leBytes 4 n).reverse
  { num := n, key := key, transcript := t, keys := Config.sessionKeys s.free t }

theorem challenged_num_mem (s : State) (key eph nonce : List Byte) :
    1 ≤ (challenged s key eph nonce).num ∧ (challenged s key eph nonce).num ≤ 2 ^ 32 - 1 := freshSession_mem ..

theorem execShupoHello_of_room {s : State} (port : Fin 2) (key eph nonce : List Byte) (served : s.served = true)
    (room : openCount s.dict < 16) :
    execShupoHello port key eph nonce s = .next ({ frameIn s with free := s.free + 1 }.modDict
      (fun d => { d with sessions := d.sessions ++ [challenged (frameIn s) key eph nonce] })) := by
  have below : ¬ 16 ≤ openCount (frameIn s).dict := Nat.not_le.mpr room
  simp only [execShupoHello, served, Bool.not_true, Bool.false_eq_true, if_false, if_neg below]
  rfl

/-! ### A module with n handshakes under way -/

/-- A READY module with n handshakes under way, under the numbers 1 to n. -/
def awaitingProofs (n : Nat) : State :=
  { life := { st := .ready }, dict := { sessions := (List.range n).map (fun i => { num := i + 1 }) } }

theorem awaitingProofs_served (n : Nat) : (awaitingProofs n).served = true := rfl

theorem awaitingProofs_openCount (n : Nat) : openCount (awaitingProofs n).dict = 0 := by
  simp [openCount, awaitingProofs]

theorem awaitingProofs_taken {n k : Nat} (low : 1 ≤ k) (high : k ≤ n) : sessionNum (awaitingProofs n).dict k ≠ none := by
  simp only [sessionNum, awaitingProofs, ne_eq, List.find?_eq_none, not_forall]
  refine ⟨{ num := k }, List.mem_map.mpr ⟨k - 1, List.mem_range.mpr (by omega), ?_⟩, by simp⟩
  rw [Nat.sub_add_cancel low]

end Sys2Proof.Machine

namespace Sys2Proof

open Sys2Proof.Machine

/-- Refutes O57, by its first clause: with all 2^32 - 1 numbers held by handshakes under way and no session open, a HELLO
is served and brings a session whose number another has already. -/
theorem not_sessionsComplete : ¬ Obligations.SessionsComplete := by
  rintro ⟨hello, -⟩
  obtain ⟨y, brought, -, -, -, unused⟩ := hello (awaitingProofs (2 ^ 32 - 1)) 0 [] [] [] (awaitingProofs_served _)
    (by rw [awaitingProofs_openCount]; decide)
  have same := brought.symm.trans (execShupoHello_of_room 0 [] [] [] (awaitingProofs_served _)
    (by rw [awaitingProofs_openCount]; decide))
  have number : y = challenged (frameIn (awaitingProofs (2 ^ 32 - 1))) [] [] [] := by
    have sessions := congrArg (fun t : State => t.dict.sessions) (Host.Outcome.next.inj same)
    simpa using List.append_cancel_left sessions
  obtain ⟨low, high⟩ := challenged_num_mem (frameIn (awaitingProofs (2 ^ 32 - 1))) [] [] []
  rw [← number] at low high
  exact awaitingProofs_taken low high unused

end Sys2Proof
end

section
/-! PROOFS. Plans and jobs (10 R318, 17 R514, R515): the writes of PLAN_DATA, PLAN_COMMAND, JOB_ADDRESS and JOB_DATA, and the
ends of a pending LOAD_PLAN and LOAD_JOB. -/

namespace Sys2Proof.Machine

section
variable {s : State} {r : Req} {x : Session}

/-- Counting the frame leaves the session of a write that passes. -/
theorem session_countFrame_of_passes {index sub : Nat} (passes : Passes s r index sub x) :
    (countFrame s r).session r = some x := by
  rw [countFrame_session, passes.session]

/-! ### PLAN_DATA (17 R514) -/

theorem wPlanData_of_below (session : s.session r = some x) (below : x.planOffset < 2 ^ 34) :
    wPlanData r s = (0, (s.modDict (fun d => { d with
      planChunks := Mem.store d.planChunks x.planOffset r.value
      planLength := max d.planLength (x.planOffset + 4096) })).modSession r (fun y => { y with
      planOffset := x.planOffset + 4096 })) := by
  simp only [wPlanData, session, Option.map_some, Option.getD_some, if_neg (Nat.not_le.mpr below)]

/-! ### PLAN_COMMAND (17 R514) -/

theorem planCommand_accepted {t : State} {code : Nat} (passes : Passes s r 0x2100 3 x) (hc : reqNat r = code)
    (taken : wPlanCommand r (countFrame s r) = (0, t)) : planCommand code r s = storeAnswer t r 0 := by
  rw [planCommand, if_pos hc, serveWrite_accepted passes taken]

theorem planCommand_pending {t : State} {code : Nat} (passes : Passes s r 0x2100 3 x) (hc : reqNat r = code)
    (taken : wPlanCommand r (countFrame s r) = (stPending, t)) : planCommand code r s = storeAnswer t r stPending := by
  rw [planCommand, if_pos hc, serveWrite_pending passes taken]

section
variable (free : s.dict.planCommand = 0)
include free

/-- LOAD_PLAN takes the chunks as it is accepted (log 46). -/
theorem wPlanCommand_load (code : reqNat r = 1) (ready : s.life.st = .ready) (unplanned : s.dict.plan = none) :
    wPlanCommand r s = (stPending, (s.modDict (fun d => { d with
      planCommand := 1, planStatus := 0x0403 })).modDict takeChunks) := by
  simp [wPlanCommand, code, ready, unplanned, free, stPending]

theorem wPlanCommand_unload (code : reqNat r = 2) (settled : s.life.st = .ready ∨ s.life.st = .paused) :
    wPlanCommand r s = (0, endPlan (unloadAll s) 0) := by
  rcases settled with ready | paused
  · simp [wPlanCommand, code, ready, free]
  · simp [wPlanCommand, code, paused, free]

theorem wPlanCommand_loadJob (code : reqNat r = 3) (ready : s.life.st = .ready) (plan : s.dict.plan.isSome = true)
    (unloaded : s.commit.loaded = false) :
    wPlanCommand r s = (stPending, startJob (s.modDict (fun d => { d with planCommand := 3, planStatus := 0x0403 }))) := by
  have present : s.dict.plan.isNone = false := by rw [Option.isNone_eq_false_iff]; exact plan
  simp [wPlanCommand, code, ready, present, unloaded, free, stPending]

end

/-- A discard leaves PLAN_STATUS where a command is pending (log 73). -/
theorem wPlanCommand_discard (code : reqNat r = 4) :
    wPlanCommand r s = (0, (s.modDict (fun d => { d with
      planChunks := [], planLength := 0, planStatus := if d.planCommand = 0 then 0 else d.planStatus })).modSession r
      (fun y => { y with planOffset := 0 })) := by
  simp only [wPlanCommand, code, bne_iff_ne, ne_eq, ite_not]
  rfl

/-! ### The ends of LOAD_PLAN and LOAD_JOB (10 R318, 17 R514) -/

theorem execLoadPlanDone_of_ready (pending : s.dict.planCommand = 1) (ready : s.life.st = .ready) :
    execLoadPlanDone s =
      .next (endPlan (if (judgePlan s).2 = 0 then installPlan s (judgePlan s).1 else s) (judgePlan s).2) := by
  simp [execLoadPlanDone, pending, ready]

/-- Outside READY the load ends with 0x0401 (log 46). -/
theorem execLoadPlanDone_of_not_ready (pending : s.dict.planCommand = 1) (left : s.life.st ≠ .ready) :
    execLoadPlanDone s = .next (endPlan s 0x0401) := by
  simp [execLoadPlanDone, pending, left, stWrongState]

theorem execLoadJobDone_of_acked (pending : s.dict.planCommand = 3) (loaded : s.commit.loaded = true)
    (copied : s.rim.acked = true ∨ s.modules ≤ 1) : execLoadJobDone s = .next (endPlan s 0) := by
  simp [execLoadJobDone, pending, loaded, copied]

/-! ### JOB_ADDRESS and JOB_DATA (17 R515) -/

theorem wJobAddress_of_inside (writable : jobOpen s = true) (aligned : reqNat r % 4096 = 0)
    (inside : jobInside s (reqNat r) = true) :
    wJobAddress r s = (0, s.modSession r (fun y => { y with jobAddress := reqNat r })) := by
  simp [wJobAddress, accept, writable, aligned, inside]

theorem wJobData_of_inside (session : s.session r = some x) (writable : jobOpen s = true)
    (aligned : x.jobAddress % 4096 = 0) (inside : jobInside s x.jobAddress = true) :
    wJobData r s = (0, (((List.range 64).foldl
      (fun t i => planWrite t (x.jobAddress + 64 * i) (sliceBytes r.value (64 * i) 64)) s).modDict (fun d => { d with
      jobWritten := d.jobWritten + 4096 })).modSession r (fun y => { y with jobAddress := x.jobAddress + 4096 })) := by
  simp [wJobData, session, writable, aligned, inside]

end

end Sys2Proof.Machine

namespace Sys2Proof

open Sys2Proof.Machine

/-- Settles O60, by the lemma of each command above; a write passes the common checks first, and its entry judges it on the
state with the frame counted. The chunks taken at acceptance and the 0x0401 outside READY are deduced (log 46), PLAN_STATUS
kept at a discard is the model's choice (log 73). -/
theorem plansAndJobsComplete : Obligations.PlansAndJobsComplete := by
  refine ⟨?planData, ?loadPlan, fun _ => execLoadPlanDone_of_ready, fun _ => execLoadPlanDone_of_not_ready, ?unload,
    ?loadJob, ?discard, fun _ => execLoadJobDone_of_acked, ?jobAddress, ?jobData⟩
  case planData =>
    exact fun _ _ _ passes below =>
      congrArg _ (serveWrite_accepted passes (wPlanData_of_below (session_countFrame_of_passes passes) below))
  case loadPlan =>
    intro s r x passes code ready unplanned free
    exact congrArg _ (planCommand_pending passes code (wPlanCommand_load free code (by rwa [countFrame_life]) unplanned))
  case unload =>
    intro s r x passes code settled free
    exact congrArg _ (planCommand_accepted passes code (wPlanCommand_unload free code (by rwa [countFrame_life])))
  case loadJob =>
    intro s r x passes code ready plan unloaded free
    exact congrArg _ (planCommand_pending passes code
      (wPlanCommand_loadJob free code (by rwa [countFrame_life]) plan (by rwa [countFrame_commit])))
  case discard => exact fun _ _ _ passes code => congrArg _ (planCommand_accepted passes code (wPlanCommand_discard code))
  case jobAddress =>
    exact fun _ _ _ passes writable aligned inside =>
      congrArg _ (serveWrite_accepted passes (wJobAddress_of_inside writable aligned inside))
  case jobData =>
    exact fun _ _ _ passes writable aligned inside => congrArg _ (serveWrite_accepted passes
      (wJobData_of_inside (session_countFrame_of_passes passes) writable aligned inside))

end Sys2Proof
end

section
/-! PROOFS. The coolant (18 R531, R533, R537): what a reading of the carrier sensor leaves of the limits. -/

namespace Sys2Proof.Machine

/-! ### An event leaves the input -/

@[simp] theorem raise_input (s : State) (node : Nat) (ev : Ev) (ploc data : Nat) :
    (raise s node ev ploc data).input = s.input := by
  obtain ⟨m, hm⟩ := raise_eq s node ev ploc data
  rw [hm]
  rfl

@[simp] theorem raiseInput_input (s : State) (ev : Ev) (reading : Nat) : (raiseInput s ev reading).input = s.input :=
  raise_input ..

@[simp] theorem coolReading_input (s : State) (x : Sensor) (flowBad tempBad : Bool) :
    (coolReading s x flowBad tempBad).2.input = s.input := rfl

@[simp] theorem raiseCool_input (s : State) (was now : CoolLimit) (ev : Ev) (x : Sensor) (flowBad tempBad : Bool) :
    (raiseCool s was now ev x flowBad tempBad).input = s.input := by
  unfold raiseCool
  split
  · rfl
  · exact raiseInput_input ..

/-! ### A limit after a reading (18 R533) -/

theorem CoolLimit.read_true_on (c : CoolLimit) : (c.read true).on = (c.on || decide (10 ≤ c.held + 1)) := by
  simp [CoolLimit.read]

theorem CoolLimit.read_false_on (c : CoolLimit) : (c.read false).on = (c.on && decide (c.clear + 1 < 100)) := by
  simp [CoolLimit.read]

/-- A limit whose condition a reading does not meet does not begin. -/
theorem raiseCool_of_read_false (s : State) (c : CoolLimit) (ev : Ev) (x : Sensor) (flowBad tempBad : Bool) :
    raiseCool s c (c.read false) ev x flowBad tempBad = s := by
  have stands : (c.on || !(c.read false).on) = true := by
    rw [CoolLimit.read_false_on]
    cases c.on <;> rfl
  rw [raiseCool, if_pos stands]

/-! ### COOLANT_READ (18 R531, R533) -/

section
variable {s : State} {x : Sensor} (on : s.input.st = .on) (control : s.controls = true)
  (due : periodDue s s.input.period 100000 = true)
include on control due

theorem execCoolantRead_of_within (dry : x.leak = false) (was_dry : s.input.leak = false) (flow : 4000 ≤ x.flow)
    (cool : x.tInlet ≤ 3500) :
    execCoolantRead x s = .next (s.modInput (fun i => { i with
      vinA := x.vinA, vinB := x.vinB, iinA := x.iinA, iinB := x.iinB, pin := x.pin, tInlet := x.tInlet,
      tOutlet := x.tOutlet, flow := x.flow, leak := false, margin := i.margin.read false, limit := i.limit.read false,
      failed := i.failed.read false, period := periodNow s 100000 })) := by
  have low (l : Nat) (h : l ≤ 4000) : decide (x.flow < l) = false := decide_eq_false (by omega)
  have hot (t : Int) (h : 3500 ≤ t) : decide (t < x.tInlet) = false := decide_eq_false (by omega)
  simp only [execCoolantRead, on, control, due, dry, was_dry, low 4000 (by decide), low 3000 (by decide),
    low 1000 (by decide), hot 3500 (by decide), hot 4000 (by decide), Bool.or_self, raiseCool_of_read_false, bne_self_eq_false,
    Bool.not_true, Bool.and_false, Bool.false_and, Bool.false_eq_true, if_false]
  rfl

theorem execCoolantRead_of_leak (leak : s.input.leak = true) :
    ∃ t, execCoolantRead x s = .next t ∧ t.input.leak = true ∧ t.input.flow = x.flow
      ∧ t.input.failed = s.input.failed.read true := by
  simp only [execCoolantRead, on, control, due, leak, Bool.true_or, Bool.or_true, Bool.or_self, bne_self_eq_false,
    Bool.not_true, Bool.false_eq_true, if_false]
  refine ⟨_, rfl, ?_⟩
  split
  · simp
  · simp

end

end Sys2Proof.Machine

namespace Sys2Proof

open Sys2Proof.Machine

/-- Settles O55: the readings by the lemmas above, a limit by what a reading leaves of it. -/
theorem coolantComplete : Obligations.CoolantComplete := by
  refine ⟨fun _ _ => execCoolantRead_of_within, fun _ _ => execCoolantRead_of_leak, ?waits, ?begins, ?stays, ?ends⟩
  case waits => intro c off held; simp [CoolLimit.read_true_on, off, held]
  case begins => intro c held; simp [CoolLimit.read_true_on, held]
  case stays => intro c on clear; simpa [CoolLimit.read_false_on, on] using Nat.succ_lt_succ clear
  case ends => intro c clear; simp [CoolLimit.read_false_on, clear]

end Sys2Proof
end
